-- ==== Sys2Proof/Word.lean ====
section
/-! DEFINITION. The one machine word of the OK-620's formats: a byte. Every other quantity of the manual is a
number with a unit and a range (00_scope.md, Quantities and units) and is a Nat or an Int of the model. -/

namespace Sys2Proof

/-- A byte of a telegram, a field record or the external memory (R168, R169, R170). -/
abbrev Byte := BitVec 8

end Sys2Proof
end

