-- ==== Sys2Proof/Config.lean ====
section
/-! DEFINITION. The free values of the model: values the manual does not state. Each is an opaque constant, so no
proof can see what it is and a theorem holds whatever it is. (The station's configuration block is not here: it is
data in the external memory, parsed into `Machine.Image`.) -/

namespace Sys2Proof.Config

/-- The bytes sent or stored for a number that does not fit its field: `n` bytes, unsigned. The manual gives every
field a range and says nothing of a number outside it (assumption 3). -/
opaque unencodableNat : (n v : Nat) → Nat

/-- As `unencodableNat`, for a signed field of `n` bytes (assumption 3). -/
opaque unencodableInt : (n : Nat) → (v : Int) → Nat

/-- What a code or a flag byte of a restored checkpoint that lies outside its codes is taken as: `tag` names the
field, `raw` is the byte read (R164 sends the reader to each chapter, and none gives a value; assumption 4). -/
opaque restoredCode : (tag raw : Nat) → Nat

/-- A byte of a checkpoint slot whose write was abandoned or cut off: how far the write had gone is not stated
(R166). `draw` numbers the abandoned writes, `offset` is the place in the slot (assumption 5). -/
opaque partialByte : (draw offset : Nat) → Byte

end Sys2Proof.Config
end

