-- ==== Sys2Proof/Machine/Bytes.lean ====
section
/-! DEFINITION. Byte order, the two checks, bit stuffing and the field codecs of 13_formats.md and R144. -/

namespace Sys2Proof.Machine

open Sys2Proof (Byte)

/-! ### Numbers as bytes -/

/-- `n` bytes of a number, most significant byte first (13_formats.md). -/
def natBytes : (n v : Nat) → List Byte
  | 0, _ => []
  | n + 1, v => natBytes n (v / 256) ++ [BitVec.ofNat 8 v]

/-- The number that bytes spell, most significant byte first. -/
def bytesNat (bs : List Byte) : Nat := bs.foldl (fun acc b => acc * 256 + b.toNat) 0

/-- Two's complement of `n` bytes, read back as a signed number (13_formats.md). -/
def signed (n v : Nat) : Int := if v < 2 ^ (8 * n - 1) then (v : Int) else (v : Int) - 2 ^ (8 * n)

/-- `n` bytes of an unsigned field. A number outside the field has no stated bytes (assumption 3). -/
def encNat (n v : Nat) : List Byte := natBytes n (if v < 2 ^ (8 * n) then v else Config.unencodableNat n v)

/-- `n` bytes of a signed field, two's complement. A number outside the field has no stated bytes (assumption 3). -/
def encInt (n : Nat) (v : Int) : List Byte :=
  natBytes n (if -2 ^ (8 * n - 1) ≤ v ∧ v < 2 ^ (8 * n - 1) then (v % 2 ^ (8 * n)).toNat else Config.unencodableInt n v)

/-- A number's low `n` bits, most significant first. -/
def bitsOf : (n v : Nat) → List Bool
  | 0, _ => []
  | n + 1, v => v.testBit n :: bitsOf n v

/-- The bits of bytes in the order they go onto the line: most significant first (R168). -/
def byteBits (bs : List Byte) : List Bool := bs.flatMap (fun b => bitsOf 8 b.toNat)

/-- The number that bits spell, most significant first. -/
def bitsNat (l : List Bool) : Nat := l.foldl (fun acc b => acc * 2 + b.toNat) 0

/-- Whole bytes of a bit sequence; fewer than eight bits at the end are no byte. -/
def bitsBytes : List Bool → List Byte
  | a :: b :: c :: d :: e :: f :: g :: h :: rest =>
      BitVec.ofNat 8 (bitsNat [a, b, c, d, e, f, g, h]) :: bitsBytes rest
  | _ => []

/-- A number in a packed field of `width` bits. One that does not fit has no stated bits: a free value stands there
(assumption 3). -/
def packedField (width v : Nat) : Nat :=
  if v < 2 ^ width then v else Config.unencodableNat ((width + 7) / 8) v % 2 ^ width

/-- Packed fields (width, value), filled most significant bit first and running on across byte edges
(13_formats.md). -/
def packed (fields : List (Nat × Nat)) : Nat := fields.foldl (fun acc f => acc * 2 ^ f.1 + packedField f.1 f.2) 0

/-! ### Checks (R168, R170) -/

/-- One bit of a check register of `width` bits: shift left, and combine with the generator when the bit shifted out
differs from the covered bit (R168). -/
def crcBit (width poly : Nat) (reg : Nat) (bit : Bool) : Nat :=
  let shifted := reg * 2 % 2 ^ width
  if reg.testBit (width - 1) = bit then shifted else shifted ^^^ poly

/-- A check register over covered bytes, each byte most significant bit first, starting from all ones. -/
def crc (width poly : Nat) (bs : List Byte) : Nat :=
  bs.foldl (fun reg b => (bitsOf 8 b.toNat).foldl (crcBit width poly) reg) (2 ^ width - 1)

/-- The 16-bit check of telegrams and field records (R168). -/
def check16 (bs : List Byte) : Nat := crc 16 4129 bs

/-- The 32-bit check of the configuration block and the checkpoint slots (R170): the generator of R170 without its
x^32 term, whose exponents are 26, 23, 22, 16, 12, 11, 10, 8, 7, 5, 4, 2, 1 and 0. -/
def check32 (bs : List Byte) : Nat :=
  crc 32 (2^26 + 2^23 + 2^22 + 2^16 + 2^12 + 2^11 + 2^10 + 2^8 + 2^7 + 2^5 + 2^4 + 2^2 + 2^1 + 2^0) bs

/-- Bytes closed by their 16-bit check (R168). -/
def sealed16 (bs : List Byte) : List Byte := bs ++ natBytes 2 (check16 bs)

/-- Bytes closed by their 32-bit check (R170). -/
def sealed32 (bs : List Byte) : List Byte := bs ++ natBytes 4 (check32 bs)

/-! ### Bit stuffing (R144) -/

/-- Stuffing, with the run of equal bits that ends just before the list: after a run of five a bit of the opposite
value goes in, and it counts as the first of the next run (R144). -/
def stuffFrom (last : Bool) (run : Nat) : List Bool → List Bool
  | [] => []
  | b :: rest =>
    let run' := if b = last then run + 1 else 1
    if run' = 5 then b :: (!b) :: stuffFrom (!b) 1 rest else b :: stuffFrom b run' rest

/-- The bits of a stuffed span with their stuff bits (R144). -/
def stuff : List Bool → List Bool := stuffFrom false 0

/-- Unstuffing: the stuff bit after a run of five is removed; `none` for a run of six equal bits (R144). -/
def unstuffFrom (last : Bool) (run : Nat) : List Bool → Option (List Bool)
  | [] => some []
  | b :: rest =>
    if run = 5 then
      if b = last then none else unstuffFrom b 1 rest
    else (unstuffFrom b (if b = last then run + 1 else 1) rest).map (b :: ·)

/-- A stuffed span without its stuff bits; `none` for a run of six equal bits, which counts as a failed check (R144). -/
def unstuff : List Bool → Option (List Bool) := unstuffFrom false 0

/-- The bits on the line of a telegram's bytes. The top bit of byte 0 stands before the arbitration value (R168), and the
stuffed span begins with the arbitration value's first bit (R144). -/
def lineOf (bs : List Byte) : List Bool :=
  match byteBits bs with
  | [] => []
  | top :: span => top :: stuff span

/-- The bits of a received telegram's bytes: the top bit of byte 0, and the span after it without its stuff bits (R144,
R168). -/
def unline : List Bool → Option (List Bool)
  | [] => some []
  | top :: span => (unstuff span).map (top :: ·)

/-! ### Field codecs: one description for writing and reading a layout -/

/-- How a field of `size` bytes is written and read. -/
structure Codec (α : Type) where
  size : Nat
  enc  : α → List Byte
  dec  : List Byte → α

/-- An unsigned field of `n` bytes. -/
def codecNat (n : Nat) : Codec Nat := ⟨n, encNat n, fun bs => bytesNat (bs.take n)⟩

/-- A signed field of `n` bytes. -/
def codecInt (n : Nat) : Codec Int := ⟨n, encInt n, fun bs => signed n (bytesNat (bs.take n))⟩

/-- A presence byte, 1 for present (R170), or a flag byte, 1 for set (assumption 62). Another value read has no stated
meaning: `tag` names the field (assumption 4). -/
def codecFlag (tag : Nat) : Codec Bool :=
  ⟨1, fun b => natBytes 1 b.toNat, fun bs =>
    let raw := bytesNat (bs.take 1)
    if raw = 0 then false else if raw = 1 then true else Config.restoredCode tag raw % 2 = 1⟩

/-- Two fields, one after the other. -/
def codecPair {α β : Type} (c : Codec α) (d : Codec β) : Codec (α × β) :=
  ⟨c.size + d.size, fun x => c.enc x.1 ++ d.enc x.2, fun bs => (c.dec bs, d.dec (bs.drop c.size))⟩

/-- Reading `n` fields of one kind, one after the other. -/
def decodeMany {α : Type} (c : Codec α) : (n : Nat) → List Byte → List α
  | 0, _ => []
  | n + 1, bs => c.dec bs :: decodeMany c n (bs.drop c.size)

/-- The first `n` bytes of a list, with zeros where it has fewer. -/
def fitBytes (n : Nat) (bs : List Byte) : List Byte := (bs ++ List.replicate n 0).take n

/-- `n` fields of one kind. They fill their `n` places and no more, so that a layout keeps its length whatever list it is
given; the lists that the part keeps have `n` elements. -/
def codecList {α : Type} (n : Nat) (c : Codec α) : Codec (List α) :=
  ⟨n * c.size, fun l => fitBytes (n * c.size) (l.map c.enc).flatten, decodeMany c n⟩

/-- The same bytes under another type. -/
def codecAs {α β : Type} (c : Codec α) (put : β → α) (get : α → β) : Codec β :=
  ⟨c.size, fun x => c.enc (put x), fun bs => get (c.dec bs)⟩

end Sys2Proof.Machine
end

