-- ==== Sys2Proof/Syntax.lean ====
section
/-! DEFINITION. The vocabulary of the manual (names in capitals there are constructors here) and the commands of the
block: `Instr`, one constructor per row of spec/opcode_table.json. A telegram row carries the telegram's source
station, its destination and its payload as R168 lays them out; a row for an event inside the part carries only what
the event names. -/

namespace Sys2Proof

/-- A direction of flow. -/
inductive Flow where
  | inject
  | withdraw
  deriving DecidableEq, Repr

/-- A direction of the manual: INJECT, WITHDRAW or NONE. -/
abbrev Dir := Option Flow

/-- One of the two dryer beds (07_gas_drying.md). -/
inductive Bed where
  | a
  | b
  deriving DecidableEq, Repr

/-- The train modes, in the order of their codes (13_formats.md). -/
inductive Mode where
  | config | listen | idle | inject | withdraw | reversing | hold | shutIn
  deriving DecidableEq, Repr

/-- The compressor unit states, in the order of their codes (13_formats.md). -/
inductive UnitState where
  | stopped | queued | starting | running | stopping | tripped | lockout
  deriving DecidableEq, Repr

/-- The compressor feedback of a SAMPLE (R169). -/
inductive Feedback where
  | stopped | starting | running | tripped
  deriving DecidableEq, Repr

/-- A lineup, commanded or fed back (R68, R169). -/
inductive Lineup where
  | closed | inject | withdraw
  deriving DecidableEq, Repr

/-- The fields of a SAMPLE as R169 lays them out. A measured field is `none` when its validity bit is clear, or, for
a feedback, when its value lies outside its codes (VOID). Whether a number lies in its range is for R123 to say. -/
structure Sample where
  sequence        : Nat
  totalizerReset  : Bool
  meter           : Option Nat
  cv              : Option Nat
  wellhead        : Option Nat
  wellheadTemp    : Option Int
  header          : Option Nat
  feedback        : Option Feedback
  suction         : Option Nat
  discharge       : Option Nat
  compFuel        : Option Nat
  heaterFuel      : Option Nat
  inletPressure   : Option Nat
  inletTemp       : Option Int
  bedATemp        : Option Int
  bedBTemp        : Option Int
  dewPoint        : Option Int
  lineup          : Option Lineup
  deriving DecidableEq, Repr

/-- The commands of the block, one constructor per row of spec/opcode_table.json. `src` and `dst` are the source
station and the destination of a telegram (R144). In an ORDER `arg` is the bed or direction byte as received. -/
inductive Instr where
  /-- POWER_ON_RESET (R163): the strap pins' number, whether the memory failed to acknowledge the read of the
  configuration block, and the checkpoint slots whose read it failed to acknowledge. -/
  | powerOnReset (straps : Nat) (blockUnread : Bool) (slotsUnread : List Nat)
  /-- LINE_RESET (R163): the RESET input, with the strap pins' number. -/
  | lineReset (straps : Nat)
  /-- CLOCK_SECOND (R135). -/
  | clockSecond
  /-- HOLD_BACK_RUN_OUT (R139). -/
  | holdBackRunOut
  /-- DAY_REPORT_QUEUE (R9). -/
  | dayReportQueue
  /-- TIME (R137). -/
  | time (src dst day second : Nat)
  /-- NOMS (R14). -/
  | noms (src dst slot day hour : Nat) (rate : Int)
  /-- OFFER (R78): direction code, offer, share, site target, mode code, unit state code. -/
  | offer (src dst dir offer share target mode unit : Nat)
  /-- INVT (R24): half, stamp, eight inventories. -/
  | invt (src dst half day hour : Nat) (inventories : List Int)
  /-- CLAIM (R91). -/
  | claim (src dst : Nat)
  /-- CEDE (R92). -/
  | cede (src dst : Nat)
  /-- JOIN (R154). -/
  | join (src dst : Nat)
  /-- HALT (R153), with its reason code. -/
  | halt (src dst reason : Nat)
  /-- RESUME (R153). -/
  | resume (src dst : Nat)
  /-- ORDER SHUT (R66). -/
  | orderShut (src dst arg litres : Nat)
  /-- ORDER RELEASE (R67). -/
  | orderRelease (src dst arg litres : Nat)
  /-- ORDER UNLOCK (R100). -/
  | orderUnlock (src dst arg litres : Nat)
  /-- ORDER BED_OUT (R116). -/
  | orderBedOut (src dst arg litres : Nat)
  /-- ORDER BED_IN (R117). -/
  | orderBedIn (src dst arg litres : Nat)
  /-- ORDER ACCEPT (R129). -/
  | orderAccept (src dst arg litres : Nat)
  /-- ORDER CORRECT (R129). -/
  | orderCorrect (src dst arg litres : Nat)
  /-- ORDER CLEAR (R158). -/
  | orderClear (src dst arg litres : Nat)
  /-- ORDER RESTART (R161). -/
  | orderRestart (src dst arg litres : Nat)
  /-- An ORDER with any other command value (R160). -/
  | orderUnknownCommand (src dst command arg litres : Nat)
  /-- REPORT (R149). -/
  | report (src dst : Nat)
  /-- A telegram of an unknown kind, or of a wrong class or length for its kind (R149, R168). -/
  | unknownKind (src dst kind : Nat)
  /-- A telegram whose check fails, whose source is 0 or whose length byte is above 64 (R149, R168). -/
  | receiveError
  /-- A completed telegram under the part's own number that is not its echo (R152), with its kind. -/
  | dupStation (kind : Nat)
  /-- SEND_START (R145): the line is idle. -/
  | sendStart
  /-- ARBITRATION_LOST (R144). -/
  | arbitrationLost
  /-- ECHO_INTACT (R145). -/
  | echoIntact
  /-- ECHO_MISMATCH (R145). -/
  | echoMismatch
  /-- LINE_HELD (R151): the line has read dominant for more than 40 bit times. -/
  | lineHeld
  /-- FAULT_IDLE_WAIT (R151): the line has been idle for 1 s without a break. -/
  | faultIdleWait
  /-- SAMPLE (R122); `none` stands for a record whose check fails (R169). -/
  | sample (record : Option Sample)
  /-- SETPOINT_SEND_DONE (R132). -/
  | setpointSendDone
  /-- FIELD_LATE (R124). -/
  | fieldLate
  /-- FIELD_LOST (R124). -/
  | fieldLost
  /-- SUSPENSE_OLD (R128), for the record of the direction. -/
  | suspenseOld (flow : Flow)
  /-- LISTEN_30_S_MARK (R57). -/
  | listen30sMark
  /-- LISTEN_120_S_MARK (R57). -/
  | listen120sMark
  /-- START_TIMEOUT (R94). -/
  | startTimeout
  /-- MIN_STOP_ELAPSED (R99). -/
  | minStopElapsed
  /-- MIN_RUN_ELAPSED (R96). -/
  | minRunElapsed
  /-- ZERO_DEMAND_300_S (R96). -/
  | zeroDemand300s
  /-- START_HISTORY_AGE_OUT (R89). -/
  | startHistoryAgeOut
  /-- TRIP_HISTORY_AGE_OUT (R98). -/
  | tripHistoryAgeOut
  /-- HEAD_HOLD_EXPIRY (R92). -/
  | headHoldExpiry
  /-- HEAT_MAXIMUM (R113), for the bed. -/
  | heatMaximum (bed : Bed)
  /-- COOL_MAXIMUM (R114), for the bed. -/
  | coolMaximum (bed : Bed)
  /-- CHECKPOINT_WRITE_DONE (R166). -/
  | checkpointWriteDone
  /-- CKPT_FAIL (R166). -/
  | ckptFail
  /-- POWER_LOSS (R166). -/
  | powerLoss
  deriving DecidableEq, Repr

end Sys2Proof
end

