-- ==== Sys2Proof/Machine/State.lean ====
section
/-! DEFINITION. The state of the OK-620, block by block as 00_scope.md names the blocks, and the state after reset.
Every structure's field defaults are its power-on values when no checkpoint slot is valid, so the reset tables of the
chapters can be read off them. Fields that the manual gives only an implied home are marked "model's own". -/

namespace Sys2Proof.Machine

open Sys2Proof (Flow Dir Bed Mode UnitState Feedback Lineup Sample Instr Byte)

/-! ### Site clock (R134) -/

/-- The site clock's state (R134), with its power-on values (R143). -/
structure Clock where
  day      : Nat := 0
  second   : Nat := 0
  synced   : Bool := false
  holdBack : Nat := 0
  /-- The refused-step record: empty, or a count with a difference in seconds (R141). -/
  refused  : Option (Nat × Int) := none
  deriving DecidableEq, Repr

/-! ### Account table (R1) -/

/-- The five day totals of a slot (R4). -/
structure Totals where
  injected  : Nat := 0
  withdrawn : Nat := 0
  compFuel  : Nat := 0
  regenFuel : Nat := 0
  shortfall : Nat := 0
  deriving DecidableEq, Repr

/-- What the part itself moves of a slot record (R1); the contract fields are read from the configuration image. -/
structure Slot where
  inventory : Int := 0
  totals    : Totals := {}
  spaceOver : Bool := false
  deriving DecidableEq, Repr

/-- The account table (R1, R7, R9, R38), with its power-on values (R12). -/
structure Accounts where
  /-- The seventeen slot records, slot 0 first. -/
  slots          : List Slot := List.replicate 17 {}
  carryInject    : Int := 0
  carryWithdraw  : Int := 0
  /-- The closed-day set: its day number (none while it holds no closed day), the copies and the provisional flag. What the
  copies and the flag hold while the set is empty is the model's choice (assumption 43). -/
  closedDay      : Option Nat := none
  closed         : List Slot := List.replicate 17 {}
  provisional    : Bool := false
  restoredTotals : Bool := false
  /-- The report cursor: a slot, or 17 when finished. -/
  cursor         : Nat := 17
  /-- A DAY report of the present close stands in the transmit queue. -/
  outstanding    : Bool := false
  deriving DecidableEq, Repr

/-! ### Nomination unit (R15, R30, R31) -/

/-- The nomination state of one shipper slot (R15, R18): its current rate and its pending list of hour indices and
rates. -/
structure Nominee where
  current : Int := 0
  pending : List (Nat × Int) := []
  deriving DecidableEq, Repr

/-- The nomination unit (R18, R32): slots 1 to 16, the hour direction, the confirmed rates and the site target T. -/
structure Nominations where
  shippers  : List Nominee := List.replicate 16 {}
  hourDir   : Dir := none
  confirmed : List Int := List.replicate 16 0
  target    : Nat := 0
  deriving DecidableEq, Repr

/-! ### Peer tables (R23, R78, R91) -/

/-- The two half records of one peer train (R23); a half whose heard flag is clear is `none`. -/
structure PeerView where
  station : Nat
  half1   : Option (List Int) := none
  half2   : Option (List Int) := none
  deriving DecidableEq, Repr

/-- What a filled entry of the peer offer table holds (R78); `heard` is a site-second index. -/
structure HeardOffer where
  dir     : Dir
  offer   : Nat
  target  : Nat
  heard   : Nat
  diverge : Bool
  deriving DecidableEq, Repr

/-- One entry of the peer offer table (R78). -/
structure PeerOffer where
  station : Nat
  entry   : Option HeardOffer := none
  deriving DecidableEq, Repr

/-- The peer tables (R23, R78, R91). -/
structure Peers where
  view       : List PeerView := []
  offers     : List PeerOffer := []
  /-- The start queue copy, head first. -/
  startQueue : List Nat := []
  /-- The head age; 0 while the copy is empty. -/
  headAge    : Nat := 0
  deriving DecidableEq, Repr

/-! ### Train mode controller (R54, R72) -/

/-- The reversal phase (R54). -/
inductive Phase where
  | ramp
  | dwell
  deriving DecidableEq, Repr

/-- The pressure history ring (R72): 61 places, the write position and the entry count. -/
structure Ring where
  places : List Nat := List.replicate 61 0
  write  : Nat := 0
  count  : Nat := 0
  deriving DecidableEq, Repr

/-- The train mode controller (R54, R72), with its power-on values (R55). Times are site-second indices (R134). -/
structure Train where
  mode       : Mode := .config
  phase      : Option Phase := none
  lastFlow   : Dir := none
  dwell      : Option Nat := none
  listenDone : Bool := false
  joinTime   : Option Nat := none
  demand     : Int := 0
  lineup     : Lineup := .closed
  offer      : Nat := 0
  offerDir   : Dir := none
  share      : Nat := 0
  ring       : Ring := {}
  deriving DecidableEq, Repr

/-! ### Compressor sequencer (R84) -/

/-- The path (R86). -/
inductive Path where
  | free
  | compressed
  deriving DecidableEq, Repr

/-- The compressor command (R88). -/
inductive CompCommand where
  | stop | start | run
  deriving DecidableEq, Repr

/-- The compressor sequencer (R84), with its power-on values (R85). -/
structure Compressor where
  path          : Path := .compressed
  capacity      : Nat := 0
  unit          : UnitState := .stopping
  command       : CompCommand := .stop
  claimInFlight : Bool := false
  cedePending   : Bool := false
  /-- Ages, newest last. -/
  starts        : List Nat := []
  /-- Ages, newest last. -/
  trips         : List Nat := []
  runTimer      : Nat := 0
  stopTimer     : Nat := 0
  startTimer    : Option Nat := none
  zeroDemand    : Nat := 0
  feedback      : Option Feedback := none
  /-- STOPPING and awaiting the first feedback after a reset (R85). -/
  awaiting      : Bool := true
  startLimit    : Bool := false
  fuelCarry     : Nat := 0
  deriving DecidableEq, Repr

/-! ### Dryer controller (R104) -/

/-- The bed states, in the order of their table (R104). -/
inductive BedState where
  | standby | adsorbing | heating | cooling | out
  deriving DecidableEq, Repr

/-- A bed valve (R106). -/
inductive Valve where
  | isolate | adsorb | regen
  deriving DecidableEq, Repr

/-- A bed record (R104), with its power-on values (R107). -/
structure BedRecord where
  state       : BedState := .standby
  loading     : Nat := 0
  waterCarry  : Nat := 0
  /-- The passage list: one energy sum for each of the seventeen slots (R105). -/
  passage     : List Nat := List.replicate 17 0
  accumulator : Nat := 0
  heaterCarry : Nat := 0
  phaseTimer  : Option Nat := none
  deriving DecidableEq, Repr

/-- The dryer controller (R104). The dryer limit is `none` for "no limit". -/
structure Dryer where
  bedA      : BedRecord := {}
  bedB      : BedRecord := {}
  idleCarry : Nat := 0
  dewHigh   : Bool := false
  limit     : Option Nat := none
  dryBlock  : Bool := false
  deriving DecidableEq, Repr

/-! ### Measurement intake (R123 to R133) -/

/-- A held value and its held time (R123). -/
structure Held where
  value : Int
  time  : Nat
  deriving DecidableEq, Repr

/-- The ten held values (R123); `none` while a field has had no valid value since the last reset. -/
structure HeldValues where
  cv            : Option Held := none
  wellhead      : Option Held := none
  header        : Option Held := none
  suction       : Option Held := none
  discharge     : Option Held := none
  inletPressure : Option Held := none
  inletTemp     : Option Held := none
  bedA          : Option Held := none
  bedB          : Option Held := none
  dewPoint      : Option Held := none
  deriving DecidableEq, Repr

/-- An order that has made a suspense record due (R129): who sent it, its command code and argument as received, and
the litres to book. -/
structure Due where
  console : Nat
  command : Nat
  arg     : Nat
  litres  : Nat
  book    : Nat
  deriving DecidableEq, Repr

/-- A suspense record (R128). `oldRaised` is the model's own: SUSPENSE_OLD has been raised for the record. -/
structure Suspense where
  openDay    : Nat
  openSecond : Nat
  age        : Nat
  span       : Nat
  volume     : Option Nat
  cv         : Nat
  snapshot   : List Int
  due        : Option Due := none
  oldRaised  : Bool := false
  deriving DecidableEq, Repr

/-- The seven fields of a SETPOINT (R132). -/
structure Setpoint where
  demand  : Int := 0
  lineup  : Lineup := .closed
  mode    : Mode := .config
  command : CompCommand := .stop
  valveA  : Valve := .isolate
  valveB  : Valve := .isolate
  heater  : Bool := false
  deriving DecidableEq, Repr

/-- A totalizer baseline with its restore mark (R125, R127, R131). -/
structure Baseline where
  reading     : Option Nat := none
  restoreMark : Bool := false
  deriving DecidableEq, Repr

/-- The measurement intake (R122 to R133), with its power-on values. -/
structure Intake where
  held          : HeldValues := {}
  /-- The latest valid CV of the open interval. -/
  latestCv      : Option Nat := none
  lastSequence  : Option Nat := none
  fieldTimer    : Nat := 0
  lateRaised    : Bool := false
  fieldLost     : Bool := false
  checkFailures : Nat := 0
  sequenceGaps  : Nat := 0
  hourSamples   : Nat := 0
  /-- The lineup feedback of the latest accepted SAMPLE; `none` when it arrived VOID, or before the first one. -/
  lineup        : Option Lineup := none
  meter         : Baseline := {}
  meterSpan     : Nat := 0
  compFuel      : Baseline := {}
  heaterFuel    : Baseline := {}
  /-- The open interval: litres, the two Wh sums and the SAMPLEs accepted. -/
  volume        : Nat := 0
  compWh        : Nat := 0
  heaterWh      : Nat := 0
  samples       : Nat := 0
  suspInject    : Option Suspense := none
  suspWithdraw  : Option Suspense := none
  /-- The SETPOINT fields as their owners last handed them. -/
  handed        : Setpoint := {}
  /-- The SETPOINT being sent. -/
  sending       : Option Setpoint := none
  /-- The pending mark. -/
  sendAgain     : Bool := false
  deriving DecidableEq, Repr

/-! ### Condition monitor (R156, R157, R162) -/

/-- The thirty-one conditions, in the order of their codes (R156). -/
inductive Cond where
  | strayFlow | cvHeld | cvDefault | capShortfall | fuelShortfall | spaceOver | nomRefused | meterGap
  | meterImplausible | meterReset | restoreGap | suspenseOld | fieldLate | fieldLost | clockStep | txDrop
  | txFail | dupStation | linkFault | targetDiverge | startLimit | startTimeout | compTrip | compLockout
  | bedFault | dryBlock | dewHigh | reportLost | ckptFail | restoreOld | restoreNone
  deriving DecidableEq, Repr

/-- An exception record (R157). -/
structure ExceptionRecord where
  code   : Nat
  day    : Nat
  second : Nat
  slot   : Nat
  value  : Int
  deriving DecidableEq, Repr

/-- The condition monitor (R156, R157, R162). The flags, counters and marks stand in the order of the condition
codes, code 1 first. -/
structure Monitor where
  sticky       : List Bool := List.replicate 31 false
  counters     : List Nat := List.replicate 31 0
  exceptions   : List ExceptionRecord := []
  lostCount    : Nat := 0
  summary      : List Bool := List.replicate 31 false
  sumInjected  : Nat := 0
  sumWithdrawn : Nat := 0
  sumCompFuel  : Nat := 0
  sumHeater    : Nat := 0
  deriving DecidableEq, Repr

/-! ### Link controller (R145, R146, R149 to R153) -/

/-- The link states (10_the_station_link.md, Link states). -/
inductive LinkState where
  | joining | active | fault | silent
  deriving DecidableEq, Repr

/-- The part's JOIN (R150): not held, waiting for an idle line, or on the line. -/
inductive JoinState where
  | absent | waiting | onLine
  deriving DecidableEq, Repr

/-- The outcomes of an order, in the order of their codes (13_formats.md). -/
inductive OrderOutcome where
  | done | refusedState | refusedHalt | refusedNone | refusedArg
  deriving DecidableEq, Repr

/-- The content of an HOURLY report (R162). -/
structure HourlyReport where
  mode      : Mode
  hourDir   : Dir
  day       : Nat
  hour      : Nat
  target    : Nat
  injected  : Nat
  withdrawn : Nat
  compFuel  : Nat
  heater    : Nat
  /-- The confirmed rates of slots 1 to 16 as per-mille of T. -/
  rates     : List Nat
  summary   : List Bool
  sticky    : List Bool
  /-- Check-failure, sequence-gap, sample, receive-error and discard counts. -/
  counts    : List Nat
  deriving DecidableEq, Repr

/-- The content of a DAY report (R9). -/
structure DayReport where
  day         : Nat
  slot        : Nat
  shipper     : Nat
  totals      : Totals
  inventory   : Int
  spaceOver   : Bool
  provisional : Bool
  deriving DecidableEq, Repr

/-- The content of a CONDITION report (R157). -/
structure ConditionReport where
  record    : ExceptionRecord
  counter   : Nat
  kept      : Bool
  lostCount : Nat
  deriving DecidableEq, Repr

/-- The content of an ORDER_REPLY (R160), with the console it goes to. -/
structure OrderReply where
  console : Nat
  command : Nat
  arg     : Nat
  litres  : Nat
  outcome : OrderOutcome
  deriving DecidableEq, Repr

/-- The telegrams the part sends through its transmit queue (R144, R168); its JOIN is held apart (R150). -/
inductive Telegram where
  | claim
  | cede
  | offer (dir : Dir) (offer share target : Nat) (mode : Mode) (unit : UnitState)
  | invt (half day hour : Nat) (inventories : List Int)
  | hourly (r : HourlyReport)
  | day (r : DayReport)
  | condition (r : ConditionReport)
  | reply (r : OrderReply)
  deriving DecidableEq, Repr

/-- The owner of an entry, as far as its outcome is acted on (R145): the account table for a DAY report of the
present close, nobody for a DAY report of an earlier one (R11), the sequencer, the link controller for the reply to a
RESTART (R161), or a block that does nothing more. -/
inductive Owner where
  | dayCursor | pastClose | sequencer | restart | other
  deriving DecidableEq, Repr

/-- An entry of the transmit queue (R146). `ticket` is the model's own: it numbers the entries in the order in which
they entered, for the "newest" of R148. -/
structure Entry where
  telegram   : Telegram
  owner      : Owner
  onLine     : Bool := false
  mismatches : Nat := 0
  ticket     : Nat := 0
  deriving DecidableEq, Repr

/-- The link controller (R145 to R153), with its power-on values (R155). -/
structure Link where
  state          : LinkState := .joining
  queue          : List Entry := []
  refusalMark    : Bool := false
  join           : JoinState := .absent
  joinFailures   : Nat := 0
  /-- The halt set, without repeats. -/
  haltSet        : List Nat := []
  receiveErrors  : Nat := 0
  discards       : Nat := 0
  /-- A restart is pending (R161). No reset table lists it: clear after both resets (DEDUCED, assumption 70). -/
  restartPending : Bool := false
  /-- The model's own: the ticket of the next entry. -/
  nextTicket     : Nat := 0
  deriving DecidableEq, Repr

/-! ### Memory port (R163 to R167) and the configuration image -/

/-- A shipper record of the configuration block (R1, R170). -/
structure ShipperRecord where
  code          : Nat := 0
  space         : Nat := 0
  ib            : Nat := 0
  wb            : Nat := 0
  injectTable   : Nat := 0
  withdrawTable : Nat := 0
  deriving DecidableEq, Repr

/-- A ratchet table as the block holds it: the breakpoint count and eight places (R19, R170). -/
structure RatchetTable where
  count  : Nat := 0
  places : List (Nat × Nat) := List.replicate 8 (0, 0)
  deriving DecidableEq, Repr

/-- The dryer figures of the configuration block (R103). -/
structure DryerFigures where
  capacity     : Nat := 0
  switchLevel  : Nat := 0
  breakthrough : Nat := 0
  heatTarget   : Int := 0
  coolTarget   : Int := 0
  heatExpected : Nat := 0
  coolExpected : Nat := 0
  heatMaximum  : Nat := 0
  coolMaximum  : Nat := 0
  dewHigh      : Int := 0
  hysteresis   : Nat := 0
  hysteresisD  : Nat := 0
  waterTable   : List (Int × Nat) := List.replicate 8 (0, 0)
  deriving DecidableEq, Repr

/-- The configuration block as it is laid out in the external memory, its check left out (R163, R170). -/
structure Image where
  expectedCount : Nat := 0
  expectedAll   : List Nat := List.replicate 24 0
  timeSource    : Nat := 0
  scheduling    : Nat := 0
  consoleCount  : Nat := 0
  consolesAll   : List Nat := List.replicate 2 0
  leadTime      : Nat := 0
  stationMax    : Nat := 0
  rampRate      : Nat := 0
  dwellMinutes  : Nat := 0
  qmax          : Nat := 0
  defaultCv     : Nat := 0
  rounding      : Nat := 0
  pMin          : Nat := 0
  pMax          : Nat := 0
  taper         : Nat := 0
  dpMax         : Nat := 0
  capacity      : List (Nat × Nat) := List.replicate 6 (0, 0)
  margin        : Nat := 0
  band          : Nat := 0
  minRun        : Nat := 0
  minStop       : Nat := 0
  autoRestart   : Nat := 0
  dryer         : DryerFigures := {}
  shippers      : List ShipperRecord := List.replicate 16 {}
  ratchets      : List RatchetTable := List.replicate 8 {}
  escalation    : Nat := 0
  deriving DecidableEq, Repr

/-- A suspense record as a checkpoint holds it (R170). -/
structure SavedSuspense where
  present       : Bool := false
  openDay       : Nat := 0
  openSecond    : Nat := 0
  age           : Nat := 0
  span          : Nat := 0
  volumePresent : Bool := false
  volume        : Nat := 0
  cv            : Nat := 0
  snapshot      : List Int := List.replicate 16 0
  deriving DecidableEq, Repr

/-- A history as a checkpoint holds it: a count and three places (R170). -/
structure SavedHistory where
  count  : Nat := 0
  places : List Nat := List.replicate 3 0
  deriving DecidableEq, Repr

/-- A shipper's nominations as a checkpoint holds them: the current rate, the pending count, four places (R170). -/
structure SavedNominee where
  current : Int := 0
  count   : Nat := 0
  places  : List (Nat × Int) := List.replicate 4 (0, 0)
  deriving DecidableEq, Repr

/-- A bed record as a checkpoint holds it; `timer` is all ones for "none" (R170). -/
structure SavedBed where
  state       : Nat := 0
  loading     : Nat := 0
  waterCarry  : Nat := 0
  passage     : List Nat := List.replicate 17 0
  accumulator : Nat := 0
  heaterCarry : Nat := 0
  timer       : Nat := 0
  deriving DecidableEq, Repr

/-- A checkpoint's content, field for field as R170 lays it out, its sequence number and check left out. Codes and
flags are the numbers stored. -/
structure Checkpoint where
  stampDay      : Nat := 0
  stampHour     : Nat := 0
  slots         : List Slot := List.replicate 17 {}
  closedDay     : Nat := 0
  closedPresent : Bool := false
  provisional   : Bool := false
  cursor        : Nat := 17
  closed        : List Slot := List.replicate 17 {}
  carryInject   : Int := 0
  carryWithdraw : Int := 0
  fuelCarry     : Nat := 0
  idleCarry     : Nat := 0
  nominees      : List SavedNominee := List.replicate 16 {}
  confirmed     : List Int := List.replicate 16 0
  hourDir       : Nat := 0
  target        : Nat := 0
  bedA          : SavedBed := {}
  bedB          : SavedBed := {}
  unit          : Nat := 0
  starts        : SavedHistory := {}
  trips         : SavedHistory := {}
  runTimer      : Nat := 0
  stopTimer     : Nat := 0
  suspInject    : SavedSuspense := {}
  suspWithdraw  : SavedSuspense := {}
  lastFlow      : Nat := 0
  meter         : Bool × Nat := (false, 0)
  compFuel      : Bool × Nat := (false, 0)
  heaterFuel    : Bool × Nat := (false, 0)
  deriving DecidableEq, Repr

/-- The restore condition that waits for the part to leave CONFIG (R164). -/
inductive RestoreNote where
  | old (sequence : Nat)
  | nothing
  deriving DecidableEq, Repr

/-- The memory port (R163 to R167), with its power-on values. -/
structure MemoryPort where
  /-- The configuration image; `none` when the block failed its check. -/
  image      : Option Image := none
  /-- The ring cursor: the sequence number of the next checkpoint. -/
  nextSeq    : Nat := 0
  /-- The checkpoint whose write is in progress. -/
  writing    : Option Checkpoint := none
  /-- The checkpoint held to be written after it. -/
  waiting    : Option Checkpoint := none
  /-- The restored stamp: gas day and hour. -/
  stamp      : Option (Nat × Nat) := none
  catchUp    : Bool := false
  note       : Option RestoreNote := none
  deriving DecidableEq, Repr

/-- The external memory (R170): its bytes, and the checkpoint slots whose last write has not ended with their check, one
in progress among them (R166). -/
structure ExternalMemory where
  cells      : List Host.Cell := []
  unfinished : List Nat := []
  deriving DecidableEq, Repr

/-! ### The whole part -/

/-- The state of the part, its strap pins and the external memory on its port. -/
structure State where
  /-- Whether the part has its supply (R166). -/
  powered   : Bool := true
  /-- The strap pins SN4 to SN0 (R163). -/
  straps    : Nat := 0
  /-- The latched station number (R163). -/
  station   : Nat := 0
  clock     : Clock := {}
  acct      : Accounts := {}
  nom       : Nominations := {}
  peers     : Peers := {}
  train     : Train := {}
  comp      : Compressor := {}
  dryer     : Dryer := {}
  intake    : Intake := {}
  mon       : Monitor := {}
  link      : Link := {}
  port      : MemoryPort := {}
  ext       : ExternalMemory := {}
  /-- The model's own: how many free values have been drawn (assumption 5). -/
  freeDraws : Nat := 0
  /-- The commands that wait, first in, first out. -/
  pending   : List Instr := []
  deriving DecidableEq, Repr

/-- The state after a power-on reset on an empty external memory with every strap at 0 (R163): no image, mode CONFIG,
every block at its power-on value for "no checkpoint slot valid". -/
def State.reset : State := {}

/-- The reasons a step can stop the block with a fault: none. The manual describes no state in which the block
halts, and every command has an effect (or none) in every state; see NOTES.md, Stops. -/
inductive Fault where
  deriving DecidableEq, Repr

/-- The reasons a step can refuse a command. -/
inductive Refusal where
  /-- Raised by `exec` for a command without a meaning in the model; no arm raises it. Safe: it ends the run. -/
  | notModelled (mnemonic : String)
  deriving DecidableEq, Repr

/-! ### Updates of one block -/

def State.onClock (s : State) (f : Clock → Clock) : State := { s with clock := f s.clock }
def State.onAcct (s : State) (f : Accounts → Accounts) : State := { s with acct := f s.acct }
def State.onNom (s : State) (f : Nominations → Nominations) : State := { s with nom := f s.nom }
def State.onPeers (s : State) (f : Peers → Peers) : State := { s with peers := f s.peers }
def State.onTrain (s : State) (f : Train → Train) : State := { s with train := f s.train }
def State.onComp (s : State) (f : Compressor → Compressor) : State := { s with comp := f s.comp }
def State.onDryer (s : State) (f : Dryer → Dryer) : State := { s with dryer := f s.dryer }
def State.onIntake (s : State) (f : Intake → Intake) : State := { s with intake := f s.intake }
def State.onMon (s : State) (f : Monitor → Monitor) : State := { s with mon := f s.mon }
def State.onLink (s : State) (f : Link → Link) : State := { s with link := f s.link }
def State.onPort (s : State) (f : MemoryPort → MemoryPort) : State := { s with port := f s.port }
def State.onExt (s : State) (f : ExternalMemory → ExternalMemory) : State := { s with ext := f s.ext }

end Sys2Proof.Machine
end

