-- ==== Sys2Proof/Machine/Formats.lean ====
section
/-! DEFINITION. The codes and layouts of 13_formats.md: the configuration block and the checkpoint slot (R170), the
telegrams the part sends (R168) and the SETPOINT (R169). -/

namespace Sys2Proof.Machine

open Sys2Proof (Flow Dir Bed Mode UnitState Feedback Lineup Byte)

/-! ### Codes (13_formats.md, the table of codes) -/

def flowCode : Flow → Nat
  | .inject => 1
  | .withdraw => 2

def dirCode : Dir → Nat
  | none => 0
  | some f => flowCode f

/-- A direction read from its code; `none` for a value outside its codes ("any other value"). -/
def dirOfCode : Nat → Option Dir
  | 0 => some none
  | 1 => some (some .inject)
  | 2 => some (some .withdraw)
  | _ => none

/-- An order's direction: INJECT or WITHDRAW; `none` for any other value (R129). -/
def flowOfCode : Nat → Option Flow
  | 1 => some .inject
  | 2 => some .withdraw
  | _ => none

/-- An order's bed; `none` for a value that names neither (R116, R117). -/
def bedOfCode : Nat → Option Bed
  | 1 => some .a
  | 2 => some .b
  | _ => none

def bedCode : Bed → Nat
  | .a => 1
  | .b => 2

def modeCode : Mode → Nat
  | .config => 0 | .listen => 1 | .idle => 2 | .inject => 3
  | .withdraw => 4 | .reversing => 5 | .hold => 6 | .shutIn => 7

def unitCode : UnitState → Nat
  | .stopped => 0 | .queued => 1 | .starting => 2 | .running => 3
  | .stopping => 4 | .tripped => 5 | .lockout => 6

def lineupCode : Lineup → Nat
  | .closed => 0 | .inject => 1 | .withdraw => 2

def lineupOfCode : Nat → Option Lineup
  | 0 => some .closed | 1 => some .inject | 2 => some .withdraw | _ => none

def feedbackCode : Feedback → Nat
  | .stopped => 0 | .starting => 1 | .running => 2 | .tripped => 3

def feedbackOfCode : Nat → Option Feedback
  | 0 => some .stopped | 1 => some .starting | 2 => some .running | 3 => some .tripped | _ => none

def commandCode : CompCommand → Nat
  | .stop => 0 | .start => 1 | .run => 2

def valveCode : Valve → Nat
  | .isolate => 0 | .adsorb => 1 | .regen => 2

def outcomeCode : OrderOutcome → Nat
  | .done => 0 | .refusedState => 1 | .refusedHalt => 2 | .refusedNone => 3 | .refusedArg => 4

/-- The code of a bed state in a checkpoint. 13_formats.md gives no codes for it: the order of the table of R104
(assumption 6). -/
def bedStateCode : BedState → Nat
  | .standby => 0 | .adsorbing => 1 | .heating => 2 | .cooling => 3 | .out => 4

/-- The numbers of the restored fields, for `Config.restoredCode`. -/
def tagSpaceOver : Nat := 1
def tagClosedPresent : Nat := 2
def tagProvisional : Nat := 3
def tagSuspense : Nat := 4
def tagVolume : Nat := 5
def tagBaseline : Nat := 6
def tagBedState : Nat := 7
def tagUnit : Nat := 8
def tagHourDir : Nat := 9
def tagLastFlow : Nat := 10
def tagCursor : Nat := 11
def tagPending : Nat := 12
def tagHistory : Nat := 13

/-! ### The configuration block (R170) -/

/-- A capacity breakpoint: a ratio and its rate. R170 names "six ratios (2) and rates (4)"; the model reads the 36 bytes as
six such pairs, one after the other (DEDUCED, assumption 66). -/
def codecCapacityPoint : Codec (Nat × Nat) := codecPair (codecNat 2) (codecNat 4)

/-- A shipper record (R170). -/
def codecShipper : Codec ShipperRecord :=
  codecAs (codecPair (codecNat 4) (codecPair (codecNat 6) (codecPair (codecNat 4) (codecPair (codecNat 4)
    (codecPair (codecNat 1) (codecNat 1))))))
    (fun r => (r.code, r.space, r.ib, r.wb, r.injectTable, r.withdrawTable))
    (fun (a, b, c, d, e, f) => ⟨a, b, c, d, e, f⟩)

def codecRatchet : Codec RatchetTable :=
  codecAs (codecPair (codecNat 1) (codecList 8 (codecPair (codecNat 2) (codecNat 2))))
    (fun t => (t.count, t.places)) (fun (a, b) => ⟨a, b⟩)

def codecDryer : Codec DryerFigures :=
  codecAs (codecPair (codecNat 4) (codecPair (codecNat 2) (codecPair (codecNat 2) (codecPair (codecInt 2)
    (codecPair (codecInt 2) (codecPair (codecNat 2) (codecPair (codecNat 2) (codecPair (codecNat 2)
    (codecPair (codecNat 2) (codecPair (codecInt 2) (codecPair (codecNat 1) (codecPair (codecNat 1)
    (codecList 8 (codecPair (codecInt 2) (codecNat 4)))))))))))))))
    (fun d => (d.capacity, d.switchLevel, d.breakthrough, d.heatTarget, d.coolTarget, d.heatExpected,
      d.coolExpected, d.heatMaximum, d.coolMaximum, d.dewHigh, d.hysteresis, d.hysteresisD, d.waterTable))
    (fun (a, b, c, d, e, f, g, h, i, j, k, l, m) => ⟨a, b, c, d, e, f, g, h, i, j, k, l, m⟩)

/-- The configuration block in order, its check left out: 760 bytes (R170). Its capacity table is six pairs of a ratio and a
rate (assumption 66). -/
def codecImage : Codec Image :=
  codecAs (codecPair (codecNat 1) (codecPair (codecList 24 (codecNat 1)) (codecPair (codecNat 1)
    (codecPair (codecNat 1) (codecPair (codecNat 1) (codecPair (codecList 2 (codecNat 1)) (codecPair (codecNat 1)
    (codecPair (codecNat 4) (codecPair (codecNat 4) (codecPair (codecNat 1) (codecPair (codecNat 4)
    (codecPair (codecNat 4) (codecPair (codecNat 1) (codecPair (codecNat 2) (codecPair (codecNat 2)
    (codecPair (codecNat 2) (codecPair (codecNat 2) (codecPair (codecList 6 codecCapacityPoint)
    (codecPair (codecNat 2) (codecPair (codecNat 2) (codecPair (codecNat 1) (codecPair (codecNat 1)
    (codecPair (codecNat 1) (codecPair codecDryer (codecPair (codecList 16 codecShipper)
    (codecPair (codecList 8 codecRatchet) (codecNat 4)))))))))))))))))))))))))))
    (fun m => (m.expectedCount, m.expectedAll, m.timeSource, m.scheduling, m.consoleCount, m.consolesAll, m.leadTime,
      m.stationMax, m.rampRate, m.dwellMinutes, m.qmax, m.defaultCv, m.rounding, m.pMin, m.pMax, m.taper, m.dpMax,
      m.capacity, m.margin, m.band, m.minRun, m.minStop, m.autoRestart, m.dryer, m.shippers, m.ratchets, m.escalation))
    (fun (a, b, c, d, e, f, g, h, i, j, k, l, m, n, o, p, q, r, s, t, u, v, w, x, y, z, ee) =>
      ⟨a, b, c, d, e, f, g, h, i, j, k, l, m, n, o, p, q, r, s, t, u, v, w, x, y, z, ee⟩)

/-! ### The checkpoint slot (R170) -/

def codecTotals : Codec Totals :=
  codecAs (codecList 5 (codecNat 6))
    (fun t => [t.injected, t.withdrawn, t.compFuel, t.regenFuel, t.shortfall])
    (fun l => ⟨l.getD 0 0, l.getD 1 0, l.getD 2 0, l.getD 3 0, l.getD 4 0⟩)

/-- A slot record: inventory, five day totals, space-over flag. -/
def codecSlot : Codec Slot :=
  codecAs (codecPair (codecInt 6) (codecPair codecTotals (codecFlag tagSpaceOver)))
    (fun s => (s.inventory, s.totals, s.spaceOver)) (fun (a, b, c) => ⟨a, b, c⟩)

/-- A closed-day copy: five totals, inventory, space-over flag. -/
def codecClosed : Codec Slot :=
  codecAs (codecPair codecTotals (codecPair (codecInt 6) (codecFlag tagSpaceOver)))
    (fun s => (s.totals, s.inventory, s.spaceOver)) (fun (a, b, c) => ⟨b, a, c⟩)

def codecNominee : Codec SavedNominee :=
  codecAs (codecPair (codecInt 4) (codecPair (codecNat 1) (codecList 4 (codecPair (codecNat 3) (codecInt 4)))))
    (fun n => (n.current, n.count, n.places)) (fun (a, b, c) => ⟨a, b, c⟩)

def codecBed : Codec SavedBed :=
  codecAs (codecPair (codecNat 1) (codecPair (codecNat 4) (codecPair (codecNat 3) (codecPair (codecList 17 (codecNat 6))
    (codecPair (codecNat 6) (codecPair (codecNat 2) (codecNat 4)))))))
    (fun b => (b.state, b.loading, b.waterCarry, b.passage, b.accumulator, b.heaterCarry, b.timer))
    (fun (a, b, c, d, e, f, g) => ⟨a, b, c, d, e, f, g⟩)

def codecHistory : Codec SavedHistory :=
  codecAs (codecPair (codecNat 1) (codecList 3 (codecNat 4))) (fun h => (h.count, h.places)) (fun (a, b) => ⟨a, b⟩)

def codecSuspense : Codec SavedSuspense :=
  codecAs (codecPair (codecFlag tagSuspense) (codecPair (codecNat 2) (codecPair (codecNat 4) (codecPair (codecNat 4)
    (codecPair (codecNat 4) (codecPair (codecFlag tagVolume) (codecPair (codecNat 4) (codecPair (codecNat 4)
    (codecList 16 (codecInt 4))))))))))
    (fun r => (r.present, r.openDay, r.openSecond, r.age, r.span, r.volumePresent, r.volume, r.cv, r.snapshot))
    (fun (a, b, c, d, e, f, g, h, i) => ⟨a, b, c, d, e, f, g, h, i⟩)

def codecBaseline : Codec (Bool × Nat) := codecPair (codecFlag tagBaseline) (codecNat 4)

/-- A checkpoint's content after its sequence number, its check left out: 2,347 bytes (R170). Bed A lies before bed B, the
INJECT suspense record before the WITHDRAW one, and the records of the slots in rising order (DEDUCED, assumption 71). -/
def codecCheckpoint : Codec Checkpoint :=
  codecAs (codecPair (codecNat 2) (codecPair (codecNat 1) (codecPair (codecList 17 codecSlot) (codecPair (codecNat 2)
    (codecPair (codecFlag tagClosedPresent) (codecPair (codecFlag tagProvisional) (codecPair (codecNat 1)
    (codecPair (codecList 17 codecClosed) (codecPair (codecInt 4) (codecPair (codecInt 4) (codecPair (codecNat 2)
    (codecPair (codecNat 2) (codecPair (codecList 16 codecNominee) (codecPair (codecList 16 (codecInt 4))
    (codecPair (codecNat 1) (codecPair (codecNat 5) (codecPair codecBed (codecPair codecBed (codecPair (codecNat 1)
    (codecPair codecHistory (codecPair codecHistory (codecPair (codecNat 4) (codecPair (codecNat 4)
    (codecPair codecSuspense (codecPair codecSuspense (codecPair (codecNat 1) (codecPair codecBaseline
    (codecPair codecBaseline codecBaseline))))))))))))))))))))))))))))
    (fun c => (c.stampDay, c.stampHour, c.slots, c.closedDay, c.closedPresent, c.provisional, c.cursor, c.closed,
      c.carryInject, c.carryWithdraw, c.fuelCarry, c.idleCarry, c.nominees, c.confirmed, c.hourDir, c.target, c.bedA,
      c.bedB, c.unit, c.starts, c.trips, c.runTimer, c.stopTimer, c.suspInject, c.suspWithdraw, c.lastFlow, c.meter,
      c.compFuel, c.heaterFuel))
    (fun (a, b, c, d, e, f, g, h, i, j, k, l, m, n, o, p, q, r, s, t, u, v, w, x, y, z, aa, bb, cc) =>
      ⟨a, b, c, d, e, f, g, h, i, j, k, l, m, n, o, p, q, r, s, t, u, v, w, x, y, z, aa, bb, cc⟩)

/-- A checkpoint slot as it is written: sequence number, content, check (R170). -/
def checkpointBytes (seq : Nat) (c : Checkpoint) : List Byte := sealed32 (encNat 4 seq ++ codecCheckpoint.enc c)

/-- The configuration block as it stands in the memory: its fields and its check (R170). -/
def imageBytes (m : Image) : List Byte := sealed32 (codecImage.enc m)

/-! ### Telegrams the part sends (R144, R168) -/

/-- The kind code of a telegram (R168). -/
def telegramKind : Telegram → Nat
  | .offer .. => 3
  | .claim => 6
  | .cede => 7
  | .invt .. => 10
  | .hourly _ | .day _ | .condition _ | .reply _ => 11

/-- The class of a telegram (R144). -/
def telegramClass : Telegram → Nat
  | .claim | .cede => 0
  | .offer .. => 1
  | .invt .. => 2
  | .hourly _ | .day _ | .condition _ | .reply _ => 3

/-- The destination: the console for an ORDER_REPLY, all stations for the rest. -/
def telegramDest : Telegram → Nat
  | .reply r => r.console
  | _ => 0

/-- A set of marks as 32 bits, condition code c at bit c − 1 (R168); bit 31 is 0 (assumption 30). -/
def marksNat (l : List Bool) : Nat := l.foldr (fun b acc => b.toNat + 2 * acc) 0

/-- The fields of an HOURLY report after byte 0, in bits, in order (R168): each sum saturates at 2^36 − 1. -/
def hourlyFields (r : HourlyReport) : List (Nat × Nat) :=
  [(16, r.day), (5, r.hour), (35, r.target)]
    ++ [r.injected, r.withdrawn, r.compFuel, r.heater].map (fun v => (36, min v (2 ^ 36 - 1)))
    ++ r.rates.map (fun v => (10, v))
    ++ [(32, marksNat r.summary), (32, marksNat r.sticky)]
    ++ r.counts.map (fun v => (16, v))

/-- The payload of a telegram (R168). The bits that it leaves unnamed are 0 (assumption 30). -/
def telegramPayload : Telegram → List Byte
  | .claim | .cede => []
  | .offer dir offer share target mode unit =>
      encNat 1 (dirCode dir) ++ encNat 4 offer ++ encNat 4 share ++ encNat 5 target ++ encNat 1 (modeCode mode)
        ++ encNat 1 (unitCode unit)
  | .invt half day hour inventories =>
      encNat 1 half ++ encNat 2 day ++ encNat 1 hour ++ inventories.flatMap (encInt 6)
  | .hourly r =>
      encNat 1 (0 + 4 * modeCode r.mode + 32 * dirCode r.hourDir) ++ natBytes 63 (packed (hourlyFields r))
  | .day r =>
      encNat 1 1 ++ encNat 2 r.day ++ encNat 1 r.slot ++ encNat 4 r.shipper ++ codecTotals.enc r.totals
        ++ encInt 6 r.inventory ++ encNat 1 (r.spaceOver.toNat + 2 * r.provisional.toNat)
  | .condition r =>
      encNat 1 2 ++ encNat 1 r.record.code ++ encNat 2 r.record.day ++ encNat 4 r.record.second
        ++ encNat 1 r.record.slot ++ encInt 6 r.record.value ++ encNat 2 r.counter ++ encNat 1 r.kept.toNat
        ++ encNat 2 r.lostCount
  | .reply r =>
      encNat 1 3 ++ encNat 1 r.command ++ encNat 1 r.arg ++ encNat 4 r.litres ++ encNat 1 (outcomeCode r.outcome)

/-- The arbitration value (R144). -/
def arbitrationValue (cls src : Nat) : Nat := cls * 32 + src

/-- The station that a set of simultaneous arbitration values leaves on the line: the lowest (R144). -/
def arbitrationWinner : List Nat → Option Nat
  | [] => none
  | v :: rest => some (rest.foldl min v)

/-- A telegram's bytes: header, payload, check (R168). -/
def frame (cls src kind dst : Nat) (payload : List Byte) : List Byte :=
  sealed16 (encNat 1 (arbitrationValue cls src) ++ encNat 1 kind ++ encNat 1 dst ++ encNat 1 payload.length ++ payload)

/-- The bytes of a queued telegram as station `src` sends it. -/
def telegramBytes (src : Nat) (t : Telegram) : List Byte :=
  frame (telegramClass t) src (telegramKind t) (telegramDest t) (telegramPayload t)

/-- The bytes of the JOIN of station `src` (R150, R168). -/
def joinBytes (src : Nat) : List Byte := frame 1 src 4 0 []

/-- The bytes of the telegram that the part has on the line, if it has one (R145, R150, R168). -/
def sentBytes (s : State) : Option (List Byte) :=
  if s.link.join = .onLine then some (joinBytes s.station)
  else (s.link.queue.find? (·.onLine)).map (fun e => telegramBytes s.station e.telegram)

/-- What stands on the line while the part sends: the telegram's bits with their stuff bits (R144, R145). -/
def lineBits (s : State) : Option (List Bool) :=
  (sentBytes s).map lineOf

/-! ### The SETPOINT (R169) -/

/-- A SETPOINT record: type 2, length 10, seven fields, check (R169). -/
def setpointBytes (p : Setpoint) : List Byte :=
  sealed16 (encNat 1 2 ++ encNat 1 10 ++ encInt 4 p.demand ++ encNat 1 (lineupCode p.lineup)
    ++ encNat 1 (commandCode p.command) ++ encNat 1 (valveCode p.valveA) ++ encNat 1 (valveCode p.valveB)
    ++ encNat 1 p.heater.toNat ++ encNat 1 (modeCode p.mode))

end Sys2Proof.Machine
end

