-- ==== Sys2Proof/Decode.lean ====
section
/-! DEFINITION. How commands are spelled. No row of spec/opcode_table.json gives bits, so no table word spells a command.
What the manual does lay out is what comes over the ports: the telegrams of the station link (R144, R168) and the SAMPLE
of the field port (R169). Their receivers are here, total on any bytes, with the encoders beside them. -/

namespace Sys2Proof

open Sys2Proof.Machine

/-- The command that a table word spells: none, since the table gives no row any bits (assumption 9). -/
def decodeTableWord (_nbits _w : Nat) : Option Instr := none

/-! ### Telegrams (R168) -/

/-- The fixed class of a kind (R144). -/
def fixedClass : Nat → Option Nat
  | 1 | 2 | 3 | 4 | 5 => some 1
  | 6 | 7 | 8 | 9 => some 0
  | 10 => some 2
  | 11 => some 3
  | _ => none

/-- The payload length that a kind requires; none where any length is taken (R168). -/
def fixedLength : Nat → Option Nat
  | 1 | 5 => some 6
  | 2 => some 8
  | 3 => some 16
  | 4 | 6 | 7 | 9 => some 0
  | 8 => some 1
  | 10 => some 52
  | _ => none

/-- A class and a length that fit a kind (R168). -/
def fits (cls kind len : Nat) : Bool := decide (fixedClass kind = some cls) && (fixedLength kind).all (· == len)

/-- The byte field of `n` bytes at an offset. -/
def fieldAt (bs : List Byte) (off n : Nat) : Nat := bytesNat ((bs.drop off).take n)

/-- The order of a command code (R160, R168). -/
def orderOf (src dst command arg litres : Nat) : Instr :=
  match command with
  | 1 => .orderShut src dst arg litres
  | 2 => .orderRelease src dst arg litres
  | 3 => .orderUnlock src dst arg litres
  | 4 => .orderBedOut src dst arg litres
  | 5 => .orderBedIn src dst arg litres
  | 6 => .orderAccept src dst arg litres
  | 7 => .orderCorrect src dst arg litres
  | 8 => .orderClear src dst arg litres
  | 9 => .orderRestart src dst arg litres
  | _ => .orderUnknownCommand src dst command arg litres

/-- The command of a telegram whose class and length fit its kind (R168). -/
def commandOf (src kind dst : Nat) (p : List Byte) : Instr :=
  match kind with
  | 1 => .time src dst (fieldAt p 0 2) (fieldAt p 2 4)
  | 2 => .noms src dst (fieldAt p 0 1) (fieldAt p 1 2) (fieldAt p 3 1) (signed 4 (fieldAt p 4 4))
  | 3 => .offer src dst (fieldAt p 0 1) (fieldAt p 1 4) (fieldAt p 5 4) (fieldAt p 9 5) (fieldAt p 14 1) (fieldAt p 15 1)
  | 4 => .join src dst
  | 5 => orderOf src dst (fieldAt p 0 1) (fieldAt p 1 1) (fieldAt p 2 4)
  | 6 => .claim src dst
  | 7 => .cede src dst
  | 8 => .halt src dst (fieldAt p 0 1)
  | 9 => .resume src dst
  | 10 => .invt src dst (fieldAt p 0 1) (fieldAt p 1 2) (fieldAt p 3 1)
      ((List.range 8).map (fun i => signed 6 (fieldAt p (4 + 6 * i) 6)))
  | 11 => .report src dst
  | _ => .unknownKind src dst kind

/-- The length byte and the number of bytes agree, and the check is good (R168). -/
def wholeTelegram (bs : List Byte) : Bool :=
  decide (6 ≤ bs.length) && decide (fieldAt bs 3 1 ≤ 64) && decide (bs.length = fieldAt bs 3 1 + 6)
    && decide (check16 (bs.take (bs.length - 2)) = bytesNat (bs.drop (bs.length - 2)))

/-- The command that the bytes of a received telegram spell (R149, R168). -/
def decodeTelegram (bs : List Byte) : Instr :=
  let value := fieldAt bs 0 1 % 128
  let src := value % 32
  let kind := fieldAt bs 1 1
  let dst := fieldAt bs 2 1
  let len := fieldAt bs 3 1
  if wholeTelegram bs = false then .receiveError
  else if src = 0 then .receiveError
  else if fits (value / 32) kind len then commandOf src kind dst ((bs.drop 4).take len)
  else .unknownKind src dst kind

/-- Whole bytes, or nothing where a bit is left over. -/
def wholeBytes (l : List Bool) : Option (List Byte) := if l.length % 8 = 0 then some (bitsBytes l) else none

/-- The command that the bits of a received telegram spell, stuff bits included: a run of six equal bits is a failed
check (R144, R149). -/
def decodeLine (l : List Bool) : Instr := ((unline l).bind wholeBytes).elim .receiveError decodeTelegram

/-- What a telegram coming whole off the line is to the part (R145, R152, R168). While a telegram of the part is on the
line, the bytes are compared with the bytes sent, byte for byte: equal bytes are the intact echo; other bytes with a good
check and the part's own source are another station's under its number, which takes the place of the echo mismatch
(assumption 41); any others are an echo mismatch. -/
def receivedCommand (s : State) (bs : List Byte) : Instr :=
  match sentBytes s with
  | none => decodeTelegram bs
  | some sent =>
    if bs = sent then .echoIntact
    else if wholeTelegram bs = true ∧ fieldAt bs 0 1 % 32 = s.station then .dupStation (fieldAt bs 1 1)
    else .echoMismatch

/-- The same for the bits on the line; bits that spell no whole telegram are a failed check, and for a part that sends an
echo mismatch (R144, R145). -/
def receivedLine (s : State) (l : List Bool) : Instr :=
  match (unline l).bind wholeBytes with
  | some bs => receivedCommand s bs
  | none => if (sentBytes s).isSome then .echoMismatch else .receiveError

/-- The telegram of an order (R168). -/
def orderBytes (src dst command arg litres : Nat) : List Byte :=
  frame 1 src 5 dst (encNat 1 command ++ encNat 1 arg ++ encNat 4 litres)

/-- A telegram that spells a command; a telegram of an unknown kind is sent empty under a class that does not fit. The
commands that are no telegram have none (R168). -/
def encodeTelegram : Instr → Option (List Byte)
  | .time src dst day second => some (frame 1 src 1 dst (encNat 2 day ++ encNat 4 second))
  | .noms src dst slot day hour rate =>
      some (frame 1 src 2 dst (encNat 1 slot ++ encNat 2 day ++ encNat 1 hour ++ encInt 4 rate))
  | .offer src dst dir offer share target mode unit =>
      some (frame 1 src 3 dst (encNat 1 dir ++ encNat 4 offer ++ encNat 4 share ++ encNat 5 target ++ encNat 1 mode
        ++ encNat 1 unit))
  | .join src dst => some (frame 1 src 4 dst [])
  | .orderShut src dst arg litres => some (orderBytes src dst 1 arg litres)
  | .orderRelease src dst arg litres => some (orderBytes src dst 2 arg litres)
  | .orderUnlock src dst arg litres => some (orderBytes src dst 3 arg litres)
  | .orderBedOut src dst arg litres => some (orderBytes src dst 4 arg litres)
  | .orderBedIn src dst arg litres => some (orderBytes src dst 5 arg litres)
  | .orderAccept src dst arg litres => some (orderBytes src dst 6 arg litres)
  | .orderCorrect src dst arg litres => some (orderBytes src dst 7 arg litres)
  | .orderClear src dst arg litres => some (orderBytes src dst 8 arg litres)
  | .orderRestart src dst arg litres => some (orderBytes src dst 9 arg litres)
  | .orderUnknownCommand src dst command arg litres => some (orderBytes src dst command arg litres)
  | .claim src dst => some (frame 0 src 6 dst [])
  | .cede src dst => some (frame 0 src 7 dst [])
  | .halt src dst reason => some (frame 0 src 8 dst (encNat 1 reason))
  | .resume src dst => some (frame 0 src 9 dst [])
  | .invt src dst half day hour inventories =>
      some (frame 2 src 10 dst (encNat 1 half ++ encNat 2 day ++ encNat 1 hour ++ inventories.flatMap (encInt 6)))
  | .report src dst => some (frame 3 src 11 dst [])
  | .unknownKind src dst kind => some (frame (if kind = 11 then 0 else 3) src kind dst [])
  | .powerOnReset .. | .lineReset _ | .clockSecond | .holdBackRunOut | .dayReportQueue | .receiveError | .dupStation _
  | .sendStart | .arbitrationLost | .echoIntact | .echoMismatch | .lineHeld | .faultIdleWait | .sample _
  | .setpointSendDone | .fieldLate | .fieldLost | .suspenseOld _ | .listen30sMark | .listen120sMark | .startTimeout
  | .minStopElapsed | .minRunElapsed | .zeroDemand300s | .startHistoryAgeOut | .tripHistoryAgeOut | .headHoldExpiry
  | .heatMaximum _ | .coolMaximum _ | .checkpointWriteDone | .ckptFail | .powerLoss => none

/-! ### The SAMPLE (R169) -/

/-- A measured field: its value when its bit of the validity word is set. -/
def measured {α : Type} (validity bit : Nat) (v : α) : Option α := if validity.testBit bit then some v else none

/-- The fields of a SAMPLE, from the sequence number to the lineup feedback (R169). -/
def sampleOf (p : List Byte) : Sample :=
  let v := fieldAt p 2 2
  { sequence := fieldAt p 0 1
    totalizerReset := (fieldAt p 1 1).testBit 0
    meter := measured v 0 (fieldAt p 4 4)
    cv := measured v 1 (fieldAt p 8 4)
    wellhead := measured v 2 (fieldAt p 12 2)
    wellheadTemp := measured v 3 (signed 2 (fieldAt p 14 2))
    header := measured v 4 (fieldAt p 16 2)
    feedback := (measured v 5 (fieldAt p 18 1)).bind feedbackOfCode
    suction := measured v 6 (fieldAt p 19 2)
    discharge := measured v 7 (fieldAt p 21 2)
    compFuel := measured v 8 (fieldAt p 23 4)
    heaterFuel := measured v 9 (fieldAt p 27 4)
    inletPressure := measured v 10 (fieldAt p 31 2)
    inletTemp := measured v 11 (signed 2 (fieldAt p 33 2))
    bedATemp := measured v 12 (signed 2 (fieldAt p 35 2))
    bedBTemp := measured v 13 (signed 2 (fieldAt p 37 2))
    dewPoint := measured v 14 (signed 2 (fieldAt p 39 2))
    lineup := (measured v 15 (fieldAt p 41 1)).bind lineupOfCode }

/-- The command that a record on the field port spells: a SAMPLE, or one whose check fails (R169). -/
def decodeField (bs : List Byte) : Instr :=
  if bs.length = 46 ∧ fieldAt bs 0 1 = 1 ∧ fieldAt bs 1 1 = 42 ∧ check16 (bs.take 44) = bytesNat (bs.drop 44) then
    .sample (some (sampleOf ((bs.drop 2).take 42)))
  else .sample none

/-- The validity word of a SAMPLE (R169). -/
def validityOf (p : Sample) : Nat :=
  ((List.zipIdx [p.meter.isSome, p.cv.isSome, p.wellhead.isSome, p.wellheadTemp.isSome, p.header.isSome,
    p.feedback.isSome, p.suction.isSome, p.discharge.isSome, p.compFuel.isSome, p.heaterFuel.isSome,
    p.inletPressure.isSome, p.inletTemp.isSome, p.bedATemp.isSome, p.bedBTemp.isSome, p.dewPoint.isSome,
    p.lineup.isSome]).map (fun (on, bit) => if on then 2 ^ bit else 0)).sum

/-- The bytes of a SAMPLE record (R169). -/
def encodeSample (p : Sample) : List Byte :=
  sealed16 (encNat 1 1 ++ encNat 1 42 ++ encNat 1 p.sequence ++ encNat 1 p.totalizerReset.toNat
    ++ encNat 2 (validityOf p) ++ encNat 4 (p.meter.getD 0) ++ encNat 4 (p.cv.getD 0) ++ encNat 2 (p.wellhead.getD 0)
    ++ encInt 2 (p.wellheadTemp.getD 0) ++ encNat 2 (p.header.getD 0)
    ++ encNat 1 ((p.feedback.map feedbackCode).getD 0) ++ encNat 2 (p.suction.getD 0) ++ encNat 2 (p.discharge.getD 0)
    ++ encNat 4 (p.compFuel.getD 0) ++ encNat 4 (p.heaterFuel.getD 0) ++ encNat 2 (p.inletPressure.getD 0)
    ++ encInt 2 (p.inletTemp.getD 0) ++ encInt 2 (p.bedATemp.getD 0) ++ encInt 2 (p.bedBTemp.getD 0)
    ++ encInt 2 (p.dewPoint.getD 0) ++ encNat 1 ((p.lineup.map lineupCode).getD 0))

end Sys2Proof
end

