-- ==== Sys2Proof/Machine/Ops.lean ====
section
/-! DEFINITION. Shared operations: list access, saturating counts, the external memory (R170), the figures of the
configuration image, site time (R13, R134), and the request of a SETPOINT (R132). -/

namespace Sys2Proof.Machine

open Sys2Proof (Flow Dir Bed Mode UnitState Feedback Lineup Byte)

/-! ### Lists and counts -/

/-- A list with the element at place `i` replaced by its image; unchanged where there is no such place. -/
def updateAt {α : Type} (i : Nat) (f : α → α) : List α → List α
  | [] => []
  | x :: rest => match i with
    | 0 => f x :: rest
    | n + 1 => x :: updateAt n f rest

/-- A counter that stops at `top` (00_scope.md, Arithmetic). -/
def satAdd (top a b : Nat) : Nat := min top (a + b)

/-- The greatest value of a 16-bit counter. -/
def top16 : Nat := 65535

/-- The greatest value of a 32-bit number. -/
def top32 : Nat := 4294967295

/-- A value clamped to a range (00_scope.md, Arithmetic). -/
def clampInt (low high x : Int) : Int := max low (min high x)

/-- The direction opposite to a flow. -/
def opposite : Flow → Flow
  | .inject => .withdraw
  | .withdraw => .inject

/-- A magnitude with the sign of a direction: INJECT positive, WITHDRAW negative, NONE zero. -/
def signedRate (d : Dir) (m : Nat) : Int :=
  match d with
  | some .inject => m
  | some .withdraw => -(m : Int)
  | none => 0

/-- The direction that a flowing mode flows in. -/
def modeFlow : Mode → Option Flow
  | .inject => some .inject
  | .withdraw => some .withdraw
  | _ => none

/-- The mode that flows in a direction. -/
def flowMode : Flow → Mode
  | .inject => .inject
  | .withdraw => .withdraw

/-- The lineup of a direction. -/
def flowLineup : Flow → Lineup
  | .inject => .inject
  | .withdraw => .withdraw

/-! ### The external memory (R170) -/

/-- What a byte of the external memory that nothing has written reads as: an erased cell (assumption 2). -/
def blankByte : Byte := 255

/-- The byte at an address. -/
def Memory.read : List Host.Cell → Nat → Byte
  | [], _ => blankByte
  | (k, v) :: rest, a => if k = a then v else Memory.read rest a

/-- One byte written, in the canonical form. -/
def Memory.write : List Host.Cell → Nat → Byte → List Host.Cell
  | [], a, b => if b = blankByte then [] else [(a, b)]
  | (k, v) :: rest, a, b =>
    if a < k then (if b = blankByte then (k, v) :: rest else (a, b) :: (k, v) :: rest)
    else if a = k then (if b = blankByte then rest else (a, b) :: rest)
    else (k, v) :: Memory.write rest a b

/-- The canonical form: addresses strictly rising, and no cell that reads as an unlisted address does. -/
abbrev Memory.wf (m : List Host.Cell) : Prop :=
  m.Pairwise (fun x y => x.1 < y.1) ∧ ∀ c ∈ m, c.2 ≠ blankByte

/-- Bytes written from an address on. -/
def Memory.writeBytes : List Host.Cell → Nat → List Byte → List Host.Cell
  | m, _, [] => m
  | m, a, b :: rest => Memory.writeBytes (Memory.write m a b) (a + 1) rest

/-- `n` bytes read from an address on. -/
def Memory.readBytes (m : List Host.Cell) (a n : Nat) : List Byte :=
  (List.range n).map (fun i => Memory.read m (a + i))

/-- Where checkpoint slot `n` starts (R170). -/
def slotAddress (n : Nat) : Nat := 1024 + n * 2560

/-- The bytes of a slot that hold its content and check (R170). -/
def slotBytes : Nat := 2355

/-- The length of the configuration block (R170). -/
def blockBytes : Nat := 764

/-- The slot that a checkpoint with this sequence number is written into (R164). -/
def slotOfSeq (seq : Nat) : Nat := seq % 24

/-! ### The configuration image -/

/-- The image held, or one of all zeros while none is: then no slot is configured and no station is expected. -/
def State.cfg (s : State) : Image := s.port.image.getD {}

/-- The expected-train list (R170). -/
def Image.expected (m : Image) : List Nat := m.expectedAll.take m.expectedCount

/-- The configured consoles (R170). -/
def Image.consoles (m : Image) : List Nat := m.consolesAll.take m.consoleCount

/-- The shipper record of slot 1 to 16. -/
def Image.shipper (m : Image) (slot : Nat) : ShipperRecord := m.shippers.getD (slot - 1) {}

/-- A slot is a configured shipper slot (R2). -/
def Image.configured (m : Image) (slot : Nat) : Bool :=
  decide (1 ≤ slot) && decide (slot ≤ 16) && decide (0 < (m.shipper slot).space)

/-- The breakpoints of a ratchet table (R19). -/
def RatchetTable.points (t : RatchetTable) : List (Nat × Nat) := t.places.take t.count

/-- The ratchet table of a slot in a direction (R19). -/
def Image.ratchet (m : Image) (slot : Nat) (f : Flow) : List (Nat × Nat) :=
  let r := m.shipper slot
  let n := match f with
    | .inject => r.injectTable
    | .withdraw => r.withdrawTable
  (m.ratchets.getD n {}).points

/-- The booked rate of a slot in a direction (R22). -/
def Image.bookedRate (m : Image) (slot : Nat) (f : Flow) : Nat :=
  match f with
  | .inject => (m.shipper slot).ib
  | .withdraw => (m.shipper slot).wb

/-- The escalation enable of a condition code (R157, R170): a 1 in its bit (assumption 62). -/
def Image.escalates (m : Image) (code : Nat) : Bool := m.escalation.testBit (code - 1)

/-- The peer trains: the expected stations other than the part's own (R23). -/
def State.peerStations (s : State) : List Nat := s.cfg.expected.filter (· != s.station)

/-! ### Interpolation -/

/-- The value a table of breakpoints gives for `x` between its ends: r_i + (r_{i+1} − r_i) × (x − f_i) /
(f_{i+1} − f_i) with the division truncated; the first value below the first breakpoint, the last at or above the
last (R21, R87, R109). -/
def interpolate : List (Int × Int) → Int → Int
  | [], _ => 0
  | [p], _ => p.2
  | p :: q :: rest, x =>
    if x < p.1 then p.2
    else if x < q.1 then p.2 + ((q.2 - p.2) * (x - p.1)).tdiv (q.1 - p.1)
    else interpolate (q :: rest) x

/-! ### Site time (R13, R134) -/

/-- The number of hour indices (R13). -/
def hourSpan : Nat := 1572864

/-- The number of site-second indices (R134). -/
def secondSpan : Nat := 5662310400

/-- The hour index of a gas day and hour (R13). -/
def hourIndex (day hour : Nat) : Nat := (day * 24 + hour) % hourSpan

/-- A difference modulo `n`, brought to the half-open range from −n/2 to n/2 (R13, R134). -/
def wrapDiff (n : Nat) (a b : Nat) : Int :=
  let r : Int := ((b : Int) - (a : Int)) % (n : Int)
  if 2 * r ≥ n then r - n else r

/-- The distance from one hour index to another (R13). -/
def hourDistance (a b : Nat) : Int := wrapDiff hourSpan a b

/-- The difference from one site-second index to another (R134). -/
def secondDifference (a b : Nat) : Int := wrapDiff secondSpan a b

/-- The site-second index of the standing time (R134). -/
def Clock.index (c : Clock) : Nat := c.day * 86400 + c.second

/-- The hour of the standing time (R134). -/
def Clock.hour (c : Clock) : Nat := c.second / 3600

/-- The current hour index (R13). -/
def Clock.hourIndex (c : Clock) : Nat := Machine.hourIndex c.day c.hour

/-- A site-second index moved by a step of the clock (R57, R78). -/
def moveIndex (i : Nat) (d : Int) : Nat := (((i : Int) + d) % (secondSpan : Int)).toNat

/-- The site seconds from an index to the standing time, counted across gas-day ends (R54, R78). -/
def elapsed (s : State) (since : Nat) : Nat := (((s.clock.index : Int) - since) % (secondSpan : Int)).toNat

/-- The site time that an index stands for, as a standing time of the clock. -/
def Clock.setIndex (c : Clock) (i : Nat) : Clock := { c with day := i / 86400 % 65536, second := i % 86400 }

/-! ### SETPOINT requests (R132) -/

/-- A SETPOINT requested (R132): sent at once when no send is in progress, else the pending mark is set. In CONFIG
requests are not kept. -/
def requestSetpoint (s : State) : State :=
  if s.train.mode = .config then s
  else s.onIntake (fun i => match i.sending with
    | none => { i with sending := some i.handed }
    | some _ => { i with sendAgain := true })

/-- One owner hands its changed fields to the intake, which requests a SETPOINT (R71, R88, R106, R132). -/
def handFields (f : Setpoint → Setpoint) (s : State) : State :=
  if f s.intake.handed = s.intake.handed then s
  else requestSetpoint (s.onIntake (fun i => { i with handed := f i.handed }))

end Sys2Proof.Machine
end

