-- ==== Sys2Proof/Machine/Flags.lean ====
section
/-! DEFINITION. The transmit queue (R146 to R148) and the condition monitor (R156, R157, R159). They stand together
because a raised condition may queue a report, and a refused telegram raises a condition. -/

namespace Sys2Proof.Machine

open Sys2Proof (Flow Dir Bed Mode UnitState Feedback Lineup)

/-! ### The transmit queue as a list (R146) -/

/-- The occupancy counts the entry on the line (R146). -/
def Link.occupancy (l : Link) : Nat := l.queue.length

/-- The class-3 refusal mark after the occupancy has changed (R147). -/
def refusalMarkAfter (mark : Bool) (occupancy : Nat) : Bool :=
  if occupancy ≥ 9 then true else if occupancy ≤ 5 then false else mark

/-- The queue replaced, with the refusal mark following its occupancy (R147). -/
def Link.withQueue (l : Link) (q : List Entry) : Link :=
  { l with queue := q, refusalMark := refusalMarkAfter l.refusalMark q.length }

/-- An entry at the end of its class: class 0 first, within a class in order of entry (R146). -/
def insertEntry (q : List Entry) (e : Entry) : List Entry :=
  q.filter (fun x => telegramClass x.telegram ≤ telegramClass e.telegram)
    ++ e :: q.filter (fun x => telegramClass x.telegram > telegramClass e.telegram)

/-- The waiting entry that a telegram replaces: an OFFER an OFFER, an INVT the INVT of the same half (R146). -/
def replaces (t : Telegram) (e : Entry) : Bool :=
  !e.onLine && match t, e.telegram with
    | .offer .., .offer .. => true
    | .invt h .., .invt h' .. => h == h'
    | _, _ => false

/-- The newest waiting entry of a higher class number than `cls`, by ticket (R148). -/
def newestAbove (cls : Nat) (q : List Entry) : Option Entry :=
  (q.filter (fun e => !e.onLine && telegramClass e.telegram > cls)).foldl
    (fun best e => match best with
      | none => some e
      | some b => if e.ticket > b.ticket then some e else some b) none

/-- What becomes of a telegram handed to the queue (R146 to R148). -/
inductive Fate where
  | replaced | entered | evicting (e : Entry) | refused | dropped
  deriving DecidableEq, Repr

/-- The fate of a telegram, decided in the order replacement, refusal, entry, eviction, drop (R146 to R148). -/
def fateOf (l : Link) (t : Telegram) : Fate :=
  if l.queue.any (replaces t) then .replaced
  else if telegramClass t = 3 ∧ l.refusalMark then .refused
  else if l.queue.length < 12 then .entered
  else match newestAbove (telegramClass t) l.queue with
    | some e => .evicting e
    | none => .dropped

/-- A new entry put into the queue at its place (R146). -/
def Link.enter (l : Link) (t : Telegram) (o : Owner) : Link :=
  { l.withQueue (insertEntry l.queue { telegram := t, owner := o, ticket := l.nextTicket }) with
    nextTicket := l.nextTicket + 1 }

/-- The content of the waiting entry of the same kind replaced in place (R28, R82, R146). Where two of them wait, both take
the new content (assumption 45). -/
def Link.replace (l : Link) (t : Telegram) : Link :=
  { l with queue := l.queue.map (fun e => if replaces t e then { e with telegram := t } else e) }

/-- An entry taken out by its ticket (R145, R148). -/
def Link.remove (l : Link) (e : Entry) : Link := l.withQueue (l.queue.filter (fun x => x.ticket != e.ticket))

/-- The waiting entries that satisfy `p` withdrawn (R146). -/
def Link.withdraw (l : Link) (p : Entry → Bool) : Link := l.withQueue (l.queue.filter (fun x => !(p x) || x.onLine))

/-- A CONDITION report: its refusal or drop queues no report of its own (R147, R157). -/
def Telegram.isCondition : Telegram → Bool
  | .condition _ => true
  | _ => false

/-! ### Recording a condition (R156, R157) -/

/-- The code of a condition (R156). -/
def condCode : Cond → Nat
  | .strayFlow => 1 | .cvHeld => 2 | .cvDefault => 3 | .capShortfall => 4 | .fuelShortfall => 5 | .spaceOver => 6
  | .nomRefused => 7 | .meterGap => 8 | .meterImplausible => 9 | .meterReset => 10 | .restoreGap => 11
  | .suspenseOld => 12 | .fieldLate => 13 | .fieldLost => 14 | .clockStep => 15 | .txDrop => 16 | .txFail => 17
  | .dupStation => 18 | .linkFault => 19 | .targetDiverge => 20 | .startLimit => 21 | .startTimeout => 22
  | .compTrip => 23 | .compLockout => 24 | .bedFault => 25 | .dryBlock => 26 | .dewHigh => 27 | .reportLost => 28
  | .ckptFail => 29 | .restoreOld => 30 | .restoreNone => 31

/-- A condition is escalated when its enable is set in the configuration in force; in CONFIG none is in force
(R157). -/
def State.escalated (s : State) (c : Cond) : Bool :=
  decide (s.train.mode ≠ .config) && s.cfg.escalates (condCode c)

/-- The sticky flag set and the counter grown (R156). -/
def Monitor.count (m : Monitor) (code : Nat) : Monitor :=
  { m with sticky := updateAt (code - 1) (fun _ => true) m.sticky
           counters := updateAt (code - 1) (fun n => satAdd top16 n 1) m.counters }

/-- The exception list of at most eight records, the lost count and the summary mark (R157, items 1 and 2). -/
def Monitor.escalate (m : Monitor) (r : ExceptionRecord) : Monitor :=
  let m := { m with summary := updateAt (r.code - 1) (fun _ => true) m.summary }
  if m.exceptions.length < 8 then { m with exceptions := m.exceptions ++ [r] }
  else { m with lostCount := satAdd top16 m.lostCount 1 }

/-- The exception record of a condition raised now (R157). -/
def State.exceptionRecord (s : State) (c : Cond) (slot : Nat) (value : Int) : ExceptionRecord :=
  { code := condCode c, day := s.clock.day, second := s.clock.second, slot := slot, value := value }

/-- A condition counted and, if enabled, escalated, but with no CONDITION report (R147, R156, R157). -/
def raiseQuiet (c : Cond) (slot : Nat) (value : Int) (s : State) : State :=
  if s.escalated c then s.onMon (fun m => (m.count (condCode c)).escalate (s.exceptionRecord c slot value))
  else s.onMon (fun m => m.count (condCode c))

/-- The CONDITION report of a condition just raised (R157, item 3): `before` is the monitor before the raise. -/
def State.conditionReport (s : State) (before : Monitor) (c : Cond) (slot : Nat) (value : Int) : ConditionReport :=
  { record := s.exceptionRecord c slot value
    counter := s.mon.counters.getD (condCode c - 1) 0
    kept := decide (before.exceptions.length < 8)
    lostCount := s.mon.lostCount }

/-- The CONDITION report queued. Refused or dropped, it raises a TX_DROP that queues no report (R147). A class-3
telegram evicts nothing (R148). -/
def queueConditionReport (r : ConditionReport) (s : State) : State :=
  match fateOf s.link (.condition r) with
  | .replaced | .entered => s.onLink (·.enter (.condition r) .other)
  | .evicting _ | .refused | .dropped => raiseQuiet .txDrop 0 11 s

/-- A condition raised (R156, R157). -/
def raise (c : Cond) (slot : Nat) (value : Int) (s : State) : State :=
  let t := raiseQuiet c slot value s
  if s.escalated c then queueConditionReport (t.conditionReport s.mon c slot value) t else t

/-! ### Queueing a telegram (R146 to R148) -/

/-- The owner of an entry told that it left the queue unsent (R10, R90, R95, R145). What the sequencer does next is its
own reaction; the reply to a RESTART is looked for by `settleRestart`. -/
def tellUnsent (o : Owner) (t : Telegram) (s : State) : State :=
  match o, t with
  | .dayCursor, _ => s.onAcct (fun a => { a with outstanding := false })
  | .sequencer, .claim => s.onComp (fun c => { c with claimInFlight := false })
  | .sequencer, .cede => s.onComp (fun c => { c with cedePending := false })
  | _, _ => s

/-- The TX_DROP of a refused, dropped or evicted telegram (R147, R148); that of a CONDITION report, an evicted one too,
queues no report (R147, R157, assumption 61). -/
def raiseDrop (t : Telegram) (s : State) : State :=
  if t.isCondition then raiseQuiet .txDrop 0 (telegramKind t) s else raise .txDrop 0 (telegramKind t) s

/-- A telegram handed to the transmit queue by its owner (R146 to R148). In CONFIG the part queues nothing (R56). -/
def enqueue (t : Telegram) (o : Owner) (s : State) : State :=
  if s.train.mode = .config then s
  else match fateOf s.link t with
    | .replaced => s.onLink (·.replace t)
    | .entered => s.onLink (·.enter t o)
    | .evicting e =>
      (raiseDrop e.telegram (tellUnsent e.owner e.telegram (s.onLink (·.remove e)))).onLink (·.enter t o)
    | .refused | .dropped => raiseDrop t (tellUnsent o t s)

/-! ### The ALERT output (R159) -/

/-- Whether the unit gives cause 5: LOCKOUT, or TRIPPED with auto-restart clear (R99). -/
def State.compAlert (s : State) : Bool :=
  decide (s.comp.unit = .lockout) || (decide (s.comp.unit = .tripped) && decide (s.cfg.autoRestart ≠ 1))

/-- The pending ALERT causes by number (R159). -/
def alertCauses (s : State) : List Nat :=
  [(1, decide (s.train.mode = .config)), (2, decide (s.train.mode = .shutIn)), (3, s.intake.fieldLost),
   (4, decide (s.link.state = .fault) || decide (s.link.state = .silent)), (5, s.compAlert), (6, s.dryer.dryBlock),
   (7, s.mon.summary.any id)].filterMap (fun (n, on) => if on then some n else none)

/-- The number on the cause pins AC2 to AC0: the lowest pending cause, 0 when none is pending (R159). -/
def causePins (s : State) : Nat := (alertCauses s).headD 0

/-- Whether ALERT is asserted (R159). -/
def alertAsserted (s : State) : Bool := !(alertCauses s).isEmpty

end Sys2Proof.Machine
end

