-- ==== Sys2Proof/Machine/Allocation.lean ====
section
/-! DEFINITION. The account table and the allocation engine: largest-remainder apportionment, the energy stage,
withdrawal caps, booking, fuel and regeneration charges (03_interval_allocation.md), the space-over comparison and the
close of the gas day (01_shipper_accounts_and_nominations.md). -/

namespace Sys2Proof.Machine

open Sys2Proof (Flow Dir Bed Mode)

/-! ### Site inventories and the space-over flag (R5, R8, R20) -/

/-- A peer's entry for a slot; a half whose heard flag is clear contributes nothing (R20, R23, R26). -/
def PeerView.entry (v : PeerView) (slot : Nat) : Int :=
  ((if slot ≤ 8 then v.half1 else v.half2).getD []).getD ((slot - 1) % 8) 0

/-- The sum of a slot's entries in the peer inventory view. -/
def State.peerSum (s : State) (slot : Nat) : Int := (s.peers.view.map (·.entry slot)).sum

/-- The slot's inventory in this cavern. -/
def State.inventory (s : State) (slot : Nat) : Int := (s.acct.slots.getD slot {}).inventory

/-- The site inventory of a slot (R5, R20). -/
def State.siteInventory (s : State) (slot : Nat) : Int := s.inventory slot + s.peerSum slot

/-- The space-over comparison of one shipper after an injection booking (R5). An unconfigured slot, which a suspense
booking can move through a restored snapshot (R2, R52), is not compared: its flag stays clear and no SPACE_OVER is raised
for it (DESIGN CHOICE, assumption 63). -/
def compareSpace (s : State) (slot : Nat) : State :=
  if s.cfg.configured slot ∧ (s.acct.slots.getD slot {}).spaceOver = false
      ∧ s.siteInventory slot > ((s.cfg.shipper slot).space : Int) then
    raise .spaceOver slot (s.siteInventory slot)
      (s.onAcct (fun a => { a with slots := updateAt slot (fun r => { r with spaceOver := true }) a.slots }))
  else s

/-- The comparison for each shipper whose share is above 0 (R45). No rule orders the shippers: the model takes them in
ascending slot order (assumption 42). -/
def compareSpaces (shares : List Nat) (s : State) : State :=
  ((List.range 17).filter (fun i => decide (1 ≤ i) && decide (0 < shares.getD i 0))).foldl compareSpace s

/-! ### Apportionment (R41, R42) -/

/-- How many slots that take part come before slot `i` when the remainders are put in order, the lower slot first
among equals (R41, step 3). -/
def remainderRank (w rem : List Nat) (i : Nat) : Nat :=
  ((List.range w.length).filter (fun j => decide (0 < w.getD j 0)
    && (decide (rem.getD j 0 > rem.getD i 0) || (decide (rem.getD j 0 = rem.getD i 0) && decide (j < i))))).length

/-- Largest-remainder apportionment of `amount` by weights (R41); with no weight the whole amount goes to slot 0
(R42). -/
def apportion (amount : Nat) (w : List Nat) : List Nat :=
  let total := w.sum
  if total = 0 then amount :: List.replicate (w.length - 1) 0
  else
    let quotients := w.map (fun x => amount * x / total)
    let rem := w.map (fun x => amount * x % total)
    let leftover := amount - quotients.sum
    (List.range w.length).map (fun i =>
      quotients.getD i 0 + if 0 < w.getD i 0 ∧ remainderRank w rem i < leftover then 1 else 0)

/-! ### The energy stage (R38, R39) -/

/-- The energy of V litres at a CV of H with a carry C, and the new carry; `round` is the ROUND mode (R39). -/
def energyStage (round : Bool) (v h : Nat) (c : Int) : Nat × Int :=
  let raw : Int := (v : Int) * h + c
  let e : Nat := (((if round then raw + 5000000 else raw) / 10000000 : Int)).toNat
  (e, raw - (e : Int) * 10000000)

/-- The energy carry of a direction (R38). -/
def Accounts.carry (a : Accounts) : Flow → Int
  | .inject => a.carryInject
  | .withdraw => a.carryWithdraw

/-- The energy carry of a direction replaced (R39). -/
def Accounts.setCarry (a : Accounts) (f : Flow) (c : Int) : Accounts :=
  match f with
  | .inject => { a with carryInject := c }
  | .withdraw => { a with carryWithdraw := c }

/-- The rounding mode is ROUND (R38, R170). -/
def Image.roundMode (m : Image) : Bool := decide (m.rounding = 1)

/-! ### Withdrawal caps (R43, R44) -/

/-- What a shipper can give up: its inventory before the booking (R43). -/
def capLimit (inv : List Int) (i : Nat) : Nat := (inv.getD i 0).toNat

/-- A shipper not yet capped whose share exceeds its inventory; a share of 0 with an inventory of 0 exceeds nothing (R43,
assumption 51). -/
def overCap (inv : List Int) (shares : List Nat) (capped : List Bool) (i : Nat) : Bool :=
  decide (1 ≤ i) && !(capped.getD i false) && decide (shares.getD i 0 > capLimit inv i)

/-- One test of the shares: the shares after it, the capped marks, and the pool of excess (R43). -/
def capTest (inv : List Int) (shares : List Nat) (capped : List Bool) : List Nat × List Bool × Nat :=
  let ix := List.range shares.length
  (ix.map (fun i => if overCap inv shares capped i then capLimit inv i else shares.getD i 0),
   ix.map (fun i => capped.getD i false || overCap inv shares capped i),
   (ix.map (fun i => if overCap inv shares capped i then shares.getD i 0 - capLimit inv i else 0)).sum)

/-- The original weights of the slots left uncapped (R43). -/
def uncappedWeights (w : List Nat) (capped : List Bool) : List Nat :=
  (List.range w.length).map (fun i => if capped.getD i false then 0 else w.getD i 0)

/-- The rounds of R43: while the pool is above 0 and a shipper with a weight is uncapped, the pool is apportioned again
and the shares are tested again. A round that leaves the pool above 0 caps a shipper, so sixteen suffice. -/
def capRounds (inv : List Int) (w : List Nat) :
    (fuel : Nat) → List Nat → List Bool → Nat → List Nat × List Bool × Nat
  | 0, shares, capped, pool => (shares, capped, pool)
  | n + 1, shares, capped, pool =>
    if pool = 0 ∨ (uncappedWeights w capped).sum = 0 then (shares, capped, pool)
    else
      let more := apportion pool (uncappedWeights w capped)
      let t := capTest inv (List.zipWith (· + ·) shares more) capped
      capRounds inv w n t.1 t.2.1 t.2.2

/-- The shares of a withdrawal after the caps, the capped marks, and the pool left for slot 0 (R43, R44). -/
def capShares (inv : List Int) (w shares : List Nat) : List Nat × List Bool × Nat :=
  let t := capTest inv shares (List.replicate shares.length false)
  capRounds inv w 16 t.1 t.2.1 t.2.2

/-! ### Booking (R40, R45, R46) -/

/-- The weights of a booking in a direction: the magnitudes of the rates of that sign, slot 0 without weight (R40). -/
def bookingWeights (f : Flow) (rates : List Int) : List Nat :=
  0 :: rates.map (fun (r : Int) => match f with
    | .inject => if 0 < r then r.natAbs else 0
    | .withdraw => if r < 0 then r.natAbs else 0)

/-- One slot's share booked (R45). -/
def bookShare (f : Flow) (slot : Slot) (share : Nat) : Slot :=
  match f with
  | .inject => { slot with inventory := slot.inventory + share
                           totals := { slot.totals with injected := slot.totals.injected + share } }
  | .withdraw => { slot with inventory := slot.inventory - share
                             totals := { slot.totals with withdrawn := slot.totals.withdrawn + share } }

/-- A slot's shortfall total grown (R4). -/
def addShortfall (slot : Slot) (n : Nat) : Slot :=
  { slot with totals := { slot.totals with shortfall := slot.totals.shortfall + n } }

/-- The bed that is ADSORBING (R34). -/
def Dryer.adsorbing (d : Dryer) : Option Bed :=
  if d.bedA.state = .adsorbing then some .a else if d.bedB.state = .adsorbing then some .b else none

/-- One bed's record. -/
def Dryer.bed (d : Dryer) : Bed → BedRecord
  | .a => d.bedA
  | .b => d.bedB

/-- One bed's record replaced by its image. -/
def Dryer.onBed (d : Dryer) (bed : Bed) (f : BedRecord → BedRecord) : Dryer :=
  match bed with
  | .a => { d with bedA := f d.bedA }
  | .b => { d with bedB := f d.bedB }

/-- The shares of a withdrawal added to a bed's passage list (R46, R53, R105). -/
def addPassage (bed : Option Bed) (shares : List Nat) (d : Dryer) : Dryer :=
  match bed with
  | none => d
  | some bed => d.onBed bed (fun r => { r with passage := List.zipWith (· + ·) r.passage shares })

/-- The hour sum of a direction grown by the energy booked (R162). -/
def addHourEnergy (f : Flow) (e : Nat) (m : Monitor) : Monitor :=
  match f with
  | .inject => { m with sumInjected := m.sumInjected + e }
  | .withdraw => { m with sumWithdrawn := m.sumWithdrawn + e }

/-- The lowest-numbered shipper with its mark set; 0 when there is none. -/
def lowestMarked (marks : List Bool) : Nat :=
  ((List.range marks.length).find? (fun i => decide (1 ≤ i) && marks.getD i false)).getD 0

/-- The final shares of a booking of E: apportioned, for a withdrawal capped, the rest with slot 0 (R41 to R44). With
them, the capped marks and what slot 0 took of the pool. -/
def finalShares (f : Flow) (inv : List Int) (w : List Nat) (e : Nat) : List Nat × List Bool × Nat :=
  let first := apportion e w
  match f with
  | .inject => (first, [], 0)
  | .withdraw =>
    let t := capShares inv w first
    (updateAt 0 (· + t.2.2) t.1, t.2.1, t.2.2)

/-- The inventories of the seventeen slots. -/
def State.inventories (s : State) : List Int := s.acct.slots.map (·.inventory)

/-- The first four stages of a booking: energy, apportionment, caps, booking (R33, R39 to R46, R52, R53). It answers
the energy, the shares and the state; `bed` is the bed whose passage list grows in a withdrawal. -/
def bookEnergy (f : Flow) (v h : Nat) (w : List Nat) (bed : Option Bed) (s : State) : Nat × List Nat × State :=
  let en := energyStage s.cfg.roundMode v h (s.acct.carry f)
  let fs := finalShares f s.inventories w en.1
  let s1 := s.onAcct (fun a => { a.setCarry f en.2 with
    slots := updateAt 0 (addShortfall · fs.2.2) (List.zipWith (bookShare f) a.slots fs.1) })
  let s2 := s1.onMon (addHourEnergy f en.1)
  let s3 := match f with
    | .inject => s2
    | .withdraw => s2.onDryer (addPassage bed fs.1)
  let s4 := if fs.2.2 = 0 then s3 else raise .capShortfall (lowestMarked fs.2.1) fs.2.2 s3
  (en.1, fs.1, match f with
    | .inject => compareSpaces fs.1 s4
    | .withdraw => s4)

/-! ### Fuel and regeneration charges (R47 to R50) -/

/-- Which fuel a charge is for. -/
inductive FuelKind where
  | compressor
  | regeneration
  deriving DecidableEq, Repr

/-- A fuel day total grown (R4). -/
def addFuel (k : FuelKind) (t : Totals) (n : Nat) : Totals :=
  match k with
  | .compressor => { t with compFuel := t.compFuel + n }
  | .regeneration => { t with regenFuel := t.regenFuel + n }

/-- What a shipper cannot bear of its charge (R48). -/
def fuelShort (slot : Slot) (charge : Nat) : Nat := charge - slot.inventory.toNat

/-- A shipper's charge deducted, as far as it can bear it; the rest is its shortfall (R47, R48). -/
def deductShipper (k : FuelKind) (slot : Slot) (charge : Nat) : Slot :=
  let short := fuelShort slot charge
  addShortfall { slot with inventory := slot.inventory - (charge - short : Nat)
                           totals := addFuel k slot.totals (charge - short) } short

/-- Slot 0's own charge and the shortfalls of the shippers deducted (R47, R48). -/
def deductOperator (k : FuelKind) (slot : Slot) (charge short : Nat) : Slot :=
  addShortfall { slot with inventory := slot.inventory - (charge + short : Nat)
                           totals := addFuel k slot.totals (charge + short) } short

/-- The seventeen slots after their charges: slot 0 takes every shortfall (R47, R48). -/
def deductCharges (k : FuelKind) (slots : List Slot) (charges : List Nat) : List Slot :=
  match slots, charges with
  | op :: shippers, c0 :: cs =>
    deductOperator k op c0 (List.zipWith fuelShort shippers cs).sum :: List.zipWith (deductShipper k) shippers cs
  | _, _ => slots

/-- The shortfalls by slot, slot 0 with none. -/
def fuelShorts (slots : List Slot) (charges : List Nat) : List Nat :=
  0 :: List.zipWith fuelShort (slots.drop 1) (charges.drop 1)

/-- A charge apportioned by weights, deducted, and reported once if any shipper falls short (R47 to R49). -/
def bookFuel (k : FuelKind) (amount : Nat) (w : List Nat) (s : State) : State :=
  let charges := apportion amount w
  let shorts := fuelShorts s.acct.slots charges
  let t := s.onAcct (fun a => { a with slots := deductCharges k a.slots charges })
  if shorts.sum = 0 then t
  else raise .fuelShortfall (lowestMarked (shorts.map (fun n => decide (0 < n)))) shorts.sum t

/-- A regeneration charge of G kWh booked as it is handed over; it names a bed, or none for an idle charge (R49,
R50). -/
def bookRegeneration (bed : Option Bed) (g : Nat) (s : State) : State :=
  let w := match bed with
    | none => List.replicate 17 0
    | some bed => (s.dryer.bed bed).passage
  let t := (bookFuel .regeneration g w s).onMon (fun m => { m with sumHeater := m.sumHeater + g })
  match bed with
  | none => t
  | some bed => t.onDryer (fun d => d.onBed bed (fun r => { r with passage := List.replicate 17 0 }))

/-! ### The interval booking (R33 to R36, R47) -/

/-- The direction of an interval and whether it is stray (R35, R36). -/
def intervalDirection (mode : Mode) (last : Dir) (v : Nat) : Option (Flow × Bool) :=
  match modeFlow mode with
  | some f => some (f, false)
  | none =>
    if v = 0 then none
    else match last with
      | some f => some (f, false)
      | none => some (.inject, true)

/-- An interval of V litres at H, with F kWh of compressor fuel, booked (R33 to R47). -/
def bookInterval (v h fuel : Nat) (s : State) : State :=
  let booked : List Nat × State := match intervalDirection s.train.mode s.train.lastFlow v with
    | none => (List.replicate 17 0, s)
    | some (f, stray) =>
      let w := if stray then List.replicate 17 0 else bookingWeights f s.nom.confirmed
      let r := bookEnergy f v h w s.dryer.adsorbing s
      (r.2.1, if stray then raise .strayFlow 0 r.1 r.2.2 else r.2.2)
  (bookFuel .compressor fuel booked.1 booked.2).onMon (fun m => { m with sumCompFuel := m.sumCompFuel + fuel })

/-! ### The close of the gas day (R6 to R8, R11) -/

/-- A slot gets a DAY report: slot 0 and the configured shipper slots (R9). -/
def Image.reports (m : Image) (slot : Nat) : Bool := decide (slot = 0) || m.configured slot

/-- The slots from `start` on that get a DAY report, in slot order (R9). -/
def reportSlots (m : Image) (start : Nat) : List Nat :=
  (List.range 17).filter (fun i => decide (start ≤ i) && m.reports i)

/-- The entry is the DAY report of the present close. -/
def Entry.isDay (e : Entry) : Bool := decide (e.owner = .dayCursor)

/-- The rest of the previous close's reports abandoned (R11): a waiting report is withdrawn, one on the line belongs to
no close any more and is not counted. -/
def abandonReports (s : State) : State :=
  let rest := reportSlots s.cfg s.acct.cursor
  let onLine := s.link.queue.any (fun e => e.isDay && e.onLine)
  let lost := if onLine then rest.drop 1 else rest
  let t := s.onLink (fun l => { l.withdraw Entry.isDay with
    queue := (l.withdraw Entry.isDay).queue.map (fun e => if e.isDay then { e with owner := .pastClose } else e) })
  match lost with
  | [] => t
  | first :: _ => raise .reportLost first lost.length t

/-- The flag of a slot after the close: it stays set only while the site inventory is above S (R8). -/
def flagAfterClose (s : State) (slot : Nat) (r : Slot) : Bool :=
  r.spaceOver && decide (s.siteInventory slot > ((s.cfg.shipper slot).space : Int))

/-- The close of the gas day (R6), with the ending day that the day boundary carries. -/
def closeDay (endingDay : Nat) (s : State) : State :=
  let s := abandonReports s
  s.onAcct (fun a =>
    { a with closedDay := some endingDay
             closed := a.slots
             provisional := s.intake.suspInject.isSome || s.intake.suspWithdraw.isSome || a.restoredTotals
             restoredTotals := false
             slots := (List.range a.slots.length).map (fun i =>
               let r := a.slots.getD i {}
               { r with totals := {}, spaceOver := flagAfterClose s i r })
             cursor := 0
             outstanding := false })

end Sys2Proof.Machine
end

