-- ==== Sys2Proof/Machine/Nomination.lean ====
section
/-! DEFINITION. The nomination unit: the checks of a NOMS, the pending lists, ratchets, confirmation
(01_shipper_accounts_and_nominations.md, 02_ratchets_peer_inventory_and_confirmation.md). -/

namespace Sys2Proof.Machine

open Sys2Proof (Flow Dir Mode)

/-! ### Nominations (R14, R15) -/

/-- The nominations of slot 1 to 16. -/
def Nominations.nominee (n : Nominations) (slot : Nat) : Nominee := n.shippers.getD (slot - 1) {}

/-- The first check of R14 that a NOMS fails, by its reason code (R14, R156); `none` when it is accepted. -/
def nomReason (s : State) (slot day hour : Nat) (rate : Int) : Option Nat :=
  let effective := hourIndex day hour
  let distance := hourDistance s.clock.hourIndex effective
  let pending := (s.nom.nominee slot).pending
  if s.clock.synced = false then some 1
  else if s.cfg.configured slot = false then some 2
  else if hour > 23 ∨ rate = -2147483648 then some 3
  else if distance < (s.cfg.leadTime : Int) then some 4
  else if distance > 36 then some 5
  else if pending.length ≥ 4 ∧ (pending.any (fun e => e.1 == effective)) = false then some 6
  else none

/-- A new entry put at the place its hour gives it, counted from the current hour (R15). -/
def insertByHour (current : Nat) (e : Nat × Int) : List (Nat × Int) → List (Nat × Int)
  | [] => [e]
  | x :: rest =>
    if hourDistance current e.1 < hourDistance current x.1 then e :: x :: rest else x :: insertByHour current e rest

/-- An accepted nomination entered: it replaces the rate of an entry for its hour, or is inserted (R15). -/
def enterNomination (current : Nat) (e : Nat × Int) (pending : List (Nat × Int)) : List (Nat × Int) :=
  if pending.any (fun x => x.1 == e.1) then pending.map (fun x => if x.1 = e.1 then e else x)
  else insertByHour current e pending

/-- A NOMS taken by the nomination unit (R14, R15). -/
def takeNomination (slot day hour : Nat) (rate : Int) (s : State) : State :=
  match nomReason s slot day hour rate with
  | some reason => raise .nomRefused (if 1 ≤ slot ∧ slot ≤ 16 then slot else 0) reason s
  | none => s.onNom (fun n =>
      { n with shippers := updateAt (slot - 1) (fun r =>
                 { r with pending := enterNomination s.clock.hourIndex (hourIndex day hour, rate) r.pending }) n.shippers })

/-! ### Bringing into effect (R16) -/

/-- One slot's pending list brought into effect at the new current hour: the latest due entry gives the rate, and it
and every earlier entry leave (R16). -/
def bringDue (current : Nat) (n : Nominee) : Nominee :=
  match (n.pending.filter (fun e => hourDistance current e.1 ≤ 0)).getLast? with
  | none => n
  | some e => { current := e.2, pending := n.pending.filter (fun x => hourDistance current x.1 > 0) }

/-- The pending lists brought into effect (R16). -/
def bringIntoEffect (s : State) : State :=
  s.onNom (fun n => { n with shippers := n.shippers.map (bringDue s.clock.hourIndex) })

/-! ### Ratchets (R20 to R22, R26) -/

/-- The peer inventory view is complete: every half record has its heard flag set (R25). -/
def State.viewComplete (s : State) : Bool := s.peers.view.all (fun v => v.half1.isSome && v.half2.isSome)

/-- The fill fraction of a configured slot (R20). -/
def fillFraction (site : Int) (space : Nat) : Int := clampInt 0 1000 (1000 * site / (space : Int))

/-- The factor a ratchet table gives for a fill fraction (R21). -/
def ratchetFactor (points : List (Nat × Nat)) (fill : Int) : Nat :=
  (interpolate (points.map (fun p => ((p.1 : Int), (p.2 : Int)))) fill).toNat

/-- The smallest factor of a table (R26). -/
def smallestFactor : List (Nat × Nat) → Nat
  | [] => 0
  | p :: rest => rest.foldl (fun m q => min m q.2) p.2

/-- The factor of a slot in a direction, with the rule for an incomplete view (R22, R26). -/
def slotFactor (s : State) (slot : Nat) (f : Flow) : Nat :=
  let points := s.cfg.ratchet slot f
  if f = .inject ∧ s.viewComplete = false then smallestFactor points
  else ratchetFactor points (fillFraction (s.siteInventory slot) (s.cfg.shipper slot).space)

/-- The right of a slot in a direction (R22). -/
def slotRight (s : State) (slot : Nat) (f : Flow) : Nat := s.cfg.bookedRate slot f * slotFactor s slot f / 1000

/-! ### Confirmation (R30, R31) -/

/-- The sum of the current rates (R30). -/
def Nominations.total (n : Nominations) : Int := (n.shippers.map (·.current)).sum

/-- The hour direction of a sum of current rates (R30). -/
def directionOf (total : Int) : Dir :=
  if total > 0 then some .inject else if total < 0 then some .withdraw else none

/-- A rate has the sign of a direction. -/
def hasSign (f : Flow) (rate : Int) : Bool :=
  match f with
  | .inject => decide (rate > 0)
  | .withdraw => decide (rate < 0)

/-- The confirmed rate of a slot (R31). -/
def confirmSlot (s : State) (dir : Dir) (slot : Nat) : Int :=
  let rate := (s.nom.nominee slot).current
  match dir with
  | none => 0
  | some f =>
    if s.cfg.configured slot ∧ hasSign f rate then signedRate (some f) (min rate.natAbs (slotRight s slot f)) else 0

/-- The sum of the magnitudes of rates (R31). -/
def magnitudes (rates : List Int) : Nat := (rates.map Int.natAbs).sum

/-- The hour confirmed: direction, confirmed rates, site target (R30, R31). -/
def confirmHour (s : State) : State :=
  let dir := directionOf s.nom.total
  let rates := (List.range 16).map (fun i => confirmSlot s dir (i + 1))
  s.onNom (fun n => { n with hourDir := dir, confirmed := rates, target := magnitudes rates })

end Sys2Proof.Machine
end

