-- ==== Sys2Proof/Machine/Drying.lean ====
section
/-! DEFINITION. The dryer controller (07_gas_drying.md): water, the bed states, regeneration charges, the dew point and
the dryer limit; and the interval record that it and the other blocks take (R130). -/

namespace Sys2Proof.Machine

open Sys2Proof (Flow Dir Bed Mode Lineup)

/-! ### The interval record (R130) and held values (R123) -/

/-- Where the CV in force came from (R37). -/
inductive CvSource where
  | latest | held | default
  deriving DecidableEq, Repr

/-- The interval record (R130): volume, CV in force, the held values with their held times, the two Wh sums, the
SAMPLEs accepted. -/
structure Interval where
  volume   : Nat
  cv       : Nat
  source   : CvSource
  held     : HeldValues
  compWh   : Nat
  heaterWh : Nat
  samples  : Nat
  deriving DecidableEq, Repr

/-- The value of a held field that is held for 300 s or less; `none` when its held time exceeds 300 s or it has had no
valid value since the last reset. -/
def fresh (h : Option Held) : Option Int :=
  match h with
  | some v => if v.time ≤ 300 then some v.value else none
  | none => none

/-- A fresh pressure as a number. -/
def freshNat (h : Option Held) : Option Nat := (fresh h).map Int.toNat

/-! ### Loads and water (R103, R109, R110) -/

/-- The switch load (R103). -/
def DryerFigures.switchLoad (d : DryerFigures) : Nat := d.capacity * d.switchLevel / 1000

/-- The breakthrough load (R103). -/
def DryerFigures.breakthroughLoad (d : DryerFigures) : Nat := d.capacity * d.breakthrough / 1000

/-- The largest content of the water table (R109). -/
def largestContent (t : List (Int × Nat)) : Nat := t.foldl (fun m p => max m p.2) 0

/-- The table content at the inlet temperature, or the largest when the temperature cannot be trusted (R109). -/
def tableContent (t : List (Int × Nat)) (temp : Option Int) : Nat :=
  match temp with
  | none => largestContent t
  | some x => (interpolate (t.map (fun p => (p.1, (p.2 : Int)))) x).toNat

/-- The water content w of an interval in mg/m³ (R109). -/
def waterContent (t : List (Int × Nat)) (temp : Option Int) (pressure : Option Nat) : Nat :=
  let p := match pressure with
    | none => 100
    | some x => max 100 x
  tableContent t temp * 10000 / p

/-- The water content of an interval record. -/
def intervalWater (s : State) (r : Interval) : Nat :=
  waterContent s.cfg.dryer.waterTable (fresh r.held.inletTemp) (freshNat r.held.inletPressure)

/-- Water added to a bed: V × w with the carry (R110). -/
def addWater (v w : Nat) (b : BedRecord) : BedRecord :=
  let sum := v * w + b.waterCarry
  { b with loading := satAdd top32 b.loading (sum / 1000000), waterCarry := sum % 1000000 }

/-! ### Bed states -/

/-- The other bed. -/
def otherBed : Bed → Bed
  | .a => .b
  | .b => .a

/-- The bed valve of a bed state (R106). -/
def valveOf : BedState → Valve
  | .standby | .out => .isolate
  | .adsorbing => .adsorb
  | .heating | .cooling => .regen

/-- The heater is ON while a bed is HEATING (R106). -/
def Dryer.heater (d : Dryer) : Bool := decide (d.bedA.state = .heating) || decide (d.bedB.state = .heating)

/-- The dryer controller hands its three fields to the intake when one of them has changed (R106, R132). -/
def handDryer (s : State) : State :=
  handFields (fun p => { p with
    valveA := valveOf s.dryer.bedA.state, valveB := valveOf s.dryer.bedB.state, heater := s.dryer.heater }) s

/-- The bed that is HEATING. -/
def Dryer.heating (d : Dryer) : Option Bed :=
  if d.bedA.state = .heating then some .a else if d.bedB.state = .heating then some .b else none

/-- The STANDBY bed to take into service: A if A is STANDBY, B otherwise (R111, R119). -/
def Dryer.standbyBed (d : Dryer) : Option Bed :=
  if d.bedA.state = .standby then some .a else if d.bedB.state = .standby then some .b else none

/-- A STANDBY bed taken to ADSORBING whenever the lineup command is WITHDRAW and no bed is ADSORBING (R111). -/
def takeBedIn (s : State) : State :=
  match s.dryer.adsorbing, s.dryer.standbyBed with
  | none, some bed =>
    if s.train.lineup = .withdraw then s.onDryer (fun d => d.onBed bed (fun r => { r with state := .adsorbing })) else s
  | _, _ => s

/-- A bed's entry into HEATING (R112, R117). -/
def enterHeating (b : BedRecord) : BedRecord := { b with state := .heating, phaseTimer := some 0 }

/-- A bed's entry into OUT: its loading becomes the bed capacity (R116). -/
def enterOut (capacity : Nat) (b : BedRecord) : BedRecord :=
  { b with state := .out, phaseTimer := none, loading := capacity }

/-- A bed's regeneration charge formed and handed over (R115). -/
def chargeBed (bed : Bed) (s : State) : State :=
  let b := s.dryer.bed bed
  let sum := b.accumulator + b.heaterCarry
  bookRegeneration (some bed) (sum / 1000)
    (s.onDryer (fun d => d.onBed bed (fun r => { r with accumulator := 0, heaterCarry := sum % 1000 })))

/-- A bed taken OUT, by order or by a fault: its charge is handed over when it leaves HEATING or COOLING, and DEW_HIGH is
cleared when it leaves ADSORBING (R115, R116, R118). -/
def takeBedOut (bed : Bed) (s : State) : State :=
  let before := (s.dryer.bed bed).state
  let t := s.onDryer (fun d =>
    { d.onBed bed (enterOut s.cfg.dryer.capacity) with
      dewHigh := if before = .adsorbing then false else d.dewHigh })
  match before with
  | .heating | .cooling => chargeBed bed t
  | .adsorbing => takeBedIn t
  | .standby | .out => t

/-- A phase timeout: BED_FAULT, and the bed goes OUT with its charge (R113, R114). BED_FAULT is raised before the
FUEL_SHORTFALL that the charge can raise (DESIGN CHOICE, assumption 67). -/
def bedFault (bed : Bed) (s : State) : State := takeBedOut bed (raise .bedFault 0 (bedCode bed) s)

/-! ### The minute work (R108) -/

/-- Step 1, water (R110): `withdrawal` says whether R35 gives the interval the direction WITHDRAW. -/
def dryerWater (withdrawal : Bool) (r : Interval) (s : State) : State :=
  match s.dryer.adsorbing with
  | some bed =>
    if withdrawal ∧ 0 < r.volume then s.onDryer (fun d => d.onBed bed (addWater r.volume (intervalWater s r))) else s
  | none => s

/-- Step 2, heater fuel: to the bed that is HEATING, else the idle charge (R113, R115). -/
def dryerFuel (r : Interval) (s : State) : State :=
  match s.dryer.heating with
  | some bed => s.onDryer (fun d => d.onBed bed (fun b => { b with accumulator := b.accumulator + r.heaterWh }))
  | none =>
    let sum := r.heaterWh + s.dryer.idleCarry
    let t := s.onDryer (fun d => { d with idleCarry := sum % 1000 })
    if sum / 1000 = 0 then t else bookRegeneration none (sum / 1000) t

/-- The hysteresis of the configured set, in 0.1 °C (R103). -/
def DryerFigures.hysteresisValue (d : DryerFigures) : Nat :=
  match d.hysteresis with
  | 0 => 5
  | 1 => 10
  | 2 => 20
  | _ => d.hysteresisD

/-- Step 3, the dew point of a withdrawal interval (R118). A dew point that cannot be trusted counts as at the high
level. -/
def dryerDew (withdrawal : Bool) (r : Interval) (s : State) : State :=
  let high := s.cfg.dryer.dewHigh
  let d := (fresh r.held.dewPoint).getD high
  if withdrawal = false then s
  else if s.dryer.dewHigh then
    (if d ≤ high - (s.cfg.dryer.hysteresisValue : Int) then s.onDryer (fun x => { x with dewHigh := false }) else s)
  else if high ≤ d then raise .dewHigh 0 d (s.onDryer (fun x => { x with dewHigh := true }))
  else s

/-- The held temperature of a bed. -/
def HeldValues.bedTemp (h : HeldValues) : Bed → Option Held
  | .a => h.bedA
  | .b => h.bedB

/-- Step 4 for one bed, by the state it held when the minute work began: HEATING to COOLING at the heat target, the end of
the regeneration at the cool target (R113, R114). A temperature that cannot be trusted has reached neither. -/
def dryerPhase (bed : Bed) (before : BedState) (r : Interval) (s : State) : State :=
  match fresh (r.held.bedTemp bed) with
  | none => s
  | some t =>
    match before with
    | .heating =>
      if s.cfg.dryer.heatTarget ≤ t then
        s.onDryer (fun d => d.onBed bed (fun b => { b with state := .cooling, phaseTimer := some 0 }))
      else s
    | .cooling =>
      if t ≤ s.cfg.dryer.coolTarget then
        takeBedIn (chargeBed bed (s.onDryer (fun d => d.onBed bed
          (fun b => { b with state := .standby, phaseTimer := none, loading := 0, waterCarry := 0 }))))
      else s
    | .standby | .adsorbing | .out => s

/-- Step 5, the switch (R112). -/
def dryerSwitch (s : State) : State :=
  match s.dryer.adsorbing with
  | none => s
  | some bed =>
    if (s.cfg.dryer.switchLoad ≤ (s.dryer.bed bed).loading ∨ s.dryer.dewHigh)
        ∧ (s.dryer.bed (otherBed bed)).state = .standby then
      s.onDryer (fun d =>
        { (d.onBed bed enterHeating).onBed (otherBed bed) (fun b => { b with state := .adsorbing }) with dewHigh := false })
    else s

/-- The bed in service for the dryer limit (R119). -/
def Dryer.inService (d : Dryer) : Option Bed :=
  match d.adsorbing with
  | some bed => some bed
  | none => d.standbyBed

/-- The remaining time T_rem of the other bed's regeneration, in minutes (R119, step 2). -/
def remainingMinutes (g : DryerFigures) (other : BedRecord) : Nat :=
  let gone := other.phaseTimer.getD 0 / 60
  max 1 (if other.state = .heating then (g.heatExpected - gone) + g.coolExpected else g.coolExpected - gone)

/-- The rate of the last row of R119 in its five steps. The product of the fifth is exact where it does not fit 64 bits
(assumption 55). -/
def lastingRate (g : DryerFigures) (load : Nat) (other : BedRecord) (w h : Nat) : Nat :=
  let waterRate := (g.breakthroughLoad - load) * 60 / remainingMinutes g other
  let volumeRate := waterRate * 1000 / w
  min (volumeRate * h / 10000) 2147483647

/-- The dryer limit and the reason code of a limit of 0 (R119, R120). -/
def dryerLimit (g : DryerFigures) (d : Dryer) (w h : Nat) : Option Nat × Nat :=
  match d.inService with
  | none => (some 0, 1)
  | some bed =>
    let load := (d.bed bed).loading
    let other := d.bed (otherBed bed)
    if g.breakthroughLoad ≤ load then (some 0, 2)
    else if load < g.switchLoad ∧ d.dewHigh = false then (none, 0)
    else if other.state = .standby then (none, 0)
    else if d.dewHigh then (some 0, 3)
    else if other.state = .out then (some 0, 4)
    else if w = 0 then (none, 0)
    else (some (lastingRate g load other w h), 5)

/-- Step 6, the dryer limit and DRY_BLOCK (R119, R120). -/
def dryerLimitStep (r : Interval) (s : State) : State :=
  let res := dryerLimit s.cfg.dryer s.dryer (intervalWater s r) r.cv
  let block := decide (res.1 = some 0)
  let t := s.onDryer (fun d => { d with limit := res.1, dryBlock := block })
  if block = true ∧ s.dryer.dryBlock = false then raise .dryBlock 0 res.2 t else t

/-- The dryer's minute work in its six steps (R108). The train mode and the last flowing direction are read as they stand
before the mode controller's minute work. Of two phases that end in step 4, bed A's comes first (assumption 48). The fields
are handed as this work leaves them, before the entry of the train can take a bed in at the same boundary (R106, R111). -/
def dryerMinute (r : Interval) (s : State) : State :=
  let withdrawal := match intervalDirection s.train.mode s.train.lastFlow r.volume with
    | some (.withdraw, _) => true
    | _ => false
  let beforeA := s.dryer.bedA.state
  let beforeB := s.dryer.bedB.state
  let s := dryerWater withdrawal r s
  let s := dryerFuel r s
  let s := dryerDew withdrawal r s
  let s := dryerPhase .a beforeA r s
  let s := dryerPhase .b beforeB r s
  let s := dryerSwitch s
  handDryer (dryerLimitStep r s)

end Sys2Proof.Machine
end

