-- ==== Sys2Proof/Machine/Compression.lean ====
section
/-! DEFINITION. The compressor sequencer and the start queue copy (06_compressor_duty.md). -/

namespace Sys2Proof.Machine

open Sys2Proof (Flow Dir Mode UnitState Feedback)

/-! ### Unit state and command (R88) -/

/-- The compressor command of a unit state (R88). -/
def commandOf : UnitState → CompCommand
  | .starting => .start
  | .running => .run
  | .stopped | .queued | .stopping | .tripped | .lockout => .stop

/-- The unit state changed, the command with it (R88). -/
def Compressor.setUnit (c : Compressor) (u : UnitState) : Compressor := { c with unit := u, command := commandOf u }

/-- The sequencer hands the compressor command to the intake when it has changed (R88, R132). -/
def handCommand (s : State) : State := handFields (fun p => { p with command := s.comp.command }) s

/-- The minimum stop and run times in site seconds (R89). -/
def Image.minStopSeconds (m : Image) : Nat := m.minStop * 60
def Image.minRunSeconds (m : Image) : Nat := m.minRun * 60

/-! ### Wanting a start (R89) -/

/-- The want conditions (R89). -/
def State.wantConditions (s : State) : Bool :=
  (modeFlow s.train.mode).isSome && decide (s.comp.path = .compressed) && decide (0 < s.train.share)

/-- The starts younger than 3,600 s (R89). -/
def Compressor.youngStarts (c : Compressor) : Nat := (c.starts.filter (· < 3600)).length

/-- A start is wanted (R89). -/
def State.startWanted (s : State) : Bool :=
  s.wantConditions && decide (s.comp.unit = .stopped) && !s.comp.claimInFlight && !s.comp.cedePending
    && !(s.peers.startQueue.contains s.station) && decide (s.cfg.minStopSeconds ≤ s.comp.stopTimer)
    && decide (s.comp.youngStarts < 3) && decide (s.peers.startQueue.length < 8)

/-- A CEDE queued and cede pending set (R95). -/
def queueCede (s : State) : State :=
  if s.comp.cedePending ∨ s.train.mode = .config then s
  else enqueue .cede .sequencer (s.onComp (fun c => { c with cedePending := true }))

/-- A CLAIM queued and claim in flight set (R90). -/
def queueClaim (s : State) : State :=
  enqueue .claim .sequencer (s.onComp (fun c => { c with claimInFlight := true }))

/-- The entry is the part's waiting CLAIM. -/
def Entry.isClaim (e : Entry) : Bool := decide (e.telegram = .claim)

/-- The part's CLAIM withdrawn if it is still unsent in the queue; on the line it is left (R90, R98), until it waits again
(assumption 50). -/
def withdrawClaim (s : State) : State :=
  if s.comp.claimInFlight ∧ s.link.queue.any (fun e => e.isClaim && !e.onLine) then
    (s.onLink (·.withdraw Entry.isClaim)).onComp (fun c => { c with claimInFlight := false })
  else s

/-! ### The start queue copy (R91 to R93) -/

/-- The part's own entry has become head: a QUEUED unit goes to STARTING, and the START is handed (R88, R93). -/
def ownHead (s : State) : State :=
  if s.comp.unit = .queued then
    handCommand (s.onComp (fun c =>
      { c.setUnit .starting with
        startTimer := some 0
        starts := (if c.starts.length ≥ 3 then c.starts.drop 1 else c.starts) ++ [0] }))
  else s

/-- A station's entry leaves the copy (R92). The next entry becomes head with a head age of 0; a QUEUED unit whose own
entry leaves goes back to STOPPED; the part's own entry becoming head is told to the sequencer (R93). -/
def removeFromCopy (station : Nat) (s : State) : State :=
  let q := s.peers.startQueue
  if q.contains station then
    let rest := q.filter (· != station)
    let wasHead := q.head? == some station
    let s1 := s.onPeers (fun p => { p with startQueue := rest, headAge := if wasHead then 0 else p.headAge })
    let s2 := if station = s.station ∧ s1.comp.unit = .queued then s1.onComp (·.setUnit .stopped) else s1
    if wasHead && (rest.head? == some s.station) then ownHead s2 else s2
  else s

/-- A station added at the end of the copy (R91). -/
def addToCopy (station : Nat) (s : State) : State :=
  s.onPeers (fun p => { p with startQueue := p.startQueue ++ [station]
                               headAge := if p.startQueue.isEmpty then 0 else p.headAge })

/-- The discard count grown (R149). -/
def countDiscard (s : State) : State := s.onLink (fun l => { l with discards := satAdd top16 l.discards 1 })

/-- A peer's CLAIM taken (R91). -/
def takeClaim (station : Nat) (s : State) : State :=
  if s.peers.startQueue.contains station then s
  else if s.peers.startQueue.length ≥ 8 then countDiscard s
  else addToCopy station s

/-- The echo of the part's own CLAIM taken into the copy (R90, R91, R93). -/
def ownClaimEcho (s : State) : State :=
  let s := s.onComp (fun c => { c with claimInFlight := false })
  if s.peers.startQueue.contains s.station then s
  else if s.peers.startQueue.length ≥ 8 then queueCede (countDiscard s)
  else
    let wasEmpty := s.peers.startQueue.isEmpty
    let t := addToCopy s.station s
    let t := if t.comp.unit = .stopped ∧ t.wantConditions then t.onComp (·.setUnit .queued) else queueCede t
    if wasEmpty then ownHead t else t

/-- The echo of the part's own CEDE (R95). -/
def ownCedeEcho (s : State) : State :=
  removeFromCopy s.station (s.onComp (fun c => { c with cedePending := false }))

/-- The head hold has expired (R92). -/
def expireHead (s : State) : State :=
  match s.peers.startQueue with
  | [] => s
  | head :: _ => if 210 ≤ s.peers.headAge then removeFromCopy head s else s

/-! ### Starting, stopping, trips (R94 to R99) -/

/-- A commanded stop, or the end of a start: STOPPING, with the stop timer from 0 (R94, R96). -/
def Compressor.toStopping (c : Compressor) : Compressor :=
  { c.setUnit .stopping with stopTimer := 0, startTimer := none }

/-- The start timer has reached 180 s (R94); START_TIMEOUT's report stands before the CEDE (assumption 56). -/
def timeOutStart (s : State) : State :=
  if s.comp.unit = .starting ∧ 180 ≤ s.comp.startTimer.getD 0 then
    queueCede (raise .startTimeout 0 180 (s.onComp (·.toStopping)))
  else s

/-- A RUNNING unit is commanded to stop (R96). -/
def State.stopCalled (s : State) : Bool :=
  decide (s.train.mode = .shutIn)
    || (decide (s.cfg.minRunSeconds ≤ s.comp.runTimer)
      && (decide (s.comp.path = .free) || decide (300 ≤ s.comp.zeroDemand)
        || decide (s.train.mode = .idle) || decide (s.train.mode = .hold) || decide (s.train.mode = .listen)))

/-- The tests that end a start or a run: STARTING in SHUT_IN (R94), RUNNING by R96. -/
def stopTests (s : State) : State :=
  match s.comp.unit with
  | .starting => if s.train.mode = .shutIn then queueCede (s.onComp (·.toStopping)) else s
  | .running => if s.stopCalled then s.onComp (·.toStopping) else s
  | .stopped | .queued | .stopping | .tripped | .lockout => s

/-- What the sequencer does when the want conditions fail: a QUEUED unit is cancelled with a CEDE (R93), an unsent CLAIM
is withdrawn (R90). -/
def cancelTests (s : State) : State :=
  if s.wantConditions then s
  else if s.comp.unit = .queued then queueCede (s.onComp (·.setUnit .stopped))
  else withdrawClaim s

/-- The start slot claimed when a start is wanted (R89, R90). -/
def claimTest (s : State) : State := if s.startWanted then queueClaim s else s

/-- The sequencer's tests after an input of R89, R93, R94 or R96 has changed. -/
def sequencerReact (s : State) : State := claimTest (stopTests (cancelTests s))

/-- A trip taken (R98). COMP_TRIP is raised before COMP_LOCKOUT, and both before the CEDE or the withdrawal of the CLAIM
(assumption 56). The trip makes no test of R99: with a minimum stop time of 0, a trip taken on STOPPED leaves the unit TRIPPED
until MIN_STOP_ELAPSED or the next STOPPED (DESIGN CHOICE, assumption 72). -/
def takeTrip (s : State) : State :=
  let trips := s.comp.trips.filter (· < 86400) ++ [0]
  let unit := s.comp.unit
  let s1 := s.onComp (fun c =>
    { c.setUnit (if trips.length ≥ 3 then .lockout else .tripped) with
      trips := trips, stopTimer := 0, startTimer := none })
  let s2 := raise .compTrip 0 trips.length s1
  let s3 := if trips.length ≥ 3 then raise .compLockout 0 3 s2 else s2
  match unit with
  | .queued | .starting => queueCede s3
  | .stopped => withdrawClaim s3
  | .running | .stopping | .tripped | .lockout => s3

/-- The test for auto-restart (R99); an auto-restart byte of 1 is set (assumption 62). -/
def autoRestart (s : State) : State :=
  if s.comp.unit = .tripped ∧ s.cfg.autoRestart = 1 ∧ s.cfg.minStopSeconds ≤ s.comp.stopTimer
      ∧ s.comp.feedback = some .stopped then
    s.onComp (·.setUnit .stopped)
  else s

/-- The first feedback of a unit that is STOPPING and awaiting it after a reset (R85). A unit that becomes TRIPPED here
starts its stop timer as R84 defines it (assumption 17). -/
def settleAfterReset (fb : Feedback) (s : State) : State :=
  match fb with
  | .stopped => s.onComp (·.setUnit .stopped)
  | .tripped => s.onComp (fun c => { c.setUnit .tripped with stopTimer := 0 })
  | .starting | .running => s

/-- A feedback other than VOID taken by the table of R97; `before` is the latest feedback before it. The RUN of a start that
completes is handed at once, before R96 can stop the unit in the same event (R88, assumption 64). A TRIPPED behind a trip
taken on STOPPED is an edge by R97's definition (assumption 49). -/
def feedbackTable (before : Option Feedback) (fb : Feedback) (s : State) : State :=
  match s.comp.unit, fb with
  | .lockout, _ => s
  | _, .tripped => if before = some .tripped then s else takeTrip s
  | .running, .stopped => takeTrip s
  | .starting, .running =>
    queueCede (handCommand (s.onComp (fun c => { c.setUnit .running with runTimer := 0, startTimer := none })))
  | .stopping, .stopped => s.onComp (·.setUnit .stopped)
  | .tripped, .stopped => autoRestart s
  | _, _ => s

/-- The compressor feedback of an accepted SAMPLE (R85, R97); VOID changes nothing. -/
def takeFeedback (fb : Option Feedback) (s : State) : State :=
  match fb with
  | none => s
  | some f =>
    let t := s.onComp (fun c => { c with feedback := some f, awaiting := false })
    if s.comp.awaiting ∧ s.comp.unit = .stopping then settleAfterReset f t else feedbackTable s.comp.feedback f t

/-! ### The minute work: fuel, path, capacity, start limit (R86, R87, R89, R101) -/

/-- F and the new fuel carry (R101). -/
def formFuel (wh carry : Nat) : Nat × Nat := ((wh + carry) / 1000, (wh + carry) % 1000)

/-- The direction of the path decision (R86). -/
def pathDirection (s : State) : Dir :=
  match modeFlow s.train.mode with
  | some f => some f
  | none => if s.train.mode = .reversing then s.train.lastFlow else s.nom.hourDir

/-- The path after the decision (R86). With no direction it stays (assumption 18). -/
def decidePath (m : Image) (before : Path) (dir : Dir) (header wellhead : Option Int) : Path :=
  match dir with
  | none => before
  | some f =>
    match header, wellhead with
    | some h, some p =>
      let d := match f with
        | .inject => h - p
        | .withdraw => p - h
      match before with
      | .free => if d < (m.margin : Int) then .compressed else .free
      | .compressed => if ((m.margin + m.band : Nat) : Int) ≤ d then .free else .compressed
    | _, _ => .compressed

/-- The capacity at a ratio: 0 above the last breakpoint (R87). -/
def capacityAt (table : List (Nat × Nat)) (x : Nat) : Nat :=
  match table.getLast? with
  | none => 0
  | some last => if last.1 < x then 0
    else (interpolate (table.map (fun p => ((p.1 : Int), (p.2 : Int)))) x).toNat

/-- The capacity of an interval record (R87). -/
def capacityOf (m : Image) (suction discharge : Option Nat) : Nat :=
  match suction, discharge with
  | some su, some di => capacityAt m.capacity (1000 * di / max 100 su)
  | _, _ => 0

/-- The unit is held back by its start limit (R89). -/
def State.heldBack (s : State) : Bool :=
  (decide (s.train.mode = .idle) || decide (s.train.mode = .inject) || decide (s.train.mode = .withdraw))
    && s.nom.hourDir.isSome && decide (s.comp.path = .compressed) && decide (s.comp.unit = .stopped)
    && decide (s.cfg.minStopSeconds ≤ s.comp.stopTimer) && decide (s.comp.youngStarts ≥ 3)

/-- The start-limit mark and START_LIMIT (R89). -/
def startLimitTest (s : State) : State :=
  if s.heldBack then
    if s.comp.startLimit then s
    else raise .startLimit 0 ((3600 - s.comp.starts.headD 0 : Nat) : Int) (s.onComp (fun c => { c with startLimit := true }))
  else s.onComp (fun c => { c with startLimit := false })

/-- The sequencer's minute work after F: path, capacity, start limit (R86, R87, R89). -/
def sequencerMinute (r : Interval) (s : State) : State :=
  startLimitTest (s.onComp (fun c =>
    { c with path := decidePath s.cfg c.path (pathDirection s) (fresh r.held.header) (fresh r.held.wellhead)
             capacity := capacityOf s.cfg (freshNat r.held.suction) (freshNat r.held.discharge) }))

/-! ### Timers (R84) -/

/-- The sequencer's timers and ages after one advanced second (R84). -/
def Compressor.tick (zeroDemand : Bool) (c : Compressor) : Compressor :=
  { c with starts := c.starts.map (· + 1)
           trips := c.trips.map (· + 1)
           runTimer := c.runTimer + 1
           stopTimer := c.stopTimer + 1
           startTimer := c.startTimer.map (· + 1)
           zeroDemand := if zeroDemand then c.zeroDemand + 1 else 0 }

end Sys2Proof.Machine
end

