-- ==== Sys2Proof/Machine/Modes.lean ====
section
/-! DEFINITION. The train mode controller: modes, reversal, offers, share division and the rate demand
(04_train_modes_and_rate_demand.md, 05_offers_and_share_division.md). -/

namespace Sys2Proof.Machine

open Sys2Proof (Flow Dir Bed Mode UnitState Lineup)

/-! ### The rate demand and the OFFER -/

/-- The rate demand set. The zero-demand timer restarts from 0 when the demand becomes 0 and holds at 0 while it is not
(R84). -/
def setDemand (d : Int) (s : State) : State :=
  (s.onTrain (fun t => { t with demand := d })).onComp
    (fun c => { c with zeroDemand := if d = 0 ∧ s.train.demand = 0 then c.zeroDemand else 0 })

/-- The mode controller hands its three fields to the intake when one of them has changed (R71, R132). -/
def handMode (s : State) : State :=
  handFields (fun p => { p with demand := s.train.demand, lineup := s.train.lineup, mode := s.train.mode }) s

/-- The OFFER as the state stands (R82). -/
def offerTelegram (s : State) : Telegram :=
  .offer s.train.offerDir s.train.offer s.train.share s.nom.target s.train.mode s.comp.unit

/-- The part's OFFER queued (R82). -/
def queueOffer (s : State) : State := enqueue (offerTelegram s) .other s

/-- A demand clamped to an offer along the offer's direction (R69). -/
def clampDemand (offer : Nat) (dir : Dir) (demand : Int) : Int :=
  let measure : Int := match dir with
    | some .inject => demand
    | some .withdraw => -demand
    | none => demand.natAbs
  if measure > offer then signedRate dir offer else demand

/-- The offer and the share lowered to 0 between minute works, and the demand clamped at once (R69, R79). -/
def lowerOffer (s : State) : State :=
  setDemand (clampDemand 0 s.train.offerDir s.train.demand) (s.onTrain (fun t => { t with offer := 0, share := 0 }))

/-! ### Entry into HOLD, SHUT_IN and LISTEN (R57, R65 to R67) -/

/-- The train taken to HOLD or SHUT_IN: demand 0, lineup CLOSED, offer and share 0, and a REVERSING train in phase RAMP
starts its dwell now (R63, R65, R66, R79). -/
def stopTrain (m : Mode) (s : State) : State :=
  setDemand 0 (s.onTrain (fun t =>
    { t with mode := m, phase := none, lineup := .closed, offer := 0, share := 0
             dwell := if t.mode = .reversing ∧ t.phase = some .ramp then some s.clock.index else t.dwell }))

/-- HOLD (R65), with its OFFER at once (R82), before the sequencer reacts (assumption 47). -/
def enterHold (s : State) : State := queueOffer (stopTrain .hold s)

/-- SHUT_IN (R66), with its OFFER at once (R82), before the sequencer reacts (assumption 47). -/
def enterShutIn (s : State) : State := queueOffer (stopTrain .shutIn s)

/-- Site seconds since the JOIN time, if one is held (R57). -/
def State.sinceJoin (s : State) : Option Nat := s.train.joinTime.map (elapsed s)

/-- The test for leaving LISTEN (R57). -/
def listenTest (s : State) : State :=
  match s.sinceJoin with
  | none => s
  | some t =>
    if s.train.mode = .listen ∧ s.clock.synced ∧ 30 ≤ t ∧ (s.viewComplete ∨ 120 ≤ t) then
      s.onTrain (fun c => { c with mode := .idle, listenDone := true })
    else s

/-- Entry into LISTEN: SHUT_IN at once while the halt set is not empty (R66), HOLD at once while the field-lost flag is
set (R124), otherwise the test of R57. -/
def enterListen (s : State) : State :=
  let t := s.onTrain (fun c => { c with mode := .listen })
  if t.link.haltSet ≠ [] then enterShutIn t
  else if t.intake.fieldLost then enterHold t
  else listenTest t

/-- FIELD_LOST reported to the mode controller (R65). -/
def fieldLostMode (s : State) : State :=
  match s.train.mode with
  | .listen | .idle | .inject | .withdraw | .reversing => enterHold s
  | .config | .hold | .shutIn => s

/-- An accepted SAMPLE ends a HOLD (R65). -/
def endHold (s : State) : State :=
  if s.train.mode = .hold then
    (if s.train.listenDone then s.onTrain (fun t => { t with mode := .idle }) else enterListen s)
  else s

/-- A train released from SHUT_IN (R67). -/
def release (s : State) : State :=
  if s.intake.fieldLost then enterHold s
  else if s.train.listenDone then s.onTrain (fun t => { t with mode := .idle })
  else enterListen s

/-! ### Step 1: direction and dwell (R62, R64) -/

/-- A running dwell runs against the direction opposite to the last flowing direction (R64). -/
def State.dwellAgainst (s : State) (f : Flow) : Bool :=
  s.train.dwell.isSome && decide (s.train.lastFlow = some (opposite f))

/-- The moves of R62 and the return during the dwell of R64. The Bool says that the demand stays 0 at step 4. -/
def reversalMoves (s : State) : State × Bool :=
  match modeFlow s.train.mode, s.train.phase, s.train.lastFlow with
  | some f, _, _ =>
    if s.nom.hourDir = some (opposite f) then
      (s.onTrain (fun t => { t with mode := .reversing, phase := some .ramp }), false)
    else (s, false)
  | none, some .ramp, some f =>
    if s.train.mode = .reversing ∧ s.nom.hourDir = some f then
      (takeBedIn (s.onTrain (fun t => { t with mode := flowMode f, phase := none })), false)
    else (s, false)
  | none, some .dwell, some f =>
    if s.train.mode = .reversing ∧ s.nom.hourDir = some f then
      (takeBedIn (setDemand 0 (s.onTrain (fun t =>
        { t with mode := flowMode f, phase := none, dwell := none, lineup := flowLineup f }))), true)
    else (s, false)
  | _, _, _ => (s, false)

/-- The end of a dwell that has run its length (R64). -/
def endDwell (s : State) : State :=
  match s.train.dwell with
  | none => s
  | some start =>
    if s.cfg.dwellMinutes * 60 ≤ elapsed s start then
      s.onTrain (fun t =>
        if t.mode = .reversing ∧ t.phase = some .dwell then
          { t with dwell := none, mode := .idle, phase := none, lineup := .closed }
        else { t with dwell := none })
    else s

/-- Step 1 of the minute work (R58). -/
def directionStep (s : State) : State × Bool :=
  let r := reversalMoves s
  (endDwell r.1, r.2)

/-! ### Step 2: pressure history, offer and share (R73 to R77, R80) -/

/-- The ring written with a pressure, or emptied when there is none to trust (R75). -/
def Ring.take (g : Ring) (p : Option Nat) : Ring :=
  match p with
  | none => {}
  | some x => { places := updateAt g.write (fun _ => x) g.places
                write := (g.write + 1) % 61
                count := min 61 (g.count + 1) }

/-- The newest entry: the one just written (R75). -/
def Ring.newest (g : Ring) : Nat := g.places.getD ((g.write + 60) % 61) 0

/-- The oldest entry: at the write position when the ring is full, else at the first place (R75). -/
def Ring.oldest (g : Ring) : Nat := g.places.getD (if g.count = 61 then g.write else 0) 0

/-- The envelope limit; `none` is "no limit" (R74). -/
def envelopeLimit (m : Image) (f : Flow) (p : Option Nat) : Option Nat :=
  match p with
  | none => some 0
  | some p =>
    match f with
    | .withdraw =>
      if p ≤ m.pMin then some 0
      else if p < m.pMin + m.taper then some (m.stationMax * (p - m.pMin) / m.taper) else none
    | .inject =>
      if m.pMax ≤ p then some 0
      else if m.pMax < p + m.taper then some (m.stationMax * (m.pMax - p) / m.taper) else none

/-- The pressure-rate limit from the ring (R76). -/
def pressureRateLimit (m : Image) (f : Flow) (g : Ring) (demand : Int) : Option Nat :=
  if g.count < 2 then none
  else
    let change : Int := match f with
      | .inject => (g.newest : Int) - g.oldest
      | .withdraw => (g.oldest : Int) - g.newest
    let allowed := m.dpMax * (g.count - 1) / 60
    if change ≥ allowed then some (demand.natAbs * 9 / 10) else none

/-- The path limit (R77). -/
def pathLimit (m : Image) (c : Compressor) : Option Nat :=
  match c.path with
  | .free => none
  | .compressed =>
    match c.unit with
    | .running | .starting | .queued => some c.capacity
    | .stopped => if m.minStopSeconds ≤ c.stopTimer ∧ c.youngStarts < 3 then some c.capacity else some 0
    | .stopping | .tripped | .lockout => some 0

/-- The least of the limits that limit (R73). -/
def leastOf (m : Nat) (limits : List (Option Nat)) : Nat :=
  limits.foldl (fun best l => match l with
    | some x => min best x
    | none => best) m

/-- A condition of R73 that makes the offer 0 in a direction. -/
def State.offerBarred (s : State) (f : Flow) : Bool :=
  decide (s.train.mode = .listen) || decide (s.train.mode = .hold) || decide (s.train.mode = .shutIn)
    || decide (s.train.mode = .reversing) || s.dwellAgainst f
    || decide (s.link.state = .silent) || decide (s.link.state = .fault)

/-- The offer (R73): the ring is as R75 has just left it. -/
def offerOf (s : State) (r : Interval) : Nat :=
  match s.nom.hourDir with
  | none => 0
  | some f =>
    if s.offerBarred f then 0
    else leastOf s.cfg.stationMax
      [envelopeLimit s.cfg f (freshNat r.held.wellhead), pressureRateLimit s.cfg f s.train.ring s.train.demand,
       pathLimit s.cfg s.comp, match f with
         | .withdraw => s.dryer.limit
         | .inject => none]

/-- An entry of the peer offer table is fresh: filled, 180 s old or less, in the hour direction (R80). -/
def freshOffer (s : State) (e : PeerOffer) : Option Nat :=
  match e.entry with
  | none => none
  | some o => if elapsed s o.heard ≤ 180 ∧ o.dir = s.nom.hourDir then some o.offer else none

/-- The share of an own offer, a sum of all offers and a target (R80). -/
def shareOf (own total target : Nat) : Nat :=
  if own = 0 then 0 else if total ≤ target then own else target * own / total

/-- Step 2 of the minute work: ring, offer, share (R58, R73, R75, R80). -/
def offerStep (r : Interval) (s : State) : State :=
  let s := s.onTrain (fun t => { t with ring := t.ring.take (freshNat r.held.wellhead) })
  let own := offerOf s r
  let total := own + (s.peers.offers.filterMap (freshOffer s)).sum
  s.onTrain (fun t => { t with offer := own, offerDir := s.nom.hourDir, share := shareOf own total s.nom.target })

/-! ### Step 3: entry (R59, R60) -/

/-- The entry test of R59 for a direction. -/
def State.mayEnter (s : State) (f : Flow) : Bool :=
  decide (s.train.mode = .idle) && decide (s.nom.hourDir = some f) && decide (0 < s.train.share)
    && s.link.haltSet.isEmpty && !s.dwellAgainst f
    && (decide (f = .inject) || s.dryer.adsorbing.isSome || s.dryer.standbyBed.isSome)

/-- Step 3 of the minute work (R59). The Bool says that the demand stays 0 at step 4. -/
def entryStep (s : State) : State × Bool :=
  match s.nom.hourDir with
  | none => (s, false)
  | some f =>
    if s.mayEnter f then
      (takeBedIn (setDemand 0 (s.onTrain (fun t =>
        { t with mode := flowMode f, lineup := flowLineup f, lastFlow := some f, dwell := none }))), true)
    else (s, false)

/-! ### Step 4: demand (R69, R70) -/

/-- The demand is held at 0 (R70). -/
def State.demandHeld (s : State) : Bool :=
  ((modeFlow s.train.mode).isSome || (decide (s.train.mode = .reversing) && decide (s.train.phase = some .ramp)))
    && ((decide (s.comp.path = .compressed) && decide (s.comp.unit ≠ .running))
      || decide (s.intake.lineup ≠ some s.train.lineup)
      || (decide (s.train.lineup = .withdraw) && s.dryer.adsorbing.isNone))

/-- The hold applied at once (R70). -/
def applyHold (s : State) : State := if s.demandHeld then setDemand 0 s else s

/-- The step of the ramp before the clamp (R69). -/
def rampStep (ramp : Nat) (t : Train) : Int :=
  let m := t.demand.natAbs
  match modeFlow t.mode with
  | some f =>
    signedRate (some f) (if m < t.share then min (m + ramp) t.share else if m > t.share then max (m - ramp) t.share else m)
  | none => if t.mode = .reversing ∧ t.phase = some .ramp then signedRate t.lastFlow (m - ramp) else 0

/-- Step 4 of the minute work (R58, R69, R70): `stays` is set when an entry or a return of this minute work leaves the
demand at 0. -/
def demandStep (stays : Bool) (s : State) : State :=
  let d := if stays ∨ s.demandHeld then 0
    else clampDemand s.train.offer s.train.offerDir (rampStep s.cfg.rampRate s.train)
  setDemand d s

/-! ### Step 5: zero demand (R61, R63) -/

/-- Step 5 of the minute work: the ramp's end starts the dwell (R63); a flowing train without a direction or a share goes
to IDLE (R61). -/
def zeroStep (s : State) : State :=
  s.onTrain (fun t =>
    if t.demand ≠ 0 then t
    else if t.mode = .reversing ∧ t.phase = some .ramp then
      { t with phase := some .dwell, lineup := .closed, dwell := some s.clock.index }
    else if (modeFlow t.mode).isSome ∧ (s.nom.hourDir = none ∨ t.share = 0) then
      { t with mode := .idle, lineup := .closed }
    else t)

/-- The mode controller's minute work in its five steps, and its OFFER (R58, R82). -/
def modeMinute (r : Interval) (s : State) : State :=
  let one := directionStep s
  let two := offerStep r one.1
  let three := entryStep two
  let four := demandStep (one.2 || three.2) three.1
  queueOffer (zeroStep four)

end Sys2Proof.Machine
end

