-- ==== Sys2Proof/Machine/Measurement.lean ====
section
/-! DEFINITION. The measurement intake (08_measurement_intake.md): SAMPLEs, held values, totalizers, suspense records,
the interval record, and SETPOINT sending. -/

namespace Sys2Proof.Machine

open Sys2Proof (Flow Dir Bed Mode Lineup Sample)

/-! ### SETPOINT sending (R132) -/

/-- The SETPOINT fields as their owners' states stand (R71, R88, R106). -/
def currentFields (s : State) : Setpoint :=
  { demand := s.train.demand, lineup := s.train.lineup, mode := s.train.mode, command := s.comp.command
    valveA := valveOf s.dryer.bedA.state, valveB := valveOf s.dryer.bedB.state, heater := s.dryer.heater }

/-- At the end of an event the dryer controller, the sequencer and the mode controller each hand their changed fields (R71,
R88, R106, assumption 31). A START, a RUN and the fields of the dryer's minute work have been handed before (assumption
64). -/
def handAll (s : State) : State := handMode (handCommand (handDryer s))

/-- A SETPOINT send has completed (R132). -/
def setpointDone (s : State) : State :=
  s.onIntake (fun i => match i.sending with
    | none => i
    | some _ => if i.sendAgain then { i with sending := some i.handed, sendAgain := false }
                else { i with sending := none })

/-! ### Held values (R123) -/

/-- A field's value is in its range, or it is taken as VOID (R123). -/
def validIn (low high : Int) (v : Option Int) : Option Int :=
  match v with
  | some x => if low ≤ x ∧ x ≤ high then some x else none
  | none => none

/-- A held value after an accepted SAMPLE (R123). -/
def holdField (low high : Int) (v : Option Int) (before : Option Held) : Option Held :=
  match validIn low high v with
  | some x => some { value := x, time := 0 }
  | none => before

/-- A received number as a signed one. -/
def asInt (v : Option Nat) : Option Int := v.map Int.ofNat

/-- The CV of a SAMPLE when it is valid (R37, R123). -/
def validCv (p : Sample) : Option Nat := (validIn 1 200000 (asInt p.cv)).map Int.toNat

/-- The ten held values after an accepted SAMPLE (R123). -/
def HeldValues.update (h : HeldValues) (p : Sample) : HeldValues :=
  { cv := holdField 1 200000 (asInt p.cv) h.cv
    wellhead := holdField 0 25000 (asInt p.wellhead) h.wellhead
    header := holdField 0 25000 (asInt p.header) h.header
    suction := holdField 0 25000 (asInt p.suction) h.suction
    discharge := holdField 0 25000 (asInt p.discharge) h.discharge
    inletPressure := holdField 0 25000 (asInt p.inletPressure) h.inletPressure
    inletTemp := holdField (-400) 3000 p.inletTemp h.inletTemp
    bedA := holdField (-400) 3000 p.bedATemp h.bedA
    bedB := holdField (-400) 3000 p.bedBTemp h.bedB
    dewPoint := holdField (-400) 3000 p.dewPoint h.dewPoint }

/-- One intake second on a held time (R123). -/
def Held.tick (h : Held) : Held := { h with time := h.time + 1 }

/-- One intake second on the ten held times (R123). -/
def HeldValues.tick (h : HeldValues) : HeldValues :=
  { cv := h.cv.map Held.tick, wellhead := h.wellhead.map Held.tick, header := h.header.map Held.tick
    suction := h.suction.map Held.tick, discharge := h.discharge.map Held.tick
    inletPressure := h.inletPressure.map Held.tick, inletTemp := h.inletTemp.map Held.tick
    bedA := h.bedA.map Held.tick, bedB := h.bedB.map Held.tick, dewPoint := h.dewPoint.map Held.tick }

/-- One intake second: held times, field timer, span, suspense ages (R123). -/
def Intake.tick (i : Intake) : Intake :=
  { i with held := i.held.tick
           fieldTimer := i.fieldTimer + 1
           meterSpan := i.meterSpan + 1
           suspInject := i.suspInject.map (fun r => { r with age := r.age + 1 })
           suspWithdraw := i.suspWithdraw.map (fun r => { r with age := r.age + 1 }) }

/-! ### The CV in force and the interval record (R37, R130) -/

/-- The CV in force and where it came from (R37). -/
def cvInForce (s : State) : Nat × CvSource :=
  match s.intake.latestCv, s.intake.held.cv with
  | some v, _ => (v, .latest)
  | none, some h => (h.value.toNat, .held)
  | none, none => (s.cfg.defaultCv, .default)

/-- The interval record as the open interval stands (R130). -/
def intervalRecord (s : State) : Interval :=
  { volume := s.intake.volume, cv := (cvInForce s).1, source := (cvInForce s).2, held := s.intake.held
    compWh := s.intake.compWh, heaterWh := s.intake.heaterWh, samples := s.intake.samples }

/-- The condition that a record formed with a held or the default CV raises when its volume is above 0 (R37). -/
def raiseCv (r : Interval) (s : State) : State :=
  if r.volume = 0 then s
  else match r.source with
    | .latest => s
    | .held => raise .cvHeld 0 r.cv s
    | .default => raise .cvDefault 0 r.cv s

/-- The open interval closed: the record formed, the open interval emptied (R130). -/
def closeInterval (s : State) : Interval × State :=
  let r := intervalRecord s
  (r, raiseCv r (s.onIntake (fun i =>
    { i with volume := 0, compWh := 0, heaterWh := 0, latestCv := none
             hourSamples := satAdd top16 i.hourSamples i.samples, samples := 0 })))

/-! ### Order replies (R160) -/

/-- An ORDER_REPLY queued for a console (R160). -/
def replyTo (owner : Owner) (console command arg litres : Nat) (o : OrderOutcome) (s : State) : State :=
  enqueue (.reply { console := console, command := command, arg := arg, litres := litres, outcome := o }) owner s

/-- The reply to an order that had made a suspense record due (R129). -/
def replyDue (d : Due) (o : OrderOutcome) (s : State) : State := replyTo .other d.console d.command d.arg d.litres o s

/-! ### Suspense (R128, R129) -/

/-- The suspense record of a direction. -/
def Intake.suspense (i : Intake) : Flow → Option Suspense
  | .inject => i.suspInject
  | .withdraw => i.suspWithdraw

/-- The suspense record of a direction replaced. -/
def Intake.setSuspense (i : Intake) (f : Flow) (r : Option Suspense) : Intake :=
  match f with
  | .inject => { i with suspInject := r }
  | .withdraw => { i with suspWithdraw := r }

/-- The direction that a suspense event is taken for (R128). -/
def suspenseFlow (t : Train) : Flow :=
  match modeFlow t.mode with
  | some f => f
  | none => t.lastFlow.getD .inject

/-- A volume added to a record's volume: absent if either is absent, saturating (R128). -/
def addVolume (a b : Option Nat) : Option Nat :=
  match a, b with
  | some x, some y => some (satAdd top32 x y)
  | _, _ => none

/-- A span and a volume sent to suspense (R128). A due marking of the record lapses with the reply REFUSED_STATE
(R129). -/
def toSuspense (span : Nat) (volume : Option Nat) (s : State) : State :=
  let f := suspenseFlow s.train
  match s.intake.suspense f with
  | none =>
    s.onIntake (fun i => i.setSuspense f (some
      { openDay := s.clock.day, openSecond := s.clock.second, age := 0, span := span, volume := volume
        cv := (cvInForce s).1, snapshot := s.nom.confirmed }))
  | some r =>
    let t := s.onIntake (fun i => i.setSuspense f (some
      { r with span := satAdd top32 r.span span, volume := addVolume r.volume volume, due := none }))
    match r.due with
    | none => t
    | some d => replyDue d .refusedState t

/-- SUSPENSE_OLD for the record of a direction whose age has reached 86,400 s, once (R128). A due record whose age reaches it
at the second of the minute boundary that books it is booked and removed first, and raises none (assumption 68). -/
def suspenseOldTest (f : Flow) (s : State) : State :=
  match s.intake.suspense f with
  | none => s
  | some r =>
    if 86400 ≤ r.age ∧ r.oldRaised = false then
      raise .suspenseOld 0 (flowCode f) (s.onIntake (fun i => i.setSuspense f (some { r with oldRaised := true })))
    else s

/-- A due record booked with its own CV and snapshot, removed, and its order answered DONE (R52, R53, R130). `bed` is the
bed that was ADSORBING when the interval closed. -/
def bookSuspense (f : Flow) (bed : Option Bed) (s : State) : State :=
  match s.intake.suspense f with
  | none => s
  | some r =>
    match r.due with
    | none => s
    | some d =>
      let b := bookEnergy f d.book r.cv (bookingWeights f r.snapshot) bed s
      replyDue d .done (b.2.2.onIntake (fun i => i.setSuspense f none))

/-! ### Totalizers (R125 to R127, R131) -/

/-- The difference of a 32-bit totalizer that wraps (R125, R131). -/
def totalizerDiff (reading baseline : Nat) : Nat := (reading + 4294967296 - baseline % 4294967296) % 4294967296

/-- The plausibility limit (R126). -/
def plausibleLimit (qmax span : Nat) : Nat := qmax * max 1 span * 5 / 4

/-- A meter difference over a span taken: to the open interval, or to suspense (R126, R127). The span is the rules' s: that
of the baseline, or 1 when it is 0. The reply of a due marking that lapses stands before the condition (assumption 60). -/
def takeDifference (dv span : Nat) (restored : Bool) (s : State) : State :=
  if restored then
    (if dv = 0 then s else raise .restoreGap 0 dv (toSuspense span (some dv) s))
  else if plausibleLimit s.cfg.qmax span < dv ∨ top32 < s.intake.volume + dv then
    raise .meterImplausible 0 dv (toSuspense span (some dv) s)
  else
    let t := s.onIntake (fun i => { i with volume := i.volume + dv })
    if 1 < span then raise .meterGap 0 span t else t

/-- The meter reading of an accepted SAMPLE (R125, R127). The reply of a due marking that lapses stands before METER_RESET
(assumption 60). -/
def takeMeter (p : Sample) (s : State) : State :=
  let setBaseline (t : State) : State := t.onIntake (fun i =>
    match p.meter with
    | some x => { i with meter := { reading := some x, restoreMark := false }, meterSpan := 0 }
    | none => i)
  match p.totalizerReset, p.meter, s.intake.meter.reading with
  | true, some _, none => setBaseline s
  | true, none, none => s.onIntake (fun i => { i with meter := {} })
  | true, reading, some _ =>
    let span := s.intake.meterSpan
    let t := raise .meterReset 0 span (toSuspense span none s)
    match reading with
    | some _ => setBaseline t
    | none => t.onIntake (fun i => { i with meter := {} })
  | false, none, _ => s
  | false, some _, none => setBaseline s
  | false, some x, some b =>
    setBaseline (takeDifference (totalizerDiff x b) (max 1 s.intake.meterSpan) s.intake.meter.restoreMark s)

/-- A fuel totalizer's baseline and Wh sum after a reading (R131). -/
def takeFuel (reading : Option Nat) (b : Baseline) (wh : Nat) : Baseline × Nat :=
  match reading with
  | none => (b, wh)
  | some x =>
    match b.reading with
    | none => ({ reading := some x, restoreMark := b.restoreMark }, wh)
    | some y =>
      let d := totalizerDiff x y
      ({ reading := some x, restoreMark := false },
       if b.restoreMark then wh else if d < 2147483648 then wh + d else wh)

/-- Both fuel totalizers of an accepted SAMPLE (R131). -/
def takeFuels (p : Sample) (s : State) : State :=
  s.onIntake (fun i =>
    let c := takeFuel p.compFuel i.compFuel i.compWh
    let h := takeFuel p.heaterFuel i.heaterFuel i.heaterWh
    { i with compFuel := c.1, compWh := c.2, heaterFuel := h.1, heaterWh := h.2 })

/-! ### Taking a SAMPLE (R122) -/

/-- The sequence-gap count after a new sequence number (R122). -/
def gapAfter (gaps : Nat) (last : Option Nat) (new : Nat) : Nat :=
  match last with
  | none => gaps
  | some l => satAdd top16 gaps ((new + 511 - l % 256) % 256)

/-- The intake's own part of accepting a SAMPLE: sequence, field timer and field-lost flag, held values, lineup feedback
(R122 to R124). -/
def Intake.accept (i : Intake) (p : Sample) : Intake :=
  { i with sequenceGaps := gapAfter i.sequenceGaps i.lastSequence p.sequence
           lastSequence := some p.sequence
           fieldTimer := 0
           lateRaised := false
           fieldLost := false
           held := i.held.update p
           latestCv := match validCv p with
             | some v => some v
             | none => i.latestCv
           lineup := p.lineup
           samples := i.samples + 1 }

/-- A SAMPLE accepted (R122): the held values, its own CV among them, the end of HOLD, the compressor feedback, the
meter, the fuel totalizers, in this order (assumption 59). -/
def acceptSample (p : Sample) (s : State) : State :=
  let t := takeFeedback p.feedback (endHold (s.onIntake (·.accept p)))
  if t.train.mode = .config then t else takeFuels p (takeMeter p t)

/-- A SAMPLE on the field port: discarded for its check, discarded as a repeat, or accepted (R122). The Bool says that it
was accepted. -/
def takeSample (record : Option Sample) (s : State) : State × Bool :=
  match record with
  | none => (s.onIntake (fun i => { i with checkFailures := satAdd top16 i.checkFailures 1 }), false)
  | some p => if s.intake.lastSequence = some p.sequence then (s, false) else (acceptSample p s, true)

/-! ### Field timing (R124) -/

/-- FIELD_LATE at 3 s, once for each silence (R124). -/
def fieldLateTest (s : State) : State :=
  if 3 ≤ s.intake.fieldTimer ∧ s.intake.lateRaised = false then
    raise .fieldLate 0 3 (s.onIntake (fun i => { i with lateRaised := true }))
  else s

/-- FIELD_LOST at 30 s, once for each silence (R124, R65). When the timer reaches 30 s at the second of a minute boundary, the
minute work has come first (assumption 69). -/
def fieldLostTest (s : State) : State :=
  if 30 ≤ s.intake.fieldTimer ∧ s.intake.fieldLost = false then
    fieldLostMode (raise .fieldLost 0 30 (s.onIntake (fun i => { i with fieldLost := true })))
  else s

end Sys2Proof.Machine
end

