-- ==== Sys2Proof/Machine/Checkpoints.lean ====
section
/-! DEFINITION. The memory port (12_start_up_checkpoints_and_restore.md): the configuration check, the checkpoint ring,
writing, and what a restore takes from a checkpoint. -/

namespace Sys2Proof.Machine

open Sys2Proof (Flow Dir Bed Mode UnitState Byte)

/-! ### The configuration check (R163) -/

/-- Strictly increasing. -/
def rising : List Int → Bool
  | a :: b :: rest => decide (a < b) && rising (b :: rest)
  | _ => true

/-- A number within a range. -/
def within (low high x : Nat) : Bool := decide (low ≤ x) && decide (x ≤ high)

/-- A signed number within a range. -/
def withinInt (low high x : Int) : Bool := decide (low ≤ x) && decide (x ≤ high)

/-- No number stands twice. -/
def noRepeat : List Nat → Bool
  | [] => true
  | x :: rest => !(rest.contains x) && noRepeat rest

/-- The greatest 31-bit number. -/
def top31 : Nat := 2147483647

/-- A ratchet table that a configured shipper names: 2 to 8 breakpoints, rising fractions, every value at most 1000
(R19). -/
def RatchetTable.good (t : RatchetTable) : Bool :=
  within 2 8 t.count && rising (t.points.map (fun p => (p.1 : Int)))
    && t.points.all (fun p => decide (p.1 ≤ 1000) && decide (p.2 ≤ 1000))

/-- A shipper record: its rates and space in range, and when it is configured its tables among the eight and good
(R2, R19, R163). -/
def Image.shipperGood (m : Image) (r : ShipperRecord) : Bool :=
  decide (r.space < 2 ^ 47) && decide (r.ib ≤ top31) && decide (r.wb ≤ top31)
    && (decide (r.space = 0)
      || (decide (r.injectTable ≤ 7) && decide (r.withdrawTable ≤ 7)
        && (m.ratchets.getD r.injectTable {}).good && (m.ratchets.getD r.withdrawTable {}).good))

/-- The dryer figures in range (R103). -/
def DryerFigures.good (d : DryerFigures) : Bool :=
  within 1 top31 d.capacity && within 1 999 d.switchLevel && within (d.switchLevel + 1) 1000 d.breakthrough
    && withinInt (-400) 3000 d.heatTarget && withinInt (-400) 3000 d.coolTarget && decide (d.coolTarget < d.heatTarget)
    && within 1 1440 d.heatExpected && within 1 1440 d.coolExpected
    && within (max 1 d.heatExpected) 1440 d.heatMaximum && within (max 1 d.coolExpected) 1440 d.coolMaximum
    && withinInt (-400) 3000 d.dewHigh && decide (d.hysteresis ≤ 3) && within 1 100 d.hysteresisD
    && rising (d.waterTable.map (·.1))
    && d.waterTable.all (fun p => withinInt (-400) 3000 p.1 && decide (p.2 ≤ 1000000))

/-- The figures of a configuration block in their ranges and clear of the refusals (R163). -/
def Image.good (m : Image) : Bool :=
  within 1 24 m.expectedCount && m.expected.all (within 1 31) && noRepeat m.expected
    && within 1 31 m.timeSource && within 1 31 m.scheduling
    && decide (m.consoleCount ≤ 2) && m.consoles.all (within 1 31)
    && within 1 4 m.leadTime && within 1 top31 m.stationMax && within 1 top31 m.rampRate
    && within 5 60 m.dwellMinutes && within 1 1000000 m.qmax && within 1 200000 m.defaultCv
    && decide (m.rounding ≤ 1) && decide (m.pMax ≤ 25000) && decide (m.pMin < m.pMax)
    && within 1 25000 m.taper && within 60 25000 m.dpMax
    && m.capacity.all (fun p => within 1 65535 p.1 && decide (p.2 ≤ top31))
    && rising (m.capacity.map (fun p => (p.1 : Int)))
    && decide (m.margin ≤ 25000) && decide (m.band ≤ 25000) && decide (m.minRun ≤ 120) && decide (m.minStop ≤ 120)
    && decide (m.autoRestart ≤ 1) && m.dryer.good && m.shippers.all m.shipperGood

/-- Bytes whose last four are the 32-bit check of those before them (R170). -/
def sealedGood (bs : List Byte) : Bool :=
  decide (check32 (bs.take (bs.length - 4)) = bytesNat (bs.drop (bs.length - 4)))

/-- The configuration block read and checked: the image, or none when it fails its check or was not read (R163). -/
def readImage (unread : Bool) (e : ExternalMemory) : Option Image :=
  if unread then none
  else
    let bs := Memory.readBytes e.cells 0 blockBytes
    let m := codecImage.dec bs
    if sealedGood bs && m.good then some m else none

/-! ### Taking and writing a checkpoint (R165, R166) -/

/-- A history in its three places; the unused ones are zeros (assumption 44). -/
def saveHistory (l : List Nat) : SavedHistory := { count := l.length, places := (l ++ [0, 0, 0]).take 3 }

/-- A slot's nominations in their places; the unused ones are zeros (assumption 44). -/
def saveNominee (n : Nominee) : SavedNominee :=
  { current := n.current, count := n.pending.length, places := (n.pending ++ List.replicate 4 (0, 0)).take 4 }

/-- A bed record as stored; a timer of "none" is all ones (R170). -/
def saveBed (b : BedRecord) : SavedBed :=
  { state := bedStateCode b.state, loading := b.loading, waterCarry := b.waterCarry, passage := b.passage
    accumulator := b.accumulator, heaterCarry := b.heaterCarry, timer := b.phaseTimer.getD top32 }

/-- A suspense record as stored; its due marking is not (R129). The fields of an absent record or volume are zeros
(assumption 44). -/
def saveSuspense (r : Option Suspense) : SavedSuspense :=
  match r with
  | none => {}
  | some r => { present := true, openDay := r.openDay, openSecond := r.openSecond, age := r.age, span := r.span
                volumePresent := r.volume.isSome, volume := r.volume.getD 0, cv := r.cv, snapshot := r.snapshot }

/-- A baseline as stored; an absent reading is zero (assumption 44). -/
def saveBaseline (b : Baseline) : Bool × Nat := (b.reading.isSome, b.reading.getD 0)

/-- The checkpoint of a state, its stamp the standing gas day and hour (R165, R170). An empty closed-day set is stored as
it is held, with day 0 (assumption 43). -/
def checkpointOf (s : State) : Checkpoint :=
  { stampDay := s.clock.day, stampHour := s.clock.hour
    slots := s.acct.slots
    closedDay := s.acct.closedDay.getD 0, closedPresent := s.acct.closedDay.isSome, provisional := s.acct.provisional
    cursor := s.acct.cursor, closed := s.acct.closed
    carryInject := s.acct.carryInject, carryWithdraw := s.acct.carryWithdraw
    fuelCarry := s.comp.fuelCarry, idleCarry := s.dryer.idleCarry
    nominees := s.nom.shippers.map saveNominee, confirmed := s.nom.confirmed
    hourDir := dirCode s.nom.hourDir, target := s.nom.target
    bedA := saveBed s.dryer.bedA, bedB := saveBed s.dryer.bedB
    unit := unitCode s.comp.unit, starts := saveHistory s.comp.starts, trips := saveHistory s.comp.trips
    runTimer := s.comp.runTimer, stopTimer := s.comp.stopTimer
    suspInject := saveSuspense s.intake.suspInject, suspWithdraw := saveSuspense s.intake.suspWithdraw
    lastFlow := dirCode s.train.lastFlow
    meter := saveBaseline s.intake.meter, compFuel := saveBaseline s.intake.compFuel
    heaterFuel := saveBaseline s.intake.heaterFuel }

/-- A slot marked as one whose write has begun and has not ended with its check: it reads as invalid (R166). -/
def ExternalMemory.markUnfinished (e : ExternalMemory) (slot : Nat) : ExternalMemory :=
  { e with unfinished := if e.unfinished.contains slot then e.unfinished else slot :: e.unfinished }

/-- The slot of a write that has just started reads as invalid until the write ends (R166). Its bytes stand as they were
until then (assumption 5). -/
def beginWrite (s : State) : State :=
  if s.port.writing.isSome then s.onExt (·.markUnfinished (slotOfSeq s.port.nextSeq)) else s

/-- A checkpoint taken: its write starts, or it is held, replacing one already held (R166). -/
def takeCheckpoint (s : State) : State :=
  let c := checkpointOf s
  match s.port.writing with
  | none => beginWrite (s.onPort (fun p => { p with writing := some c }))
  | some _ => s.onPort (fun p => { p with waiting := some c })

/-- The write that starts when one has ended: the held checkpoint's, if there is one (R166). -/
def MemoryPort.writeNext (p : MemoryPort) : MemoryPort := { p with writing := p.waiting, waiting := none }

/-- The bytes of a slot whose write did not end with its check (R166). -/
def ExternalMemory.spoil (e : ExternalMemory) (slot : Nat) (bs : List Byte) : ExternalMemory :=
  ExternalMemory.markUnfinished { e with cells := Memory.writeBytes e.cells (slotAddress slot) bs } slot

/-- The free bytes of an abandoned write: how far it had gone is not stated (R166, assumption 5). -/
def partialBytes (draw : Nat) : List Byte := (List.range slotBytes).map (Config.partialByte draw)

/-- A write in progress abandoned or cut off: its slot is left invalid (R166). -/
def abandonWrite (s : State) : State :=
  { s.onExt (·.spoil (slotOfSeq s.port.nextSeq) (partialBytes s.freeDraws)) with freeDraws := s.freeDraws + 1 }

/-- The write in progress completed: the slot holds the checkpoint and its check, the cursor moves on, and a held
checkpoint's write starts (R164, R166). -/
def completeWrite (s : State) : State :=
  match s.port.writing with
  | none => s
  | some c =>
    let seq := s.port.nextSeq
    beginWrite ((s.onExt (fun e =>
      { cells := Memory.writeBytes e.cells (slotAddress (slotOfSeq seq)) (checkpointBytes seq c)
        unfinished := e.unfinished.filter (· != slotOfSeq seq) })).onPort
      (fun p => { p.writeNext with nextSeq := (seq + 1) % 4294967296 }))

/-- The memory failed to acknowledge a byte of the write in progress (R166). -/
def failWrite (s : State) : State :=
  match s.port.writing with
  | none => s
  | some _ =>
    raise .ckptFail 0 s.port.nextSeq (beginWrite ((abandonWrite s).onPort MemoryPort.writeNext))

/-! ### Reading the ring (R164) -/

/-- A checkpoint slot read: its sequence number and content when it is valid (R164). -/
def readSlot (unread : List Nat) (e : ExternalMemory) (n : Nat) : Option (Nat × Checkpoint) :=
  if unread.contains n || e.unfinished.contains n then none
  else
    let bs := Memory.readBytes e.cells (slotAddress n) slotBytes
    if sealedGood bs then some (bytesNat (bs.take 4), codecCheckpoint.dec (bs.drop 4)) else none

/-- The valid slot with the highest sequence number (R164); of two that hold the same one, the lower-numbered (DESIGN CHOICE,
assumption 73). -/
def newestSlot (unread : List Nat) (e : ExternalMemory) : Option (Nat × Checkpoint) :=
  ((List.range 24).filterMap (readSlot unread e)).foldl (fun best x => match best with
    | none => some x
    | some b => if x.1 > b.1 then some x else some b) none

/-! ### Restored values (R12, R18, R32, R38, R55, R85, R107, R133) -/

/-- A restored code in its range, or the free value in it (R164, assumption 4). -/
def restoredCode (tag count raw : Nat) : Nat := if raw < count then raw else Config.restoredCode tag raw % count

/-- A restored direction code. -/
def restoredDir (tag raw : Nat) : Dir := ((dirOfCode (restoredCode tag 3 raw)).getD none)

/-- A restored bed state code. -/
def restoredBedState (raw : Nat) : BedState :=
  match restoredCode tagBedState 5 raw with
  | 0 => .standby | 1 => .adsorbing | 2 => .heating | 3 => .cooling | _ => .out

/-- A restored carry outside its range is 0 (R38, R85, R107). -/
def restoredCarry (top v : Nat) : Nat := if v ≤ top then v else 0

/-- A restored energy carry outside the range of the rounding mode is 0 (R38). -/
def restoredEnergyCarry (round : Bool) (c : Int) : Int :=
  if round then (if -5000000 ≤ c ∧ c ≤ 4999999 then c else 0) else (if 0 ≤ c ∧ c ≤ 9999999 then c else 0)

/-- A restored bed record (R107). -/
def restoreBed (b : SavedBed) : BedRecord :=
  { state := restoredBedState b.state, loading := b.loading, waterCarry := restoredCarry 999999 b.waterCarry
    passage := b.passage, accumulator := b.accumulator, heaterCarry := restoredCarry 999 b.heaterCarry
    phaseTimer := if b.timer = top32 then none else some b.timer }

/-- A restored history (R85). -/
def restoreHistory (h : SavedHistory) : List Nat := h.places.take (restoredCode tagHistory 4 h.count)

/-- A restored slot's nominations; an unconfigured slot's are emptied (R18). A number out of its range is kept as read
(assumption 58). -/
def restoreNominee (configured : Bool) (n : SavedNominee) : Nominee :=
  if configured then { current := n.current, pending := n.places.take (restoredCode tagPending 5 n.count) } else {}

/-- A restored suspense record: no due marking (R129, R133); SUSPENSE_OLD has been raised for a record that is already
86,400 s old (R128). A number out of its range is kept as read (assumption 58). -/
def restoreSuspense (r : SavedSuspense) : Option Suspense :=
  if r.present then
    some { openDay := r.openDay, openSecond := r.openSecond, age := r.age, span := r.span
           volume := if r.volumePresent then some r.volume else none, cv := r.cv, snapshot := r.snapshot
           oldRaised := decide (86400 ≤ r.age) }
  else none

/-- A restored baseline has its restore mark set (R127, R131, R133). -/
def restoreBaseline (b : Bool × Nat) : Baseline :=
  if b.1 then { reading := some b.2, restoreMark := true } else {}

/-- The unit state after a reset (R85): LOCKOUT and TRIPPED are kept, every other becomes STOPPING. -/
def unitAfterReset : UnitState → UnitState
  | .lockout => .lockout
  | .tripped => .tripped
  | .stopped | .queued | .starting | .running | .stopping => .stopping

/-- A restored unit state code. -/
def restoredUnit (raw : Nat) : UnitState :=
  match restoredCode tagUnit 7 raw with
  | 0 => .stopped | 1 => .queued | 2 => .starting | 3 => .running | 4 => .stopping | 5 => .tripped | _ => .lockout

/-- The accounts that a checkpoint restores under an image (R2, R12, R38). -/
def restoreAccounts (m : Image) (c : Checkpoint) : Accounts :=
  { slots := (List.range 17).map (fun i =>
      let r := c.slots.getD i {}
      { r with spaceOver := r.spaceOver && m.configured i })
    carryInject := restoredEnergyCarry m.roundMode c.carryInject
    carryWithdraw := restoredEnergyCarry m.roundMode c.carryWithdraw
    closedDay := if c.closedPresent then some c.closedDay else none
    closed := c.closed
    provisional := c.provisional
    restoredTotals := true
    cursor := restoredCode tagCursor 18 c.cursor
    outstanding := false }

/-- The nominations that a checkpoint restores under an image; T is formed again (R18, R32). -/
def restoreNominations (m : Image) (c : Checkpoint) : Nominations :=
  let rates := (List.range 16).map (fun i => if m.configured (i + 1) then c.confirmed.getD i 0 else 0)
  { shippers := (List.range 16).map (fun i => restoreNominee (m.configured (i + 1)) (c.nominees.getD i {}))
    hourDir := restoredDir tagHourDir c.hourDir
    confirmed := rates
    target := magnitudes rates }

/-- The sequencer that a checkpoint restores (R85). -/
def restoreCompressor (c : Checkpoint) : Compressor :=
  let u := restoredUnit c.unit
  { unit := unitAfterReset u
    awaiting := decide (unitAfterReset u = .stopping)
    starts := restoreHistory c.starts
    trips := restoreHistory c.trips
    runTimer := c.runTimer
    stopTimer := if u = .starting ∨ u = .running then 0 else c.stopTimer
    fuelCarry := restoredCarry 999 c.fuelCarry }

/-- The dryer that a checkpoint restores (R107). -/
def restoreDryer (c : Checkpoint) : Dryer :=
  { bedA := restoreBed c.bedA, bedB := restoreBed c.bedB, idleCarry := restoredCarry 999 c.idleCarry }

/-- The intake that a checkpoint restores (R133). -/
def restoreIntake (c : Checkpoint) : Intake :=
  { meter := restoreBaseline c.meter, compFuel := restoreBaseline c.compFuel, heaterFuel := restoreBaseline c.heaterFuel
    suspInject := restoreSuspense c.suspInject, suspWithdraw := restoreSuspense c.suspWithdraw }

/-- A part with an image, restored from a checkpoint (R164); a stamp out of its range is kept as read (assumption 58). -/
def restoreFrom (m : Image) (seq : Nat) (c : Checkpoint) (s : State) : State :=
  { s with
    acct := restoreAccounts m c
    nom := restoreNominations m c
    train := { s.train with lastFlow := restoredDir tagLastFlow c.lastFlow }
    comp := restoreCompressor c
    dryer := restoreDryer c
    intake := restoreIntake c
    port := { s.port with nextSeq := (seq + 1) % 4294967296, stamp := some (c.stampDay, c.stampHour), catchUp := true
                          note := some (.old seq) } }

end Sys2Proof.Machine
end

