-- ==== Sys2Proof/Machine/Startup.lean ====
section
/-! DEFINITION. Resets and start-up: the reset tables of R12, R18, R23, R32, R38, R55, R72, R85, R107, R133, R143, R155,
R156 and R161, leaving CONFIG (R56, R150, R163, R164), and the loss of power (R166). -/

namespace Sys2Proof.Machine

open Sys2Proof (Flow Dir Bed Mode UnitState Instr)

/-! ### Leaving CONFIG (R56) -/

/-- The test for leaving CONFIG: an image whose check passed, and a station number from 1 to 31 on its expected-train list
(R56). -/
def State.mayLeaveConfig (s : State) : Bool :=
  s.port.image.isSome && decide (1 ≤ s.station) && decide (s.station ≤ 31) && s.cfg.expected.contains s.station

/-- The restore condition raised once the image is in force (R164). -/
def raiseRestore (s : State) : State :=
  let t := s.onPort (fun p => { p with note := none })
  match s.port.note with
  | none => t
  | some (.old seq) => raise .restoreOld 0 seq t
  | some .nothing => raise .restoreNone 0 0 t

/-- The SETPOINT fields handed as the blocks' states stand, with the first SETPOINT requested (R71, R107, R132). -/
def firstSetpoint (s : State) : State := requestSetpoint (s.onIntake (fun i => { i with handed := currentFields s }))

/-- The part leaves CONFIG when the test lets it, for LISTEN, or for SHUT_IN when the train is kept shut in: the restore
condition, the JOIN set up, the first SETPOINT (R55, R56, R150). -/
def leaveConfig (shutIn : Bool) (s : State) : State :=
  if s.mayLeaveConfig then
    let t := s.onTrain (fun c => { c with mode := if shutIn then .shutIn else .listen })
    let t := raiseRestore t
    let t := t.onLink (fun l => { l with state := .joining, join := .waiting })
    let t := firstSetpoint t
    if shutIn then t else enterListen t
  else s

/-! ### Power-on reset (R163, R164) -/

/-- The peer tables after a reset: a cleared record for every peer train, an empty copy (R23, R72, R91). -/
def freshPeers (stations : List Nat) : Peers :=
  { view := stations.map (fun n => { station := n }), offers := stations.map (fun n => { station := n }) }

/-- The write in progress, if any, cut off with the supply (R166). -/
def cutWrite (s : State) : State := if s.port.writing.isSome then abandonWrite s else s

/-- What outlasts the loss of the supply: the external memory. Every block is at its power-on value for "no checkpoint
slot valid"; the pins, the command queue and the model's draw counter stand outside the blocks. -/
def blank (s : State) (powered : Bool) (straps : Nat) : State :=
  let t := cutWrite s
  { State.reset with
    powered := powered, straps := straps, station := straps, ext := t.ext, freeDraws := t.freeDraws, pending := s.pending }

/-- The ring read and the newest valid slot restored, under the image in force (R164). -/
def restoreRing (m : Image) (slotsUnread : List Nat) (s : State) : State :=
  match newestSlot slotsUnread s.ext with
  | some (seq, c) => restoreFrom m seq c s
  | none => s.onPort (fun p => { p with note := some .nothing })

/-- The power-on reset (R163). -/
def powerOn (straps : Nat) (blockUnread : Bool) (slotsUnread : List Nat) (s : State) : State :=
  let s := blank s true straps
  match readImage blockUnread s.ext with
  | none => s
  | some m =>
    let s := s.onPort (fun p => { p with image := some m })
    let s := s.onPeers (fun _ => freshPeers s.peerStations)
    handAll (leaveConfig false (restoreRing m slotsUnread s))

/-! ### Line reset (R163) -/

/-- The train mode controller after a line reset, in CONFIG until the test of R56 (R55, R63, R72). -/
def Train.lineReset (now : Nat) (t : Train) : Train :=
  { lastFlow := t.lastFlow
    dwell := if t.mode = .reversing ∧ t.phase = some .ramp then some now else t.dwell }

/-- The sequencer after a line reset (R85). -/
def Compressor.lineReset (c : Compressor) : Compressor :=
  { unit := unitAfterReset c.unit
    awaiting := decide (unitAfterReset c.unit = .stopping)
    starts := c.starts
    trips := c.trips
    runTimer := c.runTimer
    stopTimer := if c.unit = .starting ∨ c.unit = .running then 0 else c.stopTimer
    fuelCarry := c.fuelCarry }

/-- A suspense record without its due marking (R129). -/
def Suspense.notDue (r : Suspense) : Suspense := { r with due := none }

/-- The intake after a line reset (R133). -/
def Intake.lineReset (i : Intake) : Intake :=
  { i with held := {}, latestCv := none, lastSequence := none, fieldTimer := 0, lateRaised := false, fieldLost := false
           lineup := none, suspInject := i.suspInject.map Suspense.notDue
           suspWithdraw := i.suspWithdraw.map Suspense.notDue, sending := none, sendAgain := false }

/-- The link controller after a line reset (R155). A restart is pending no more (assumption 70). -/
def Link.lineReset (l : Link) : Link :=
  { haltSet := l.haltSet, receiveErrors := l.receiveErrors, discards := l.discards, nextTicket := l.nextTicket }

/-- Every block after a line reset, the train in CONFIG until the test of R56. -/
def lineResetBlocks (s : State) : State :=
  let s := { s with station := s.straps }
  { s with
    clock := { s.clock with refused := none }
    acct := { s.acct with outstanding := false }
    peers := freshPeers s.peerStations
    train := s.train.lineReset s.clock.index
    comp := s.comp.lineReset
    intake := s.intake.lineReset
    link := s.link.lineReset }

/-- The line reset with the strap pins as they stand (R55, R163). -/
def lineReset (s : State) : State :=
  handAll (leaveConfig (decide (s.train.mode = .shutIn)) (lineResetBlocks s))

/-- The line reset of a pending restart: given when its reply has left the transmit queue, or when the link is no longer
ACTIVE (R161). -/
def settleRestart (s : State) : State :=
  if s.link.restartPending
      ∧ (s.link.state ≠ .active ∨ s.link.queue.any (fun e => decide (e.owner = .restart)) = false) then lineReset s
  else s

/-- What ends every event: the owners hand their changed SETPOINT fields, and a pending restart is given its reset when it
is due (R71, R88, R106, R161). A reply that leaves the queue in the middle of an event gives it at the event's end
(assumption 57). -/
def finish (s : State) : State := settleRestart (handAll s)

/-- An event in a part that has its supply; without it nothing happens (R166). -/
def whilePowered (f : State → State) (s : State) : Host.Outcome State Fault Refusal :=
  .next (if s.powered then f s else s)

/-! ### The commands -/

/-- POWER_ON_RESET (R163, R164). -/
def execPowerOnReset (straps : Nat) (blockUnread : Bool) (slotsUnread : List Nat) (s : State) :
    Host.Outcome State Fault Refusal :=
  .next (powerOn straps blockUnread slotsUnread s)

/-- LINE_RESET (R163): the RESET input, with the strap pins' number. -/
def execLineReset (straps : Nat) (s : State) : Host.Outcome State Fault Refusal :=
  whilePowered (fun s => lineReset { s with straps := straps }) s

/-- POWER_LOSS (R166): the working memory is lost, a write in progress leaves its slot invalid. -/
def execPowerLoss (s : State) : Host.Outcome State Fault Refusal :=
  .next (if s.powered then blank s false s.straps else s)

/-- CHECKPOINT_WRITE_DONE (R166). -/
def execCheckpointWriteDone (s : State) : Host.Outcome State Fault Refusal := whilePowered completeWrite s

/-- CKPT_FAIL (R166). -/
def execCkptFail (s : State) : Host.Outcome State Fault Refusal := whilePowered (fun s => finish (failWrite s)) s

end Sys2Proof.Machine
end

