-- ==== Sys2Proof/Machine/SiteClock.lean ====
section
/-! DEFINITION. The site clock (09_site_clock_and_gas_day.md), the boundary instant that its events form, and the hour's
reports (R27, R136, R162, R167). -/

namespace Sys2Proof.Machine

open Sys2Proof (Flow Dir Bed Mode)

/-! ### The hour's telegrams (R27, R28, R162) -/

/-- The inventories of one INVT half as they stand (R27). -/
def halfInventories (half : Nat) (s : State) : List Int :=
  (List.range 8).map (fun i => s.inventory ((half - 1) * 8 + i + 1))

/-- One INVT half queued, with the standing day and hour as its stamp (R27, R28). -/
def queueInvt (half : Nat) (s : State) : State :=
  enqueue (.invt half s.clock.day s.clock.hour (halfInventories half s)) .other s

/-- Both INVT halves queued, half 1 first (R27, R28). -/
def queueInvts (s : State) : State := queueInvt 2 (queueInvt 1 s)

/-- The HOURLY report as the state stands (R162). -/
def hourlyOf (s : State) : HourlyReport :=
  { mode := s.train.mode, hourDir := s.nom.hourDir, day := s.clock.day, hour := s.clock.hour, target := s.nom.target
    injected := s.mon.sumInjected, withdrawn := s.mon.sumWithdrawn, compFuel := s.mon.sumCompFuel
    heater := s.mon.sumHeater
    rates := s.nom.confirmed.map (fun r => r.natAbs * 1000 / s.nom.target)
    summary := s.mon.summary, sticky := s.mon.sticky
    counts := [s.intake.checkFailures, s.intake.sequenceGaps, s.intake.hourSamples, s.link.receiveErrors,
      s.link.discards] }

/-- The HOURLY report queued, or refused, and the four sums and five counts zeroed (R162). -/
def hourlyReport (s : State) : State :=
  let t := enqueue (.hourly (hourlyOf s)) .other s
  ((t.onMon (fun m => { m with sumInjected := 0, sumWithdrawn := 0, sumCompFuel := 0, sumHeater := 0 })).onIntake
    (fun i => { i with checkFailures := 0, sequenceGaps := 0, hourSamples := 0 })).onLink
    (fun l => { l with receiveErrors := 0, discards := 0 })

/-! ### The boundary instant (R136) -/

/-- The minute's metering: the interval record, F, the interval booking, the due suspense bookings, the dryer's minute
work (R33, R34, R101, R108, R130). -/
def meterMinute (s : State) : Interval × State :=
  let c := closeInterval s
  let bed := c.2.dryer.adsorbing
  let f := formFuel c.1.compWh c.2.comp.fuelCarry
  let s := c.2.onComp (fun x => { x with fuelCarry := f.2 })
  let s := bookInterval c.1.volume c.1.cv f.1 s
  let s := bookSuspense .withdraw bed (bookSuspense .inject bed s)
  (c.1, dryerMinute c.1 s)

/-- The hour's work of the nomination unit (R16, R30, R31). -/
def nominationHour (s : State) : State := confirmHour (bringIntoEffect s)

/-- The minute's work of the sequencer and the mode controller on the interval record (R58, R86, R89). -/
def trainMinute (r : Interval) (s : State) : State :=
  sequencerReact (modeMinute r (sequencerReact (sequencerMinute r s)))

/-- The hour's work of the memory port, the peer tables and the condition monitor (R27, R162, R165). -/
def reportHour (s : State) : State := hourlyReport (queueInvts (takeCheckpoint s))

/-- One boundary instant: a minute boundary, with an hour boundary and a day boundary (its ending day) when they coincide
(R136). The order of the blocks is the one that their own rules ask for (assumption 7). In CONFIG no interval record is
formed and only the nomination unit and the account table act (R6, R16, R30, R130, R165, R162). -/
def boundary (hour : Bool) (endingDay : Option Nat) (s : State) : State :=
  let close (t : State) : State := match endingDay with
    | some d => closeDay d t
    | none => t
  let nominate (t : State) : State := if hour then nominationHour t else t
  if s.train.mode = .config then nominate (close s)
  else
    let m := meterMinute s
    let t := trainMinute m.1 (nominate (close m.2))
    if hour then reportHour t else t

/-! ### Advancing (R135) -/

/-- The standing time one second on (R135). -/
def Clock.advance (c : Clock) : Clock :=
  if c.second = 86399 then { c with second := 0, day := (c.day + 1) % 65536 } else { c with second := c.second + 1 }

/-- A bed's phase timer one second on (R104). -/
def BedRecord.tick (b : BedRecord) : BedRecord := { b with phaseTimer := b.phaseTimer.map (· + 1) }

/-- The counts that take an advanced second: the sequencer's, the head age, the phase timers except in CONFIG, the
intake's (R84, R91, R104, R123, R135). -/
def countAdvanced (s : State) : State :=
  { s with
    comp := s.comp.tick (decide (s.train.demand = 0))
    peers := { s.peers with headAge := if s.peers.startQueue.isEmpty then 0 else s.peers.headAge + 1 }
    dryer := if s.train.mode = .config then s.dryer
      else { s.dryer with bedA := s.dryer.bedA.tick, bedB := s.dryer.bedB.tick }
    intake := s.intake.tick }

/-- The boundary events of an advance, raised by a synchronized clock at a multiple of 60 (R136). -/
def raiseAdvance (dayBefore : Nat) (s : State) : State :=
  if s.clock.synced ∧ s.clock.second % 60 = 0 then
    boundary (decide (s.clock.second % 3600 = 0)) (if s.clock.second = 0 then some dayBefore else none) s
  else s

/-- A second of the time base: absorbed into the hold-back, or advanced (R135, R136, R139). At a minute boundary its work is
done here, so a timer that reaches its mark at that second finds it done: SUSPENSE_OLD and the booking of its record
(assumption 68), FIELD_LOST and the other timers (assumption 69), a phase timer (assumption 54). -/
def takeSecond (s : State) : State :=
  if 0 < s.clock.holdBack then
    (s.onClock (fun c => { c with holdBack := c.holdBack - 1 })).onIntake Intake.tick
  else
    raiseAdvance s.clock.day (countAdvanced (s.onClock Clock.advance))

/-! ### TIME telegrams (R137 to R141) -/

/-- The times heard of the peer offer entries moved by a step (R78). -/
def PeerOffer.move (d : Int) (e : PeerOffer) : PeerOffer :=
  { e with entry := e.entry.map (fun o => { o with heard := moveIndex o.heard d }) }

/-- The standing time moved by a step of d seconds; the peer offers' times heard and the JOIN time move by it, the start
of a running dwell only by a backward step (R54, R57, R78, R138). -/
def stepClock (d : Int) (s : State) : State :=
  { s with
    clock := s.clock.setIndex (moveIndex s.clock.index d)
    peers := { s.peers with offers := s.peers.offers.map (PeerOffer.move d) }
    train := { s.train with
      joinTime := s.train.joinTime.map (moveIndex · d)
      dwell := if d < 0 then s.train.dwell.map (moveIndex · d) else s.train.dwell } }

/-- The boundary events of a forward step that crosses a minute boundary (R140); `second` and `day` are those before the
step. -/
def raiseStep (second day : Nat) (d : Int) (s : State) : State :=
  boundary (decide (3600 ≤ (second % 3600 : Nat) + d)) (if 86400 ≤ (second : Int) + d then some day else none) s

/-- A TIME whose difference is taken (R138, R141). -/
def applyDifference (d : Int) (s : State) : State :=
  let m := s.clock.second % 60
  let settle (hold : Nat) (t : State) : State := t.onClock (fun c => { c with holdBack := hold, refused := none })
  if 0 ≤ d then
    let t := settle 0 (stepClock d s)
    if 60 ≤ (m : Int) + d then raiseStep s.clock.second s.clock.day d t else t
  else if -d ≤ (m : Int) then settle 0 (stepClock d s)
  else settle d.natAbs s

/-- A TIME whose difference is refused, with the record after it (R141). -/
def refuseStep (d : Int) (record : Nat × Int) (s : State) : State :=
  raise .clockStep 0 d (s.onClock (fun c => { c with refused := some record }))

/-- A large difference by the refused-step record (R141). -/
def largeStep (d : Int) (s : State) : State :=
  match s.clock.refused with
  | none => refuseStep d (1, d) s
  | some (n, e) =>
    if (d - e).natAbs ≤ 2 then
      (if n = 1 then refuseStep d (2, e) s else applyDifference d s)
    else refuseStep d (1, d) s

/-- The catch-up at the first synchronization after a restore (R167). -/
def catchUp (s : State) : State :=
  if s.port.catchUp then
    let t := s.onPort (fun p => { p with catchUp := false })
    match s.port.stamp with
    | none => t
    | some (day, hour) =>
      if 0 < hourDistance (hourIndex day hour) s.clock.hourIndex then
        boundary true (if s.clock.day = day then none else some day) t
      else t
  else s

/-- The adoption of a time by an unsynchronized clock, with its reports (R137). The mode that the test of LISTEN leaves is
handed before the catch-up's boundary instant (R71, assumption 64). -/
def adoptTime (day second : Nat) (s : State) : State :=
  let d := secondDifference s.clock.index (day * 86400 + second)
  let t := { s with
    clock := { s.clock with day := day, second := second, synced := true, refused := none }
    peers := { s.peers with offers := s.peers.offers.map (PeerOffer.move d) }
    train := { s.train with joinTime := s.train.joinTime.map (moveIndex · d) } }
  catchUp (handMode (listenTest t))

/-- A TIME taken by the site clock (R137). -/
def takeTime (day second : Nat) (s : State) : State :=
  if 86399 < second then s
  else if s.clock.synced = false then adoptTime day second s
  else
    let d := secondDifference s.clock.index (day * 86400 + second)
    if d.natAbs ≤ 3600 then applyDifference d s else largeStep d s

/-! ### The commands -/

/-- CLOCK_SECOND (R135, R136). -/
def execClockSecond (s : State) : Host.Outcome State Fault Refusal := whilePowered (fun s => finish (takeSecond s)) s

/-- HOLD_BACK_RUN_OUT (R139): the hold-back stands at 0, and the clock advances again with the next second. The last
absorbed second has already taken it to 0 (R135), so nothing more changes. -/
def execHoldBackRunOut (s : State) : Host.Outcome State Fault Refusal := whilePowered (fun s => s) s

end Sys2Proof.Machine
end

