-- ==== Sys2Proof/Machine/Link.lean ====
section
/-! DEFINITION. The link controller (10_the_station_link.md): the receive filters, sending and the echo, the link states,
the halt set, and what the peer tables take from a telegram; with them the DAY report cursor (R9). -/

namespace Sys2Proof.Machine

open Sys2Proof (Flow Dir Bed Mode)

/-! ### Link states (R150 to R152) -/

/-- What stood on the line stands waiting again, its mismatch count unchanged (R145, R151, R152). -/
def Entry.halted (e : Entry) : Entry := { e with onLine := false }

/-- The link taken out of service: nothing is on the line and no JOIN is held (R151, R152). -/
def Link.quit (l : Link) (st : LinkState) : Link :=
  { l with state := st, join := .absent, queue := l.queue.map Entry.halted }

/-- Entry into FAULT; the value is 1 after JOIN failures, 2 for a line held busy (R79, R151). The condition is raised before
the sequencer reacts (assumption 56). -/
def enterFault (value : Int) (s : State) : State :=
  sequencerReact (raise .linkFault 0 value (lowerOffer (s.onLink (·.quit .fault))))

/-- A telegram under the part's own number that is not its echo: SILENT from any state, once (R79, R152). Behind a send
broken off by a mismatch it takes the place of the mismatch count, which stays (R145, assumption 41). The condition is
raised before the sequencer reacts (assumption 56). -/
def takeDuplicate (kind : Nat) (s : State) : State :=
  if s.link.state = .silent then s
  else sequencerReact (raise .dupStation 0 kind (lowerOffer (s.onLink (·.quit .silent))))

/-! ### The receive filters (R149) -/

/-- The receive-error count grown (R149). -/
def countReceiveError (s : State) : State :=
  s.onLink (fun l => { l with receiveErrors := satAdd top16 l.receiveErrors 1 })

/-- The destination is all stations or this part's (R149). -/
def State.addressed (s : State) (dst : Nat) : Bool := decide (dst = 0) || decide (dst = s.station)

/-- A telegram other than HALT and RESUME that has come whole off the line: ignored in CONFIG; else by its source and
destination, then passed to its block when its source is recognised, or discarded and counted (R149). What is ignored or
counted hands nothing on. -/
def filterTelegram (src dst kind : Nat) (recognised : State → Bool) (take : State → State) (s : State) : State :=
  if s.train.mode = .config then s
  else if src = 0 then countReceiveError s
  else if src = s.station then finish (takeDuplicate kind s)
  else if s.addressed dst = false then s
  else if recognised s then finish (take s)
  else countDiscard s

/-- A HALT or RESUME: taken from any station, in every train mode; under the part's own number it is a duplicate's, in
CONFIG too (R149, R152, R153, assumption 12). -/
def filterHalt (src dst kind : Nat) (take : State → State) (s : State) : State :=
  if src = 0 then (if s.train.mode = .config then s else countReceiveError s)
  else if src = s.station then finish (takeDuplicate kind s)
  else if s.addressed dst = false then s
  else finish (take s)

/-- A station of the expected-train list (R149). -/
def fromTrain (src : Nat) (s : State) : Bool := s.cfg.expected.contains src

/-- A telegram's command in a part that has its supply (R149). -/
def received (src dst kind : Nat) (recognised : State → Bool) (take : State → State) (s : State) :
    Host.Outcome State Fault Refusal :=
  whilePowered (filterTelegram src dst kind recognised take) s

/-! ### What the peer tables take (R24, R78, R81, R154) -/

/-- The diverge mark after an OFFER with this site target, `before` being the mark it meets (R81); the Bool beside it
says that TARGET_DIVERGE is raised. -/
def divergeAfter (s : State) (target : Nat) (before : Bool) : Bool × Bool :=
  if s.clock.synced = false ∨ s.train.mode = .config ∨ s.clock.second % 3600 < 60 then (before, false)
  else (decide (target ≠ s.nom.target), decide (target ≠ s.nom.target) && !before)

/-- The diverge mark of a station's entry; clear while the entry is empty (R81). -/
def Peers.divergeMark (p : Peers) (station : Nat) : Bool :=
  p.offers.any (fun e => e.station == station && e.entry.any (·.diverge))

/-- A station's entry of the peer offer table replaced (R78). -/
def Peers.setOffer (p : Peers) (station : Nat) (entry : Option HeardOffer) : Peers :=
  { p with offers := p.offers.map (fun e => if e.station = station then { e with entry := entry } else e) }

/-- An OFFER of a peer taken (R78, R81). -/
def takeOffer (src dir offer target : Nat) (s : State) : State :=
  match dirOfCode dir with
  | none => s
  | some d =>
    let mark := divergeAfter s target (s.peers.divergeMark src)
    let t := s.onPeers (·.setOffer src (some
      { dir := d, offer := offer, target := target, heard := s.clock.index, diverge := mark.1 }))
    if mark.2 then raise .targetDiverge 0 src t else t

/-- A half record of a peer replaced, its heard flag set; any other half number changes nothing (R24). -/
def PeerView.hear (half : Nat) (inventories : List Int) (v : PeerView) : PeerView :=
  match half with
  | 1 => { v with half1 := some inventories }
  | 2 => { v with half2 := some inventories }
  | _ => v

/-- An INVT of a peer taken; a view that has become complete is told to the mode controller. Any half number but 1 and 2
changes nothing (R24, R57). -/
def takeInvt (src half : Nat) (inventories : List Int) (s : State) : State :=
  if half = 1 ∨ half = 2 then
    sequencerReact (listenTest (s.onPeers (fun p =>
      { p with view := p.view.map (fun v => if v.station = src then v.hear half inventories else v) })))
  else s

/-- A JOIN of another station taken (R28, R78, R82, R92, R154). The INVT halves are queued before the OFFER (assumption 46),
and the OFFER carries the unit state after the removal from the copy (assumption 47). A CLAIM that the removal makes wanted
(R89, R90) is queued after all three (DESIGN CHOICE, assumption 65). -/
def takeJoin (src : Nat) (s : State) : State :=
  sequencerReact (queueOffer (queueInvts ((removeFromCopy src s).onPeers (·.setOffer src none))))

/-! ### The halt set (R153) -/

/-- The train shut in when it is not in SHUT_IN or CONFIG (R66). Its OFFER is queued before the sequencer reacts
(assumption 47). -/
def shutIn (s : State) : State :=
  if s.train.mode = .config ∨ s.train.mode = .shutIn then s else sequencerReact (enterShutIn s)

/-- A HALT taken into the halt set (R66, R153). -/
def takeHalt (src : Nat) (s : State) : State :=
  if s.link.haltSet.contains src then s
  else
    let t := s.onLink (fun l => { l with haltSet := l.haltSet ++ [src] })
    if s.link.haltSet.isEmpty then shutIn t else t

/-- A RESUME taken out of the halt set (R153). -/
def takeResume (src : Nat) (s : State) : State :=
  s.onLink (fun l => { l with haltSet := l.haltSet.filter (· != src) })

/-! ### Sending (R145, R150, R151) -/

/-- A telegram of the part is on the line (R145). -/
def Link.sending (l : Link) : Bool := decide (l.join = .onLine) || l.queue.any (·.onLine)

/-- The first waiting entry put on the line (R145). -/
def startFirst : List Entry → List Entry
  | [] => []
  | e :: rest => { e with onLine := true } :: rest

/-- What the link controller offers at an idle line goes onto the line: in ACTIVE the first waiting entry, in JOINING and
FAULT the JOIN that waits, in SILENT nothing (R145, R150 to R152). -/
def Link.start (l : Link) : Link :=
  if l.sending then l
  else match l.state with
    | .active => { l with queue := startFirst l.queue }
    | .joining | .fault => if l.join = .waiting then { l with join := .onLine } else l
    | .silent => l

/-- Lost arbitration: what was on the line waits again at its own place, uncounted (R144, R145, R150, R151). -/
def Link.lose (l : Link) : Link :=
  { l with join := if l.join = .onLine then .waiting else l.join, queue := l.queue.map Entry.halted }

/-- The entry on the line. -/
def Link.onLineEntry (l : Link) : Option Entry := l.queue.find? (·.onLine)

/-- The report cursor after a completed send: the next slot that gets a report, or finished (R9). -/
def cursorAfter (m : Image) (cursor : Nat) : Nat := (reportSlots m (cursor + 1)).headD 17

/-- The owner of an entry told that its send is complete (R9, R90, R95, R145). -/
def tellSent (e : Entry) (s : State) : State :=
  match e.owner, e.telegram with
  | .dayCursor, _ => s.onAcct (fun a => { a with outstanding := false, cursor := cursorAfter s.cfg a.cursor })
  | .sequencer, .claim => ownClaimEcho s
  | .sequencer, .cede => ownCedeEcho s
  | _, _ => s

/-- The JOIN's echo has come back intact: ACTIVE, and the completed JOIN is told to the mode controller (R57, R150,
R151). -/
def joinDone (s : State) : State :=
  listenTest ((s.onLink (fun l => { l with state := .active, join := .absent, joinFailures := 0 })).onTrain
    (fun t => { t with joinTime := some s.clock.index }))

/-- An intact echo (R145). -/
def echoIntact (s : State) : State :=
  if s.link.join = .onLine then sequencerReact (joinDone s)
  else match s.link.onLineEntry with
    | none => s
    | some e => sequencerReact (tellSent e (s.onLink (·.remove e)))

/-- The JOIN broken off in a mismatch: the third failure in JOINING leads to FAULT; in FAULT the wait starts again (R150,
R151). -/
def joinMismatch (s : State) : State :=
  match s.link.state with
  | .joining =>
    let t := s.onLink (fun l => { l with join := .waiting, joinFailures := l.joinFailures + 1 })
    if 3 ≤ t.link.joinFailures then enterFault 1 t else t
  | .active | .fault | .silent => s.onLink (fun l => { l with join := .absent })

/-- An entry back to waiting with its mismatch count grown (R145). -/
def Link.mismatch (l : Link) (e : Entry) : Link :=
  { l with queue := l.queue.map (fun x => if x.ticket = e.ticket then
      { x with onLine := false, mismatches := x.mismatches + 1 } else x) }

/-- An entry out of the queue after its sixteenth mismatch: its owner is told, TX_FAIL is raised, and a CEDE whose entry
still stands in the copy is queued again, behind the condition's report (R95, R145, assumption 56). -/
def failEntry (e : Entry) (s : State) : State :=
  let t := raise .txFail 0 (telegramKind e.telegram) (tellUnsent e.owner e.telegram (s.onLink (·.remove e)))
  if e.telegram = .cede ∧ t.peers.startQueue.contains t.station then queueCede t else t

/-- The part's own broken-off telegram, received with a check that fails; in CONFIG nothing is counted (R149). -/
def countBrokenEcho (s : State) : State := if s.train.mode = .config then s else countReceiveError s

/-- An echo mismatch that no telegram under the part's own number followed (R145, R150, R151, assumption 41). The returning
copy has failed its check, so it grows the receive-error count too (R149). -/
def echoMismatch (s : State) : State :=
  if s.link.join = .onLine then joinMismatch (countBrokenEcho s)
  else match s.link.onLineEntry with
    | none => s
    | some e =>
      let t := countBrokenEcho s
      if 16 ≤ e.mismatches + 1 then sequencerReact (failEntry e t) else t.onLink (·.mismatch e)

/-- The line has been held dominant (R151). -/
def lineHeld (s : State) : State :=
  if s.train.mode = .config then s
  else match s.link.state with
    | .joining | .active => enterFault 2 s
    | .fault | .silent => s

/-- The line has been idle for 1 s in FAULT: a JOIN is set up (R151). -/
def Link.recover (l : Link) : Link :=
  if l.state = .fault ∧ l.join = .absent then { l with join := .waiting } else l

/-! ### The DAY report cursor (R9) -/

/-- The DAY report of a slot, copied from the closed-day set (R9). -/
def dayReportOf (s : State) (slot : Nat) : DayReport :=
  let r := s.acct.closed.getD slot {}
  { day := s.acct.closedDay.getD 0, slot := slot
    shipper := if slot = 0 then 0 else (s.cfg.shipper slot).code
    totals := r.totals, inventory := r.inventory, spaceOver := r.spaceOver, provisional := s.acct.provisional }

/-- The DAY report of the slot the cursor stands on queued, and marked outstanding if it entered. -/
def queueDayReport (slot : Nat) (s : State) : State :=
  let t := s.onAcct (fun a => { a with cursor := slot })
  match fateOf t.link (.day (dayReportOf t slot)) with
  | .entered => (enqueue (.day (dayReportOf t slot)) .dayCursor t).onAcct (fun a => { a with outstanding := true })
  | .replaced | .evicting _ | .refused | .dropped => enqueue (.day (dayReportOf t slot)) .dayCursor t

/-- The next DAY report queued when the three conditions hold (R9). -/
def dayReportStep (s : State) : State :=
  if s.train.mode ≠ .config ∧ s.acct.outstanding = false ∧ s.link.occupancy ≤ 5 then
    match reportSlots s.cfg s.acct.cursor with
    | [] => s.onAcct (fun a => { a with cursor := 17 })
    | slot :: _ => queueDayReport slot s
  else s

/-! ### The commands -/

/-- DAY_REPORT_QUEUE (R9). -/
def execDayReportQueue (s : State) : Host.Outcome State Fault Refusal :=
  whilePowered (fun s => finish (dayReportStep s)) s

/-- TIME (R137, R149), from the configured time source. -/
def execTime (src dst day second : Nat) (s : State) : Host.Outcome State Fault Refusal :=
  received src dst 1 (fun s => decide (src = s.cfg.timeSource)) (takeTime day second) s

/-- NOMS (R14, R149), from the configured scheduling station. -/
def execNoms (src dst slot day hour : Nat) (rate : Int) (s : State) : Host.Outcome State Fault Refusal :=
  received src dst 2 (fun s => decide (src = s.cfg.scheduling)) (takeNomination slot day hour rate) s

/-- OFFER (R78, R81, R149). The peer tables keep neither the share nor the mode and unit state codes. -/
def execOffer (src dst dir offer _share target _mode _unit : Nat) (s : State) : Host.Outcome State Fault Refusal :=
  received src dst 3 (fromTrain src) (takeOffer src dir offer target) s

/-- INVT (R24, R149). The peer tables do not keep the stamp. -/
def execInvt (src dst half _day _hour : Nat) (inventories : List Int) (s : State) : Host.Outcome State Fault Refusal :=
  received src dst 10 (fromTrain src) (takeInvt src half inventories) s

/-- CLAIM (R91, R149). -/
def execClaim (src dst : Nat) (s : State) : Host.Outcome State Fault Refusal :=
  received src dst 6 (fromTrain src) (takeClaim src) s

/-- CEDE (R92, R149). -/
def execCede (src dst : Nat) (s : State) : Host.Outcome State Fault Refusal :=
  received src dst 7 (fromTrain src) (fun s => sequencerReact (removeFromCopy src s)) s

/-- JOIN (R149, R154), from any station. -/
def execJoin (src dst : Nat) (s : State) : Host.Outcome State Fault Refusal :=
  received src dst 4 (fun _ => true) (takeJoin src) s

/-- HALT (R66, R153). The reason code is not kept. -/
def execHalt (src dst _reason : Nat) (s : State) : Host.Outcome State Fault Refusal :=
  whilePowered (filterHalt src dst 8 (takeHalt src)) s

/-- RESUME (R153). -/
def execResume (src dst : Nat) (s : State) : Host.Outcome State Fault Refusal :=
  whilePowered (filterHalt src dst 9 (takeResume src)) s

/-- REPORT (R149): ignored, not counted. -/
def execReport (src _dst : Nat) (s : State) : Host.Outcome State Fault Refusal :=
  whilePowered (fun s =>
    if s.train.mode ≠ .config ∧ src = 0 then countReceiveError s
    else if s.train.mode ≠ .config ∧ src = s.station then finish (takeDuplicate 11 s) else s) s

/-- UNKNOWN_KIND (R149, R168): discarded and counted. -/
def execUnknownKind (src dst kind : Nat) (s : State) : Host.Outcome State Fault Refusal :=
  received src dst kind (fun _ => false) (fun s => s) s

/-- RECEIVE_ERROR (R149, R168): goes to no block and is counted; in CONFIG nothing is counted. -/
def execReceiveError (s : State) : Host.Outcome State Fault Refusal :=
  whilePowered (fun s => if s.train.mode = .config then s else countReceiveError s) s

/-- A kind that is passed on in CONFIG: HALT or RESUME (R149, R153). -/
def takenInConfig (kind : Nat) : Bool := decide (kind = 8) || decide (kind = 9)

/-- DUP_STATION (R152); in CONFIG a HALT or RESUME alone is taken (R149, R153, assumption 12). -/
def execDupStation (kind : Nat) (s : State) : Host.Outcome State Fault Refusal :=
  whilePowered (fun s => if s.train.mode = .config ∧ takenInConfig kind = false then s
    else finish (takeDuplicate kind s)) s

/-- SEND_START (R145, R150). -/
def execSendStart (s : State) : Host.Outcome State Fault Refusal :=
  whilePowered (fun s => if s.train.mode = .config then s else s.onLink Link.start) s

/-- ARBITRATION_LOST (R144, R145). -/
def execArbitrationLost (s : State) : Host.Outcome State Fault Refusal := whilePowered (·.onLink Link.lose) s

/-- ECHO_INTACT (R145). -/
def execEchoIntact (s : State) : Host.Outcome State Fault Refusal := whilePowered (fun s => finish (echoIntact s)) s

/-- ECHO_MISMATCH (R145). -/
def execEchoMismatch (s : State) : Host.Outcome State Fault Refusal := whilePowered (fun s => finish (echoMismatch s)) s

/-- LINE_HELD (R151). -/
def execLineHeld (s : State) : Host.Outcome State Fault Refusal := whilePowered (fun s => finish (lineHeld s)) s

/-- FAULT_IDLE_WAIT (R151). -/
def execFaultIdleWait (s : State) : Host.Outcome State Fault Refusal := whilePowered (·.onLink Link.recover) s

end Sys2Proof.Machine
end

