-- ==== Sys2Proof/Machine/Orders.lean ====
section
/-! DEFINITION. The orders (R160) and what each block does with them: R66, R67, R100, R116, R117, R129, R158, R161. -/

namespace Sys2Proof.Machine

open Sys2Proof (Flow Dir Bed Mode)

/-! ### Taking and answering (R149, R160) -/

/-- An ORDER is recognised from a configured console with this part's station as its destination (R149). -/
def fromConsole (src dst : Nat) (s : State) : Bool := s.cfg.consoles.contains src && decide (dst = s.station)

/-- An ORDER telegram: `answer` is the block's work, which gives the outcome decided now, if one is (R160). The reply is
queued after what that work queues (assumption 52), and after a CLEAR has cleared (assumption 53). -/
def takeOrder (src command arg litres : Nat) (answer : State → State × Option OrderOutcome) (s : State) : State :=
  let r := answer s
  match r.2 with
  | some o => replyTo .other src command arg litres o r.1
  | none => r.1

/-- An ORDER's command in a part that has its supply (R149, R160). -/
def ordered (src dst command arg litres : Nat) (answer : State → State × Option OrderOutcome) (s : State) :
    Host.Outcome State Fault Refusal :=
  received src dst 5 (fromConsole src dst) (takeOrder src command arg litres answer) s

/-! ### SHUT and RELEASE (R66, R67) -/

/-- ORDER SHUT: DONE, the train in SHUT_IN (R66); its OFFER and any CEDE stand before the reply (assumption 52). -/
def answerShut (s : State) : State × Option OrderOutcome := (shutIn s, some .done)

/-- ORDER RELEASE by the table of R67; an OFFER of the entry into HOLD stands before the reply (assumption 52). -/
def answerRelease (s : State) : State × Option OrderOutcome :=
  if s.train.mode ≠ .shutIn then (s, some .refusedState)
  else if s.link.haltSet ≠ [] then (s, some .refusedHalt)
  else (sequencerReact (release s), some .done)

/-! ### UNLOCK (R100) -/

/-- ORDER UNLOCK by the table of R100; the stop timer runs on. A CLAIM that becomes wanted is queued before the reply
(assumption 52). -/
def answerUnlock (s : State) : State × Option OrderOutcome :=
  if s.comp.unit = .tripped ∨ s.comp.unit = .lockout then
    (sequencerReact (s.onComp (fun c => { c.setUnit .stopped with trips := [] })), some .done)
  else (s, some .refusedState)

/-! ### BED_OUT and BED_IN (R116, R117) -/

/-- ORDER BED_OUT by the table of R116, with the hold of R70 at once. A FUEL_SHORTFALL report of its charge is queued
before the reply (assumption 52). -/
def answerBedOut (arg : Nat) (s : State) : State × Option OrderOutcome :=
  match bedOfCode arg with
  | none => (s, some .refusedArg)
  | some bed => (if (s.dryer.bed bed).state = .out then s else applyHold (takeBedOut bed s), some .done)

/-- ORDER BED_IN by the table of R117. -/
def answerBedIn (arg : Nat) (s : State) : State × Option OrderOutcome :=
  match bedOfCode arg with
  | none => (s, some .refusedArg)
  | some bed =>
    if (s.dryer.bed bed).state = .out ∧ (s.dryer.bed (otherBed bed)).state ≠ .heating then
      (s.onDryer (fun d => d.onBed bed enterHeating), some .done)
    else (s, some .refusedState)

/-! ### ACCEPT and CORRECT (R129) -/

/-- The litres that an order for a suspense record books: the record's own volume for ACCEPT, the order's for CORRECT
(R129). -/
def bookedLitres (accept : Bool) (litres : Nat) (r : Suspense) : Option Nat :=
  if accept then r.volume else some litres

/-- ORDER ACCEPT or CORRECT by the table of R129: an order that makes a record due is not answered yet. -/
def answerSuspense (accept : Bool) (src command arg litres : Nat) (s : State) : State × Option OrderOutcome :=
  match flowOfCode arg with
  | none => (s, some .refusedArg)
  | some f =>
    match s.intake.suspense f with
    | none => (s, some .refusedNone)
    | some r =>
      if r.due.isSome then (s, some .refusedState)
      else match bookedLitres accept litres r with
        | none => (s, some .refusedNone)
        | some v =>
          let d : Due := { console := src, command := command, arg := arg, litres := litres, book := v }
          (s.onIntake (fun i => i.setSuspense f (some { r with due := some d })), none)

/-! ### CLEAR (R158) -/

/-- The condition monitor cleared; the hour sums stay (R158). -/
def Monitor.clear (m : Monitor) : Monitor :=
  { m with sticky := List.replicate 31 false, counters := List.replicate 31 0, exceptions := [], lostCount := 0
           summary := List.replicate 31 false }

/-- ORDER CLEAR (R158). A TX_DROP of its own reply falls after the clear (assumption 53). -/
def answerClear (s : State) : State × Option OrderOutcome := (s.onMon Monitor.clear, some .done)

/-! ### RESTART (R161) -/

/-- ORDER RESTART (R161): at once and without a reply while the link is not ACTIVE; REFUSED_STATE while a restart is
pending; else the reply DONE, whose leaving the queue gives the reset (`settleRestart`). -/
def takeRestart (src command arg litres : Nat) (s : State) : State :=
  if s.link.state ≠ .active then lineReset s
  else if s.link.restartPending then replyTo .other src command arg litres .refusedState s
  else replyTo .restart src command arg litres .done (s.onLink (fun l => { l with restartPending := true }))

/-! ### The commands, with the command codes of R168 -/

/-- ORDER SHUT (R66, R160). -/
def execOrderShut (src dst arg litres : Nat) (s : State) : Host.Outcome State Fault Refusal :=
  ordered src dst 1 arg litres answerShut s

/-- ORDER RELEASE (R67, R160). -/
def execOrderRelease (src dst arg litres : Nat) (s : State) : Host.Outcome State Fault Refusal :=
  ordered src dst 2 arg litres answerRelease s

/-- ORDER UNLOCK (R100, R160). -/
def execOrderUnlock (src dst arg litres : Nat) (s : State) : Host.Outcome State Fault Refusal :=
  ordered src dst 3 arg litres answerUnlock s

/-- ORDER BED_OUT (R116, R160). -/
def execOrderBedOut (src dst arg litres : Nat) (s : State) : Host.Outcome State Fault Refusal :=
  ordered src dst 4 arg litres (answerBedOut arg) s

/-- ORDER BED_IN (R117, R160). -/
def execOrderBedIn (src dst arg litres : Nat) (s : State) : Host.Outcome State Fault Refusal :=
  ordered src dst 5 arg litres (answerBedIn arg) s

/-- ORDER ACCEPT (R129, R160). -/
def execOrderAccept (src dst arg litres : Nat) (s : State) : Host.Outcome State Fault Refusal :=
  ordered src dst 6 arg litres (answerSuspense true src 6 arg litres) s

/-- ORDER CORRECT (R129, R160). -/
def execOrderCorrect (src dst arg litres : Nat) (s : State) : Host.Outcome State Fault Refusal :=
  ordered src dst 7 arg litres (answerSuspense false src 7 arg litres) s

/-- ORDER CLEAR (R158, R160). -/
def execOrderClear (src dst arg litres : Nat) (s : State) : Host.Outcome State Fault Refusal :=
  ordered src dst 8 arg litres answerClear s

/-- ORDER RESTART (R160, R161). -/
def execOrderRestart (src dst arg litres : Nat) (s : State) : Host.Outcome State Fault Refusal :=
  received src dst 5 (fromConsole src dst) (takeRestart src 9 arg litres) s

/-- An ORDER with a command value outside the table: REFUSED_ARG (R160). -/
def execOrderUnknownCommand (src dst command arg litres : Nat) (s : State) : Host.Outcome State Fault Refusal :=
  ordered src dst command arg litres (fun s => (s, some .refusedArg)) s

end Sys2Proof.Machine
end

