-- ==== Sys2Proof/Machine/Events.lean ====
section
/-! DEFINITION. The field port's commands and the events of the timers (R57, R65, R89, R92, R94, R96, R98, R99, R113,
R114, R122, R124, R128, R132). A timer's event that comes while its timer has not reached its mark changes nothing
(assumption 8), and one whose mark falls on the second of a minute boundary comes after the minute work (assumption 69). -/

namespace Sys2Proof.Machine

open Sys2Proof (Flow Bed Sample)

/-- What follows an event of a block: the sequencer's tests, the hold of R70 at once, the handing of SETPOINT fields. -/
def settle (s : State) : State := handAll (applyHold (sequencerReact s))

/-- An event of the timers in a part that has its supply. -/
def timed (f : State → State) (s : State) : Host.Outcome State Fault Refusal :=
  whilePowered (fun s => settleRestart (settle (f s))) s

/-! ### The field port -/

/-- A SAMPLE taken, with what an accepted one sets off; its own SETPOINT request comes last, so that it carries the fields
as the SAMPLE has left them (R122, R132). With a minimum run time of 0 its RUNNING feedback can take STARTING to RUNNING and
at once to STOPPING: the RUN is handed first, and the STOP after it (R88, R96). A discarded one sets nothing off. -/
def sampleStep (record : Option Sample) (s : State) : State :=
  let r := takeSample record s
  if r.2 then settleRestart (requestSetpoint (settle r.1)) else r.1

/-- SAMPLE (R122). -/
def execSample (record : Option Sample) (s : State) : Host.Outcome State Fault Refusal :=
  whilePowered (sampleStep record) s

/-- SETPOINT_SEND_DONE (R132). -/
def execSetpointSendDone (s : State) : Host.Outcome State Fault Refusal := whilePowered setpointDone s

/-- FIELD_LATE (R124). -/
def execFieldLate (s : State) : Host.Outcome State Fault Refusal := timed fieldLateTest s

/-- FIELD_LOST (R65, R124). -/
def execFieldLost (s : State) : Host.Outcome State Fault Refusal := timed fieldLostTest s

/-- SUSPENSE_OLD (R128). -/
def execSuspenseOld (f : Flow) (s : State) : Host.Outcome State Fault Refusal := timed (suspenseOldTest f) s

/-! ### The train mode controller -/

/-- LISTEN_30_S_MARK (R57). -/
def execListen30SMark (s : State) : Host.Outcome State Fault Refusal := timed listenTest s

/-- LISTEN_120_S_MARK (R57). -/
def execListen120SMark (s : State) : Host.Outcome State Fault Refusal := timed listenTest s

/-! ### The compressor sequencer and the start queue copy -/

/-- START_TIMEOUT (R94). -/
def execStartTimeout (s : State) : Host.Outcome State Fault Refusal := timed timeOutStart s

/-- MIN_STOP_ELAPSED (R89, R99). -/
def execMinStopElapsed (s : State) : Host.Outcome State Fault Refusal := timed autoRestart s

/-- MIN_RUN_ELAPSED (R96): the sequencer's tests are made again. -/
def execMinRunElapsed (s : State) : Host.Outcome State Fault Refusal := timed (fun s => s) s

/-- ZERO_DEMAND_300_S (R96): the sequencer's tests are made again. -/
def execZeroDemand300S (s : State) : Host.Outcome State Fault Refusal := timed (fun s => s) s

/-- START_HISTORY_AGE_OUT (R89): the sequencer's tests are made again. -/
def execStartHistoryAgeOut (s : State) : Host.Outcome State Fault Refusal := timed (fun s => s) s

/-- The trips that have reached an age of 86,400 s removed (R98). -/
def ageOutTrips (s : State) : State := s.onComp (fun c => { c with trips := c.trips.filter (· < 86400) })

/-- TRIP_HISTORY_AGE_OUT (R98). -/
def execTripHistoryAgeOut (s : State) : Host.Outcome State Fault Refusal := timed ageOutTrips s

/-- HEAD_HOLD_EXPIRY (R92). -/
def execHeadHoldExpiry (s : State) : Host.Outcome State Fault Refusal := timed expireHead s

/-! ### The dryer controller -/

/-- A bed's phase timer against the maximum of a phase, in site minutes (R113, R114). The timers stand still in CONFIG
(R104), so none reaches its maximum there. At the second of a minute boundary the minute work has come first, since
CLOCK_SECOND does it (R121, assumption 54). -/
def phaseExpiry (bed : Bed) (phase : BedState) (maximum : Nat) (s : State) : State :=
  if s.train.mode ≠ .config ∧ (s.dryer.bed bed).state = phase ∧ maximum * 60 ≤ (s.dryer.bed bed).phaseTimer.getD 0 then
    bedFault bed s
  else s

/-- HEAT_MAXIMUM (R113). -/
def execHeatMaximum (bed : Bed) (s : State) : Host.Outcome State Fault Refusal :=
  timed (fun s => phaseExpiry bed .heating s.cfg.dryer.heatMaximum s) s

/-- COOL_MAXIMUM (R114). -/
def execCoolMaximum (bed : Bed) (s : State) : Host.Outcome State Fault Refusal :=
  timed (fun s => phaseExpiry bed .cooling s.cfg.dryer.coolMaximum s) s

end Sys2Proof.Machine
end

