-- ==== Sys2Proof/Machine/Dispatch.lean ====
section
/-! DEFINITION. The dispatch of the commands: one arm for each row of spec/opcode_table.json. -/

namespace Sys2Proof.Machine

open Sys2Proof

def exec (i : Instr) (s : State) : Host.Outcome State Fault Refusal :=
  match i with
  | .powerOnReset straps blockUnread slotsUnread => Sys2Proof.Machine.execPowerOnReset straps blockUnread slotsUnread s
  | .lineReset straps => Sys2Proof.Machine.execLineReset straps s
  | .clockSecond => Sys2Proof.Machine.execClockSecond s
  | .holdBackRunOut => Sys2Proof.Machine.execHoldBackRunOut s
  | .dayReportQueue => Sys2Proof.Machine.execDayReportQueue s
  | .time src dst day second => Sys2Proof.Machine.execTime src dst day second s
  | .noms src dst slot day hour rate => Sys2Proof.Machine.execNoms src dst slot day hour rate s
  | .offer src dst dir offer share target mode unit => Sys2Proof.Machine.execOffer src dst dir offer share target mode unit s
  | .invt src dst half day hour inventories => Sys2Proof.Machine.execInvt src dst half day hour inventories s
  | .claim src dst => Sys2Proof.Machine.execClaim src dst s
  | .cede src dst => Sys2Proof.Machine.execCede src dst s
  | .join src dst => Sys2Proof.Machine.execJoin src dst s
  | .halt src dst reason => Sys2Proof.Machine.execHalt src dst reason s
  | .resume src dst => Sys2Proof.Machine.execResume src dst s
  | .orderShut src dst arg litres => Sys2Proof.Machine.execOrderShut src dst arg litres s
  | .orderRelease src dst arg litres => Sys2Proof.Machine.execOrderRelease src dst arg litres s
  | .orderUnlock src dst arg litres => Sys2Proof.Machine.execOrderUnlock src dst arg litres s
  | .orderBedOut src dst arg litres => Sys2Proof.Machine.execOrderBedOut src dst arg litres s
  | .orderBedIn src dst arg litres => Sys2Proof.Machine.execOrderBedIn src dst arg litres s
  | .orderAccept src dst arg litres => Sys2Proof.Machine.execOrderAccept src dst arg litres s
  | .orderCorrect src dst arg litres => Sys2Proof.Machine.execOrderCorrect src dst arg litres s
  | .orderClear src dst arg litres => Sys2Proof.Machine.execOrderClear src dst arg litres s
  | .orderRestart src dst arg litres => Sys2Proof.Machine.execOrderRestart src dst arg litres s
  | .orderUnknownCommand src dst command arg litres => Sys2Proof.Machine.execOrderUnknownCommand src dst command arg litres s
  | .report src dst => Sys2Proof.Machine.execReport src dst s
  | .unknownKind src dst kind => Sys2Proof.Machine.execUnknownKind src dst kind s
  | .receiveError => Sys2Proof.Machine.execReceiveError s
  | .dupStation kind => Sys2Proof.Machine.execDupStation kind s
  | .sendStart => Sys2Proof.Machine.execSendStart s
  | .arbitrationLost => Sys2Proof.Machine.execArbitrationLost s
  | .echoIntact => Sys2Proof.Machine.execEchoIntact s
  | .echoMismatch => Sys2Proof.Machine.execEchoMismatch s
  | .lineHeld => Sys2Proof.Machine.execLineHeld s
  | .faultIdleWait => Sys2Proof.Machine.execFaultIdleWait s
  | .sample record => Sys2Proof.Machine.execSample record s
  | .setpointSendDone => Sys2Proof.Machine.execSetpointSendDone s
  | .fieldLate => Sys2Proof.Machine.execFieldLate s
  | .fieldLost => Sys2Proof.Machine.execFieldLost s
  | .suspenseOld flow => Sys2Proof.Machine.execSuspenseOld flow s
  | .listen30sMark => Sys2Proof.Machine.execListen30SMark s
  | .listen120sMark => Sys2Proof.Machine.execListen120SMark s
  | .startTimeout => Sys2Proof.Machine.execStartTimeout s
  | .minStopElapsed => Sys2Proof.Machine.execMinStopElapsed s
  | .minRunElapsed => Sys2Proof.Machine.execMinRunElapsed s
  | .zeroDemand300s => Sys2Proof.Machine.execZeroDemand300S s
  | .startHistoryAgeOut => Sys2Proof.Machine.execStartHistoryAgeOut s
  | .tripHistoryAgeOut => Sys2Proof.Machine.execTripHistoryAgeOut s
  | .headHoldExpiry => Sys2Proof.Machine.execHeadHoldExpiry s
  | .heatMaximum bed => Sys2Proof.Machine.execHeatMaximum bed s
  | .coolMaximum bed => Sys2Proof.Machine.execCoolMaximum bed s
  | .checkpointWriteDone => Sys2Proof.Machine.execCheckpointWriteDone s
  | .ckptFail => Sys2Proof.Machine.execCkptFail s
  | .powerLoss => Sys2Proof.Machine.execPowerLoss s

end Sys2Proof.Machine
end

