-- ==== Sys2Proof/Safety.lean ====
section
/-! DEFINITION. What the claims speak of: the conditions under which a command is taken, what it means that a condition
is raised or an order answered, and the invariants of a sound part. -/

namespace Sys2Proof.Machine

open Sys2Proof (Flow Dir Bed Mode UnitState Lineup Byte Instr)

/-! ### When a command is taken -/

/-- The part has its supply and no restart is pending, so an event ends without a reset (R161, R166). -/
abbrev State.steady (s : State) : Prop := s.powered = true ∧ s.link.restartPending = false

/-- A steady part out of CONFIG: its configuration is in force (R56). -/
abbrev State.atWork (s : State) : Prop := s.steady ∧ s.train.mode ≠ .config

/-- A part at work takes a telegram of a station other than itself that is sent to it or to all (R149). -/
abbrev State.hears (s : State) (src dst : Nat) : Prop :=
  s.atWork ∧ src ≠ 0 ∧ src ≠ s.station ∧ (dst = 0 ∨ dst = s.station)

/-- A part at work takes an ORDER of this station: a configured console, addressed to the part (R149). -/
abbrev State.obeys (s : State) (src dst : Nat) : Prop :=
  s.hears src dst ∧ src ∈ s.cfg.consoles ∧ dst = s.station

/-- The transmit queue has room for what one command queues: the class-3 refusal mark is clear and stays clear (R147). -/
abbrev State.roomy (s : State) : Prop := s.link.refusalMark = false ∧ s.link.queue.length ≤ 4

/-! ### What a command leaves behind -/

/-- A telegram waits in the transmit queue. -/
def State.waits (t : State) (m : Telegram) : Prop := ∃ e ∈ t.link.queue, e.telegram = m ∧ e.onLine = false

/-- A telegram of class 3 enters the transmit queue: the refusal mark is clear and the queue is not full (R146, R147). -/
abbrev State.admits (s : State) : Prop := s.link.refusalMark = false ∧ s.link.queue.length < 12

/-- The owner of a telegram has been told that it left the queue unsent: the DAY report is no longer outstanding, the claim
no longer in flight, the CEDE no longer pending (R10, R90, R95). -/
def toldUnsent (o : Owner) (m : Telegram) (t : State) : Prop :=
  (o = .dayCursor → t.acct.outstanding = false)
    ∧ (o = .sequencer → m = .claim → t.comp.claimInFlight = false)
    ∧ (o = .sequencer → m = .cede → t.comp.cedePending = false)

/-- The monitor's flags and counters are one for each condition (R156). -/
abbrev Monitor.sized (m : Monitor) : Prop := m.sticky.length = 31 ∧ m.counters.length = 31

/-- From `s` to `t` the condition has been raised: its sticky flag is set and its counter has grown by 1 (R156). -/
abbrev raisedOnce (c : Cond) (s t : State) : Prop :=
  t.mon.sticky.getD (condCode c - 1) false = true
    ∧ t.mon.counters.getD (condCode c - 1) 0 = satAdd top16 (s.mon.counters.getD (condCode c - 1) 0) 1

/-- From `s` to `t` the condition has been raised `k` times (R156). -/
abbrev raisedTimes (c : Cond) (k : Nat) (s t : State) : Prop :=
  (0 < k → t.mon.sticky.getD (condCode c - 1) false = true
      ∧ t.mon.counters.getD (condCode c - 1) 0 = satAdd top16 (s.mon.counters.getD (condCode c - 1) 0) k)
    ∧ (k = 0 → t.mon.sticky.getD (condCode c - 1) false = s.mon.sticky.getD (condCode c - 1) false
      ∧ t.mon.counters.getD (condCode c - 1) 0 = s.mon.counters.getD (condCode c - 1) 0)

/-- From `s` to `t` the exception list has taken a record of the condition that satisfies `p`, when the condition is
escalated and the list had room (R157). -/
def recorded (c : Cond) (p : ExceptionRecord → Prop) (s t : State) : Prop :=
  s.train.mode ≠ .config → s.cfg.escalates (condCode c) = true → s.mon.exceptions.length < 8 →
    ∃ r ∈ t.mon.exceptions, r.code = condCode c ∧ r.day = s.clock.day ∧ r.second = s.clock.second ∧ p r

/-- From `s` to `t` the condition has not been raised (R156). -/
abbrev notRaised (c : Cond) (s t : State) : Prop :=
  t.mon.sticky.getD (condCode c - 1) false = s.mon.sticky.getD (condCode c - 1) false
    ∧ t.mon.counters.getD (condCode c - 1) 0 = s.mon.counters.getD (condCode c - 1) 0

/-- The intake `i` with the SETPOINT sending of `j`: what has been handed, what is being sent and the pending mark (R132).
`s.intake.handing t.intake` says that nothing else of the intake has changed. -/
def Intake.handing (i j : Intake) : Intake := { i with handed := j.handed, sending := j.sending, sendAgain := j.sendAgain }

/-! ### What a rule says, for the claims -/

/-- The state a second of site time later, before any boundary: the standing time, the sequencer's timers and ages, the
head age, the phase timers except in CONFIG, and the intake's counts, each by 1 (R84, R91, R104, R123, R135). -/
def State.afterSecond (s : State) : State :=
  { s with
    clock := if s.clock.second = 86399 then { s.clock with second := 0, day := (s.clock.day + 1) % 65536 }
      else { s.clock with second := s.clock.second + 1 }
    comp := { s.comp with
      starts := s.comp.starts.map (· + 1), trips := s.comp.trips.map (· + 1), runTimer := s.comp.runTimer + 1
      stopTimer := s.comp.stopTimer + 1, startTimer := s.comp.startTimer.map (· + 1)
      zeroDemand := if s.train.demand = 0 then s.comp.zeroDemand + 1 else 0 }
    peers := { s.peers with headAge := if s.peers.startQueue = [] then 0 else s.peers.headAge + 1 }
    dryer := if s.train.mode = .config then s.dryer else { s.dryer with
      bedA := { s.dryer.bedA with phaseTimer := s.dryer.bedA.phaseTimer.map (· + 1) }
      bedB := { s.dryer.bedB with phaseTimer := s.dryer.bedB.phaseTimer.map (· + 1) } }
    intake := { s.intake with
      held := s.intake.held.tick, fieldTimer := s.intake.fieldTimer + 1, meterSpan := s.intake.meterSpan + 1
      suspInject := s.intake.suspInject.map (fun r => { r with age := r.age + 1 })
      suspWithdraw := s.intake.suspWithdraw.map (fun r => { r with age := r.age + 1 }) } }

/-- A restart is pending exactly while its reply stands in the queue, and then the link is ACTIVE (R161). -/
abbrev State.restartSound (s : State) : Prop :=
  (s.link.restartPending = true ↔ ∃ e ∈ s.link.queue, e.owner = .restart)
    ∧ (s.link.restartPending = true → s.link.state = .active)

/-- The line reset that a restart gives has been made, with the pins as last given (R161, R163). -/
def restarted (s t : State) : Prop :=
  t.link.restartPending = false ∧ t.link.state = .joining ∧ t.station = s.straps ∧ t.train.listenDone = false
    ∧ t.train.demand = 0 ∧ t.train.lineup = .closed ∧ t.link.join ≠ .onLine ∧ (∀ e ∈ t.link.queue, e.onLine = false)
    ∧ t.acct.slots = s.acct.slots ∧ t.nom = s.nom ∧ t.dryer = s.dryer

/-- What one boundary instant does, in its order: the metering, a coinciding day close, a coinciding hour's nominations,
the train's minute work, and the hour's checkpoint and reports; in CONFIG the close and the nominations alone (R6, R16,
R30, R58, R130, R136, R162, R165). -/
def instantWork (hour : Bool) (endingDay : Option Nat) (s : State) : State :=
  let close (x : State) := endingDay.elim x (closeDay · x)
  let nominate (x : State) := if hour then nominationHour x else x
  let report (x : State) := if hour then reportHour x else x
  if s.train.mode = .config then nominate (close s)
  else report (trainMinute (meterMinute s).1 (nominate (close (meterMinute s).2)))

/-- The state after a step of the clock by `d` to a received time, before any boundary: the peer offers' times heard and
the JOIN time move by it, the start of a running dwell only by a backward step (R54, R57, R78, R138). -/
def State.afterStep (s : State) (d : Int) (day second : Nat) : State :=
  { s with
    clock := { s.clock with day := day, second := second, synced := true, holdBack := 0, refused := none }
    train := { s.train with
      joinTime := s.train.joinTime.map (moveIndex · d)
      dwell := if d < 0 then s.train.dwell.map (moveIndex · d) else s.train.dwell }
    peers := { s.peers with offers := s.peers.offers.map (fun e =>
      { e with entry := e.entry.map (fun o => { o with heard := moveIndex o.heard d }) }) } }

/-- A held value after a SAMPLE: the field's value with a held time of 0 when it lies in its range, else as it was
(R123). -/
def heldAfter (low high : Int) (v : Option Int) (before after : Option Held) : Prop :=
  (∀ x, v = some x → low ≤ x → x ≤ high → after = some { value := x, time := 0 })
    ∧ ((v = none ∨ ∃ x, v = some x ∧ (x < low ∨ high < x)) → after = before)

/-- A span and a volume have gone to suspense for the train's direction: a record opened with them, or one already open
grown by them, its due marking lapsed; the other direction's stays (R128, R129). -/
def suspended (s t : State) (span : Nat) (volume : Option Nat) : Prop :=
  let f := suspenseFlow s.train
  t.intake.suspense (opposite f) = s.intake.suspense (opposite f)
    ∧ (s.intake.suspense f = none → t.intake.suspense f = some
        { openDay := s.clock.day, openSecond := s.clock.second, age := 0, span := span, volume := volume
          cv := (cvInForce t).1, snapshot := s.nom.confirmed })
    ∧ (∀ r, s.intake.suspense f = some r → t.intake.suspense f = some
        { r with span := satAdd top32 r.span span, volume := addVolume r.volume volume, due := none })
    ∧ ∀ r d, s.intake.suspense f = some r → r.due = some d → s.roomy → t.waits
        (.reply { console := d.console, command := d.command, arg := d.arg, litres := d.litres, outcome := .refusedState })

/-- A fuel totalizer's baseline and Wh sum before and after a reading (R131). -/
def fuelTaken (reading : Option Nat) (b b' : Baseline) (wh wh' : Nat) : Prop :=
  (reading = none → b' = b ∧ wh' = wh)
    ∧ ∀ x, reading = some x → b'.reading = some x ∧ (b.reading = none → wh' = wh)
      ∧ ∀ y d, b.reading = some y → y < 4294967296 → d < 4294967296 → (y + d) % 4294967296 = x →
          b'.restoreMark = false ∧ (b.restoreMark = true → wh' = wh)
            ∧ (b.restoreMark = false → wh' = if d < 2147483648 then wh + d else wh)

/-- An interval to which R35 gives the direction WITHDRAW. -/
def withdrawalInterval (s : State) (r : Interval) : Bool :=
  decide (s.train.mode = .withdraw ∨ s.train.mode ≠ .inject ∧ 0 < r.volume ∧ s.train.lastFlow = some .withdraw)

/-- A bed's heating ends in the minute work on `r` (R113). -/
def heatingEnds (s : State) (r : Interval) (bed : Bed) : Bool :=
  decide ((s.dryer.bed bed).state = .heating)
    && (fresh (r.held.bedTemp bed)).any (fun x => decide (s.cfg.dryer.heatTarget ≤ x))

/-- A bed's cooling ends in the minute work on `r` (R114). -/
def coolingEnds (s : State) (r : Interval) (bed : Bed) : Bool :=
  decide ((s.dryer.bed bed).state = .cooling)
    && (fresh (r.held.bedTemp bed)).any (fun x => decide (x ≤ s.cfg.dryer.coolTarget))

/-- A bed is STANDBY after the phases, or would be if it were not taken in (R111, R114). -/
def standsFree (s : State) (r : Interval) (bed : Bed) : Bool :=
  decide ((s.dryer.bed bed).state = .standby) || coolingEnds s r bed

/-- A bed is taken to ADSORBING as a cooling ends: the lineup is WITHDRAW and no bed is ADSORBING; A before B (R111). -/
def takenIn (s : State) (r : Interval) (bed : Bed) : Bool :=
  decide (s.train.lineup = .withdraw ∧ s.dryer.bedA.state ≠ .adsorbing ∧ s.dryer.bedB.state ≠ .adsorbing)
    && (coolingEnds s r .a || coolingEnds s r .b)
    && match bed with
      | .a => standsFree s r .a
      | .b => !standsFree s r .a

/-- DEW_HIGH after the dew point's test (R118). -/
def dewAfter (s : State) (r : Interval) : Bool :=
  let g := s.cfg.dryer
  let d := (fresh r.held.dewPoint).getD g.dewHigh
  if withdrawalInterval s r = false then s.dryer.dewHigh
  else if s.dryer.dewHigh then decide (g.dewHigh - (g.hysteresisValue : Int) < d)
  else decide (g.dewHigh ≤ d)

/-- A bed whose loading is `load` is switched out (R112). -/
def switchedOut (s : State) (r : Interval) (load : Nat) (bed : Bed) : Bool :=
  (decide ((s.dryer.bed bed).state = .adsorbing) || takenIn s r bed)
    && (decide (s.cfg.dryer.switchLoad ≤ load) || dewAfter s r) && standsFree s r (otherBed bed)

/-- The bed in service for the dryer limit (R119). -/
def serves (d : Dryer) (bed : Bed) : Prop :=
  (d.bed bed).state = .adsorbing ∨ (d.bedA.state ≠ .adsorbing ∧ d.bedB.state ≠ .adsorbing ∧ (d.bed bed).state = .standby
    ∧ (bed = .b → d.bedA.state ≠ .standby))

/-- A value of a table of rising breakpoints: the first below them, the last from the last on, between two of them the
straight line with its division truncated (R87, R109). -/
def tableGives (table : List (Int × Nat)) (x : Int) (v : Nat) : Prop :=
  let p (i : Nat) := table.getD i (0, 0)
  let last := table.length - 1
  (x < (p 0).1 → v = (p 0).2) ∧ ((p last).1 ≤ x → v = (p last).2)
    ∧ ∀ i < last, (p i).1 ≤ x → x < (p (i + 1)).1 →
        (v : Int) = (p i).2 + ((((p (i + 1)).2 : Int) - (p i).2) * (x - (p i).1)).tdiv ((p (i + 1)).1 - (p i).1)

/-- A running dwell has run its length (R64). -/
def dwellOver (s : State) : Bool := s.train.dwell.any (fun start => decide (s.cfg.dwellMinutes * 60 ≤ elapsed s start))

/-- The dwell after its test at step 1 (R64). -/
def dwellLeft (s : State) : Option Nat := if dwellOver s then none else s.train.dwell

/-- The dwell that the test leaves runs against a direction (R64). -/
def dwellBars (s : State) (f : Flow) : Prop := dwellLeft s ≠ none ∧ s.train.lastFlow = some (opposite f)

/-- The step of the ramp toward the share (R69). -/
def rampToward (ramp m share : Nat) : Nat :=
  if m < share then min (m + ramp) share else if share < m then max (m - ramp) share else m

/-- The hold of R70 on a train whose lineup command is that of `f`, in the minute work from `s` to `t`. -/
def heldAtZero (s t : State) (f : Flow) : Bool :=
  decide (s.comp.path = .compressed ∧ s.comp.unit ≠ .running) || decide (s.intake.lineup ≠ some (flowLineup f))
    || decide (f = .withdraw ∧ t.dryer.bedA.state ≠ .adsorbing ∧ t.dryer.bedB.state ≠ .adsorbing)

/-- A train in REVERSING ramps down out of `f`: the demand falls by the ramp rate, and at 0 the dwell starts (R62, R63,
R69, R70). -/
def rampsDown (s t : State) (f : Flow) : Prop :=
  let d := if heldAtZero s t f = true ∨ s.nom.hourDir = none then 0 else s.train.demand.natAbs - s.cfg.rampRate
  t.train.mode = .reversing ∧ t.train.demand = signedRate (some f) d ∧ t.train.lastFlow = s.train.lastFlow
    ∧ (d = 0 → t.train.phase = some .dwell ∧ t.train.lineup = .closed ∧ t.train.dwell = some s.clock.index)
    ∧ (0 < d → t.train.phase = some .ramp ∧ t.train.lineup = flowLineup f ∧ t.train.dwell = dwellLeft s)

/-- A train flows in `f` through a minute work: the demand steps toward the share and keeps to the offer, at 0 where it
stays or is held there; at 0 with a share of 0 the train goes to IDLE (R61, R69, R70). -/
def flowsOn (s t : State) (f : Flow) (stays : Bool) : Prop :=
  let d := if stays || heldAtZero s t f then 0
    else min (rampToward s.cfg.rampRate s.train.demand.natAbs t.train.share) t.train.offer
  t.train.demand = signedRate (some f) d ∧ t.train.phase = none ∧ t.train.lastFlow = s.train.lastFlow
    ∧ t.train.dwell = (if stays then none else dwellLeft s)
    ∧ (d = 0 ∧ t.train.share = 0 → t.train.mode = .idle ∧ t.train.lineup = .closed)
    ∧ (¬ (d = 0 ∧ t.train.share = 0) → t.train.mode = flowMode f ∧ t.train.lineup = flowLineup f)

/-- A train is in IDLE after a minute work (R59, R61, R64). -/
def rests (s t : State) : Prop :=
  t.train.mode = .idle ∧ t.train.phase = none ∧ t.train.lineup = .closed ∧ t.train.demand = 0
    ∧ t.train.lastFlow = s.train.lastFlow ∧ t.train.dwell = dwellLeft s

/-- A train enters `f` from IDLE (R59, R60, R111). -/
def enters (t : State) (f : Flow) : Prop :=
  t.train.mode = flowMode f ∧ t.train.phase = none ∧ t.train.lineup = flowLineup f ∧ t.train.demand = 0
    ∧ t.train.lastFlow = some f ∧ t.train.dwell = none
    ∧ (f = .withdraw → t.dryer.bedA.state = .adsorbing ∨ t.dryer.bedB.state = .adsorbing)

/-- The entry test of R59 in the minute work from `s` to `t`, for a train that is in IDLE at step 3. -/
def mayEnterNow (s t : State) (f : Flow) : Prop :=
  0 < t.train.share ∧ s.link.haltSet = [] ∧ ¬ dwellBars s f
    ∧ (f = .withdraw → ∃ bed, (s.dryer.bed bed).state = .standby ∨ (s.dryer.bed bed).state = .adsorbing)

/-- A train with hour direction `f` offers in it: the mode that step 1 leaves is IDLE or flows in `f`, no dwell bars it,
and the train is heard (R62, R64, R73). -/
def offersIn (s : State) (f : Flow) : Prop :=
  (s.train.mode = .idle ∨ s.train.mode = flowMode f
      ∨ s.train.mode = .reversing ∧ (s.train.lastFlow = some f ∨ s.train.phase = some .dwell ∧ dwellOver s = true))
    ∧ ¬ dwellBars s f ∧ s.link.state ≠ .silent ∧ s.link.state ≠ .fault

/-- The checks of R14 in their order: the reason code of the first that fails, or 0. -/
def nomsFailing (s : State) (slot day hour : Nat) (rate : Int) : Nat :=
  let distance := hourDistance s.clock.hourIndex (hourIndex day hour)
  let pending := (s.nom.nominee slot).pending
  if s.clock.synced = false then 1
  else if ¬ (1 ≤ slot ∧ slot ≤ 16 ∧ 0 < (s.cfg.shipper slot).space) then 2
  else if 23 < hour ∨ rate = -2147483648 then 3
  else if distance < (s.cfg.leadTime : Int) then 4
  else if 36 < distance then 5
  else if pending.length = 4 ∧ ∀ e ∈ pending, e.1 ≠ hourIndex day hour then 6
  else 0

/-- The unit state after the train has been taken to SHUT_IN (R93, R94, R96). -/
def unitShutIn : UnitState → UnitState
  | .queued => .stopped
  | .starting | .running => .stopping
  | .stopped => .stopped
  | .stopping => .stopping
  | .tripped => .tripped
  | .lockout => .lockout

/-- What a train that was not shut in looks like when it has been: SHUT_IN, demand 0, lineup CLOSED, offer and share 0, the
dwell started if it was ramping down, the compressor stopping, its OFFER queued (R63, R66, R79, R82, R94, R96). -/
def takenToShutIn (s t : State) : Prop :=
  t.train = { s.train with mode := .shutIn, phase := none, lineup := .closed, offer := 0, share := 0, demand := 0
                           dwell := if s.train.mode = .reversing ∧ s.train.phase = some .ramp then some s.clock.index
                             else s.train.dwell }
    ∧ t.comp.unit = unitShutIn s.comp.unit
    ∧ (s.roomy → ∃ u, t.waits (.offer s.train.offerDir 0 0 s.nom.target .shutIn u))

/-- The commands that are telegrams passed on by kind, HALT and RESUME apart: source, destination, kind, and whether the
source is recognised for the kind (R149). -/
def passedTelegram (s : State) : Instr → Option (Nat × Nat × Nat × Bool)
  | .time src dst _ _ => some (src, dst, 1, decide (src = s.cfg.timeSource))
  | .noms src dst _ _ _ _ => some (src, dst, 2, decide (src = s.cfg.scheduling))
  | .offer src dst _ _ _ _ _ _ => some (src, dst, 3, decide (src ∈ s.cfg.expected))
  | .invt src dst _ _ _ _ => some (src, dst, 10, decide (src ∈ s.cfg.expected))
  | .claim src dst => some (src, dst, 6, decide (src ∈ s.cfg.expected))
  | .cede src dst => some (src, dst, 7, decide (src ∈ s.cfg.expected))
  | .join src dst => some (src, dst, 4, true)
  | .orderShut src dst _ _ | .orderRelease src dst _ _ | .orderUnlock src dst _ _ | .orderBedOut src dst _ _
  | .orderBedIn src dst _ _ | .orderAccept src dst _ _ | .orderCorrect src dst _ _ | .orderClear src dst _ _
  | .orderRestart src dst _ _ | .orderUnknownCommand src dst _ _ _ =>
      some (src, dst, 5, decide (src ∈ s.cfg.consoles ∧ dst = s.station))
  | .unknownKind src dst kind => some (src, dst, kind, false)
  | _ => none

/-- The time in LISTEN is over: a synchronized clock, a JOIN completed 30 s ago with the view complete, or 120 s ago
(R57). -/
def listenOver (s : State) : Prop :=
  s.clock.synced = true ∧ ∃ j, s.train.joinTime = some j ∧ 30 ≤ elapsed s j
    ∧ ((∀ v ∈ s.peers.view, v.half1 ≠ none ∧ v.half2 ≠ none) ∨ 120 ≤ elapsed s j)

/-- A RUNNING unit is to stop: in SHUT_IN at once, else after the minimum run time when the path is free, the demand has
been 0 for 300 s, or the train does not flow (R96). -/
def stopDue (s : State) : Prop :=
  s.train.mode = .shutIn ∨ (s.cfg.minRun * 60 ≤ s.comp.runTimer ∧ (s.comp.path = .free ∨ 300 ≤ s.comp.zeroDemand
    ∨ s.train.mode = .idle ∨ s.train.mode = .hold ∨ s.train.mode = .listen))

/-- The want conditions of R89. -/
def wants (s : State) : Prop :=
  (s.train.mode = .inject ∨ s.train.mode = .withdraw) ∧ s.comp.path = .compressed ∧ 0 < s.train.share

/-- A start is wanted (R89): the want conditions and the seven others. -/
def startDue (s : State) : Prop :=
  wants s ∧ s.comp.unit = .stopped ∧ s.comp.claimInFlight = false ∧ s.comp.cedePending = false
    ∧ s.station ∉ s.peers.startQueue ∧ s.cfg.minStop * 60 ≤ s.comp.stopTimer
    ∧ (s.comp.starts.filter (· < 3600)).length < 3 ∧ s.peers.startQueue.length < 8

/-- The least slot from `start` on that gets a DAY report, or 17 when there is none (R9). -/
def nextReport (s : State) (start slot : Nat) : Prop :=
  if slot = 17 then ∀ i, start ≤ i → i ≤ 16 → i ≠ 0 ∧ s.cfg.configured i = false
  else start ≤ slot ∧ slot ≤ 16 ∧ (slot = 0 ∨ s.cfg.configured slot = true)
    ∧ ∀ i, start ≤ i → i < slot → i ≠ 0 ∧ s.cfg.configured i = false

/-- The transmit queue has this entry alone on the line, `a` before it and `b` after it. -/
abbrev State.sends (s : State) (a : List Entry) (e : Entry) (b : List Entry) : Prop :=
  s.link.join ≠ .onLine ∧ s.link.queue = a ++ e :: b ∧ e.onLine = true
    ∧ ∀ x ∈ a ++ b, x.onLine = false ∧ x.ticket ≠ e.ticket

/-- The signed energy of a booking: positive for injection, negative for withdrawal (R3). -/
def signedEnergy (f : Flow) (e : Nat) : Int :=
  match f with
  | .inject => e
  | .withdraw => -(e : Int)

/-- What a regeneration charge leaves in a bed and the hour sum: the accumulator emptied into whole kWh with the new heater
carry, the passage list emptied (R50, R115, R162). -/
def charged (s t : State) (bed : Bed) : Prop :=
  let sum := (s.dryer.bed bed).accumulator + (s.dryer.bed bed).heaterCarry
  (t.dryer.bed bed).accumulator = 0 ∧ (t.dryer.bed bed).heaterCarry = sum % 1000
    ∧ (t.dryer.bed bed).passage = List.replicate 17 0 ∧ t.mon.sumHeater = s.mon.sumHeater + sum / 1000

/-! ### Sound states -/

/-- The lists of the account table, the confirmed rates, the suspense snapshots and the passage lists have their lengths
(R1, R32, R105, R128). -/
abbrev State.sized (s : State) : Prop :=
  s.acct.slots.length = 17 ∧ s.nom.confirmed.length = 16 ∧ s.dryer.bedA.passage.length = 17
    ∧ s.dryer.bedB.passage.length = 17 ∧ (∀ r, s.intake.suspInject = some r → r.snapshot.length = 16)
    ∧ (∀ r, s.intake.suspWithdraw = some r → r.snapshot.length = 16)

/-- No shipper's inventory is negative (R3). -/
abbrev State.shippersSound (s : State) : Prop := ∀ r ∈ s.acct.slots.drop 1, 0 ≤ r.inventory

/-- The law of the pending lists: at most four entries, in strictly increasing effective hours, all later than the current
hour; with it what it stands on, a standing time in its range and a lead time of at least an hour (R14, R15, R134). -/
abbrev State.pendingsSound (s : State) : Prop :=
  s.clock.day < 65536 ∧ s.clock.second < 86400 ∧ (∀ m, s.port.image = some m → 1 ≤ m.leadTime)
    ∧ ∀ n ∈ s.nom.shippers, n.pending.length ≤ 4
      ∧ n.pending.Pairwise (fun x y => hourDistance s.clock.hourIndex x.1 < hourDistance s.clock.hourIndex y.1)
      ∧ ∀ e ∈ n.pending, e.1 < hourSpan ∧ 0 < hourDistance s.clock.hourIndex e.1

/-- The transmit queue holds at most twelve entries, in the order of their classes, and the class-3 refusal mark stands
as the occupancy asks (R146, R147). -/
abbrev Link.queueSound (l : Link) : Prop :=
  l.queue.length ≤ 12 ∧ l.queue.Pairwise (fun x y => telegramClass x.telegram ≤ telegramClass y.telegram)
    ∧ (9 ≤ l.queue.length → l.refusalMark = true) ∧ (l.queue.length ≤ 5 → l.refusalMark = false)

/-- The start queue copy holds at most eight stations, none twice; an empty copy has no age (R91). -/
abbrev Peers.copySound (p : Peers) : Prop :=
  p.startQueue.length ≤ 8 ∧ p.startQueue.Nodup ∧ (p.startQueue = [] → p.headAge = 0)

/-- At most one bed is ADSORBING and at most one is HEATING (R111, R117). -/
abbrev Dryer.sound (d : Dryer) : Prop :=
  ¬ (d.bedA.state = .adsorbing ∧ d.bedB.state = .adsorbing) ∧ ¬ (d.bedA.state = .heating ∧ d.bedB.state = .heating)

/-- The lineup command that a mode and a phase ask for (R68): CLOSED where the train does not flow, the direction of flow
in INJECT and WITHDRAW, the last flowing direction in REVERSING until the dwell. -/
abbrev Train.lineupSound (t : Train) : Prop :=
  match t.mode with
  | .config | .listen | .idle | .hold | .shutIn => t.lineup = .closed ∧ t.demand = 0 ∧ t.phase = none
  | .inject => t.lineup = .inject ∧ t.phase = none ∧ t.lastFlow = some .inject
  | .withdraw => t.lineup = .withdraw ∧ t.phase = none ∧ t.lastFlow = some .withdraw
  | .reversing =>
    match t.phase, t.lastFlow with
    | some .ramp, some f => t.lineup = flowLineup f
    | some .dwell, some _ => t.lineup = .closed ∧ t.demand = 0
    | _, _ => False

/-- The compressor command follows the unit state (R88). -/
abbrev Compressor.commandSound (c : Compressor) : Prop := c.command = commandOf c.unit

/-- Out of CONFIG the intake holds every SETPOINT field as its owner's state stands (R71, R88, R106, R132). -/
abbrev State.setpointSound (s : State) : Prop := s.train.mode ≠ .config → s.intake.handed = currentFields s

end Sys2Proof.Machine
end

