-- ==== Sys2Proof/WellFormed.lean ====
section
/-! DEFINITION. The well-formed commands: every operand at a value that its field can carry (R144, R163, R168, R169). -/

namespace Sys2Proof

/-- A number that fits `n` bytes. -/
def fitsBytes (n v : Nat) : Bool := decide (v < 2 ^ (8 * n))

/-- A signed number that fits `n` bytes. -/
def fitsSigned (n : Nat) (v : Int) : Bool := decide (-2 ^ (8 * n - 1) ≤ v) && decide (v < 2 ^ (8 * n - 1))

/-- A source station: 1 to 31 (R144). -/
def isStation (n : Nat) : Bool := decide (1 ≤ n) && decide (n ≤ 31)

/-- A telegram's header: its source a station, its destination a byte (R144, R168). -/
def headerFits (src dst : Nat) : Bool := isStation src && fitsBytes 1 dst

/-- An ORDER's operands (R168). -/
def orderFits (src dst arg litres : Nat) : Bool := headerFits src dst && fitsBytes 1 arg && fitsBytes 4 litres

/-- A SAMPLE's fields (R169). -/
def Sample.wellFormed (p : Sample) : Bool :=
  fitsBytes 1 p.sequence && p.meter.all (fitsBytes 4) && p.cv.all (fitsBytes 4) && p.wellhead.all (fitsBytes 2)
    && p.wellheadTemp.all (fitsSigned 2) && p.header.all (fitsBytes 2) && p.suction.all (fitsBytes 2)
    && p.discharge.all (fitsBytes 2) && p.compFuel.all (fitsBytes 4) && p.heaterFuel.all (fitsBytes 4)
    && p.inletPressure.all (fitsBytes 2) && p.inletTemp.all (fitsSigned 2) && p.bedATemp.all (fitsSigned 2)
    && p.bedBTemp.all (fitsSigned 2) && p.dewPoint.all (fitsSigned 2)

/-- A command whose operands fit their fields. The strap pins give 0 to 31 and the slots are 0 to 23 (R163, R164). An
unknown order command lies outside the table of R160. -/
def Instr.wellFormed : Instr → Bool
  | .powerOnReset straps _ slots => decide (straps ≤ 31) && slots.all (fun n => decide (n ≤ 23))
  | .lineReset straps => decide (straps ≤ 31)
  | .time src dst day second => headerFits src dst && fitsBytes 2 day && fitsBytes 4 second
  | .noms src dst slot day hour rate =>
      headerFits src dst && fitsBytes 1 slot && fitsBytes 2 day && fitsBytes 1 hour && fitsSigned 4 rate
  | .offer src dst dir quantity share target mode unit =>
      headerFits src dst && fitsBytes 1 dir && fitsBytes 4 quantity && fitsBytes 4 share && fitsBytes 5 target
        && fitsBytes 1 mode && fitsBytes 1 unit
  | .invt src dst half day hour inventories =>
      headerFits src dst && fitsBytes 1 half && fitsBytes 2 day && fitsBytes 1 hour && decide (inventories.length = 8)
        && inventories.all (fitsSigned 6)
  | .claim src dst | .cede src dst | .join src dst | .resume src dst | .report src dst => headerFits src dst
  | .halt src dst reason => headerFits src dst && fitsBytes 1 reason
  | .orderShut src dst arg litres | .orderRelease src dst arg litres | .orderUnlock src dst arg litres
  | .orderBedOut src dst arg litres | .orderBedIn src dst arg litres | .orderAccept src dst arg litres
  | .orderCorrect src dst arg litres | .orderClear src dst arg litres | .orderRestart src dst arg litres =>
      orderFits src dst arg litres
  | .orderUnknownCommand src dst command arg litres =>
      orderFits src dst arg litres && fitsBytes 1 command && (decide (command = 0) || decide (10 ≤ command))
  | .unknownKind src dst kind => headerFits src dst && fitsBytes 1 kind
  | .dupStation kind => fitsBytes 1 kind
  | .sample record => record.all Sample.wellFormed
  | .clockSecond | .holdBackRunOut | .dayReportQueue | .receiveError | .sendStart | .arbitrationLost | .echoIntact
  | .echoMismatch | .lineHeld | .faultIdleWait | .setpointSendDone | .fieldLate | .fieldLost | .suspenseOld _
  | .listen30sMark | .listen120sMark | .startTimeout | .minStopElapsed | .minRunElapsed | .zeroDemand300s
  | .startHistoryAgeOut | .tripHistoryAgeOut | .headHoldExpiry | .heatMaximum _ | .coolMaximum _
  | .checkpointWriteDone | .ckptFail | .powerLoss => true

end Sys2Proof
end

