-- ==== Sys2Proof/Certificates/Slice0/Obligations.lean ====
section
/-! DEFINITION. The statements about the OK-620. "The order table of R…" and the like say which rule a statement formalises;
`State.steady`, `State.atWork`, `State.hears` and `State.obeys` (Safety) say when a command is taken. -/

open Sys2Proof Sys2Proof.Machine

/-! ### The step and the whole command set -/

/-- A step runs the command at the front of the queue on the state with the queue's rest; on an empty queue the block
idles, which is the model's choice (assumption 1). -/
def Obligations.StepRunsFront : Prop :=
  (∀ c rest s, s.pending = c :: rest → step s = exec c { s with pending := rest })
    ∧ ∀ s, s.pending = [] → step s = .next s

/-- Every command answers a next state in every state: the manual lets nothing stop the part. Without its supply the
part takes no command but POWER_ON_RESET (R166). That a part without supply takes no other command is the model's
reading (assumption 14). -/
def Obligations.TakesEveryCommand : Prop :=
  (∀ c s, ∃ t, exec c s = .next t)
    ∧ ∀ c s, s.powered = false → (∀ n u l, c ≠ .powerOnReset n u l) → exec c s = .next s

/-- The configuration image changes only at a power-on reset, which reads it, and at a loss of power, which loses it; the
station number is latched from the strap pins by a power-on reset, a line reset and the line reset of a RESTART alone (R161,
R163); the command queue is the sender's. That the strap pins come with the reset commands is the model's choice (assumption
13). -/
def Obligations.OnlyResetsReconfigure : Prop :=
  ∀ c s t, exec c s = .next t → (∀ n u l, c ≠ .powerOnReset n u l) → c ≠ .powerLoss →
    t.port.image = s.port.image ∧ t.pending = s.pending ∧ (t.station = s.station ∨ t.station = t.straps)
      ∧ ((∀ n, c ≠ .lineReset n) → t.straps = s.straps
          ∧ ((∀ src dst arg litres, c ≠ .orderRestart src dst arg litres) → s.link.restartPending = false →
              t.station = s.station))

/-! ### Resets and the loss of power -/

/-- The values of the reset tables for "no checkpoint slot valid" (R12, R18, R32, R38, R55, R72, R85, R91, R107, R133, R143,
R155, R156, R157, R159). That the memory is unwritten and the straps are 0 is the model's choice (assumptions 2 and 10). -/
def Obligations.ResetValues : Prop :=
  let s := State.reset
  s.train.mode = .config ∧ s.train.demand = 0 ∧ s.train.lineup = .closed ∧ s.train.lastFlow = none ∧ s.train.dwell = none
    ∧ s.train.listenDone = false ∧ s.train.joinTime = none ∧ s.train.offer = 0 ∧ s.train.share = 0 ∧ s.train.ring.count = 0
    ∧ s.clock.day = 0 ∧ s.clock.second = 0 ∧ s.clock.synced = false ∧ s.clock.holdBack = 0 ∧ s.clock.refused = none
    ∧ s.acct.slots = List.replicate 17 {} ∧ s.acct.closedDay = none ∧ s.acct.cursor = 17 ∧ s.acct.restoredTotals = false
    ∧ s.acct.carryInject = 0 ∧ s.acct.carryWithdraw = 0
    ∧ s.nom.hourDir = none ∧ s.nom.confirmed = List.replicate 16 0 ∧ s.nom.target = 0
    ∧ s.nom.shippers.length = 16 ∧ (∀ n ∈ s.nom.shippers, n.current = 0 ∧ n.pending = [])
    ∧ s.comp.path = .compressed ∧ s.comp.capacity = 0 ∧ s.comp.unit = .stopping ∧ s.comp.command = .stop
    ∧ s.comp.starts = [] ∧ s.comp.trips = [] ∧ s.comp.startTimer = none ∧ s.comp.feedback = none
    ∧ s.dryer.bedA.state = .standby ∧ s.dryer.bedB.state = .standby ∧ s.dryer.dewHigh = false ∧ s.dryer.limit = none
    ∧ s.dryer.dryBlock = false ∧ s.link.state = .joining ∧ s.link.queue = [] ∧ s.link.refusalMark = false
    ∧ s.link.join = .absent ∧ s.link.haltSet = [] ∧ s.mon.sticky = List.replicate 31 false
    ∧ s.mon.counters = List.replicate 31 0 ∧ s.mon.exceptions = [] ∧ s.mon.lostCount = 0
    ∧ s.mon.summary = List.replicate 31 false ∧ s.peers.startQueue = []
    ∧ s.intake.sending = none ∧ s.intake.meter = {} ∧ s.intake.compFuel = {} ∧ s.intake.heaterFuel = {}
    ∧ s.intake.suspInject = none ∧ s.intake.suspWithdraw = none ∧ s.intake.held = {} ∧ s.intake.fieldLost = false
    ∧ causePins s = 1 ∧ Memory.wf s.ext.cells

/-- A power-on reset with no valid checkpoint slot. With a configuration block that fails its check, or is not read, the
part holds no image and stays in CONFIG with its power-on values, and no restore condition is raised; with a good block
and a listed station number it leaves CONFIG for LISTEN with its JOIN set up, its first SETPOINT under way, and
RESTORE_NONE raised (R23, R56, R150, R163, R164). What a power-on does to a write in progress is the model's reading
(assumption 15). -/
def Obligations.PowerOnFresh : Prop :=
  (∀ straps unread slots s, readImage unread (cutWrite s).ext = none →
    ∃ t, exec (.powerOnReset straps unread slots) s = .next t ∧ t.powered = true ∧ t.port.image = none
      ∧ t.station = straps ∧ t.train.mode = .config ∧ t.acct = {} ∧ t.nom = {} ∧ t.comp = {} ∧ t.dryer = {} ∧ t.mon = {}
      ∧ t.clock = {} ∧ t.link.join = .absent ∧ t.intake.sending = none ∧ causePins t = 1 ∧ t.ext = (cutWrite s).ext)
  ∧ ∀ straps unread slots s m, s.port.writing = none → readImage unread s.ext = some m → newestSlot slots s.ext = none →
    1 ≤ straps → straps ≤ 31 → straps ∈ m.expected →
    ∃ t, exec (.powerOnReset straps unread slots) s = .next t ∧ t.port.image = some m ∧ t.station = straps
      ∧ t.train.mode = .listen ∧ t.acct = {} ∧ t.nom = {} ∧ t.link.state = .joining ∧ t.link.join = .waiting
      ∧ t.port.nextSeq = 0 ∧ t.port.catchUp = false ∧ t.peers = freshPeers (m.expected.filter (· != straps))
      ∧ raisedOnce .restoreNone State.reset t ∧ (t.intake.sending.map (·.mode)) = some .listen ∧ t.ext = s.ext

/-- A power-on reset with a good block and a valid checkpoint slot takes from the newest one the accounts with their flags, the
closed-day set and the report cursor, the energy carries, the current rates, the pending lists and the confirmed rates of
the configured slots, the last flowing direction, the sequencer's histories and timers, the bed records, the baselines with
their restore marks and the suspense records without due markings; a carry outside its range is 0, and what no checkpoint
holds starts anew, the clock at day 0. It sets the ring cursor after the slot and makes a catch-up pending (R2, R12, R18, R32,
R38, R55, R85, R107, R133, R143, R164). A code in its range is taken as it is; one outside it is free (assumption 4). That
the sequence number wraps and that SUSPENSE_OLD is not raised again for a restored record that is 86,400 s old are the model's
readings (assumptions 28 and 27), and that a number out of its range is kept as read its choice (assumption 58); the codes of
the bed states are its reading too (assumption 6). -/
def Obligations.PowerOnRestores : Prop :=
  ∀ straps unread slots s m seq c, s.port.writing = none → readImage unread s.ext = some m →
    newestSlot slots s.ext = some (seq, c) → c.unit < 7 →
    let kept (x : Int) : Int :=
      if (if m.rounding = 1 then -5000000 ≤ x ∧ x ≤ 4999999 else 0 ≤ x ∧ x ≤ 9999999) then x else 0
    ∃ t, exec (.powerOnReset straps unread slots) s = .next t ∧ t.port.image = some m
      ∧ (∀ i < 17, (t.acct.slots.getD i {}).inventory = (c.slots.getD i {}).inventory
          ∧ (t.acct.slots.getD i {}).totals = (c.slots.getD i {}).totals)
      ∧ (∀ i < 17, (t.acct.slots.getD i {}).spaceOver = ((c.slots.getD i {}).spaceOver && m.configured i))
      ∧ t.acct.closedDay = (if c.closedPresent = true then some c.closedDay else none) ∧ t.acct.provisional = c.provisional
      ∧ (c.cursor ≤ 17 → t.acct.cursor = c.cursor)
      ∧ t.acct.closed = c.closed ∧ t.acct.restoredTotals = true ∧ t.acct.outstanding = false
      ∧ t.acct.carryInject = kept c.carryInject ∧ t.acct.carryWithdraw = kept c.carryWithdraw
      ∧ (∀ i < 16, t.nom.confirmed.getD i 0 = if m.configured (i + 1) then c.confirmed.getD i 0 else 0)
      ∧ t.nom.target = magnitudes t.nom.confirmed ∧ (c.hourDir < 3 → dirCode t.nom.hourDir = c.hourDir)
      ∧ (∀ i < 16, let n := c.nominees.getD i {}; let n' := t.nom.nominee (i + 1)
          (m.configured (i + 1) = true → n'.current = n.current ∧ (n.count ≤ 4 → n'.pending = n.places.take n.count))
          ∧ (m.configured (i + 1) = false → n'.current = 0 ∧ n'.pending = []))
      ∧ (c.lastFlow < 3 → dirCode t.train.lastFlow = c.lastFlow)
      ∧ (t.comp.unit = .stopping ∨ t.comp.unit = .tripped ∨ t.comp.unit = .lockout) ∧ t.comp.command = .stop
      ∧ (c.unit = 6 → t.comp.unit = .lockout) ∧ (c.unit = 5 → t.comp.unit = .tripped) ∧ t.comp.runTimer = c.runTimer
      ∧ t.comp.stopTimer = (if c.unit = 2 ∨ c.unit = 3 then 0 else c.stopTimer)
      ∧ t.comp.fuelCarry = (if c.fuelCarry ≤ 999 then c.fuelCarry else 0)
      ∧ (c.starts.count ≤ 3 → t.comp.starts = c.starts.places.take c.starts.count)
      ∧ (c.trips.count ≤ 3 → t.comp.trips = c.trips.places.take c.trips.count)
      ∧ (∀ bed, let b := (match bed with | .a => c.bedA | .b => c.bedB); let b' := t.dryer.bed bed
          (b.state < 5 → bedStateCode b'.state = b.state) ∧ b'.loading = b.loading
            ∧ b'.waterCarry = (if b.waterCarry ≤ 999999 then b.waterCarry else 0) ∧ b'.passage = b.passage
            ∧ b'.accumulator = b.accumulator ∧ b'.heaterCarry = (if b.heaterCarry ≤ 999 then b.heaterCarry else 0)
            ∧ b'.phaseTimer = if b.timer = 4294967295 then none else some b.timer)
      ∧ t.dryer.idleCarry = (if c.idleCarry ≤ 999 then c.idleCarry else 0)
      ∧ t.dryer.dewHigh = false ∧ t.dryer.limit = none ∧ t.dryer.dryBlock = false
      ∧ (let taken (b : Bool × Nat) : Baseline := if b.1 = true then { reading := some b.2, restoreMark := true } else {}
        t.intake.meter = taken c.meter ∧ t.intake.compFuel = taken c.compFuel ∧ t.intake.heaterFuel = taken c.heaterFuel)
      ∧ t.intake.meterSpan = 0 ∧ t.intake.volume = 0 ∧ t.intake.compWh = 0 ∧ t.intake.heaterWh = 0 ∧ t.intake.held = {}
      ∧ (∀ f, let r := (match f with | .inject => c.suspInject | .withdraw => c.suspWithdraw)
          (r.present = false → t.intake.suspense f = none)
          ∧ (r.present = true → t.intake.suspense f = some
              { openDay := r.openDay, openSecond := r.openSecond, age := r.age, span := r.span
                volume := if r.volumePresent = true then some r.volume else none, cv := r.cv, snapshot := r.snapshot
                due := none, oldRaised := decide (86400 ≤ r.age) }))
      ∧ t.port.nextSeq = (seq + 1) % 4294967296 ∧ t.port.catchUp = true ∧ t.port.stamp = some (c.stampDay, c.stampHour)
      ∧ t.clock = {} ∧ (t.train.mode = .listen ∨ t.train.mode = .config)
      ∧ (straps ∈ m.expected → 1 ≤ straps → straps ≤ 31 → t.train.mode = .listen ∧ raisedOnce .restoreOld State.reset t)

/-- A line reset keeps the accounts, the confirmation, the beds, the histories, the clock, the halt set, the receive
counts, the meter's open interval and everything of the memory port; it empties the queue, the peer tables and the held
values, and makes the test for leaving CONFIG again; what stands in the queue after it is a restore condition's report, or
the OFFER of a train kept shut in by its halt set (R12, R23, R32, R55, R66, R72, R82, R85, R107, R133, R143, R155, R163).
That the pins come with the command is the model's choice (assumption 13), and that no restart is pending after it the
model's reading (assumption 70). A power loss ends all activity: every block is
lost, and the external memory stays, but for the slot of a checkpoint write in progress, which is left invalid (R164, R166).
What the lost blocks show is the model's reading (assumption 14), and the mark of an invalid slot its choice (assumption
5). -/
def Obligations.LineResetAndPowerLoss : Prop :=
  (∀ n s, s.powered = true →
      let leaves := s.port.image.isSome = true ∧ 1 ≤ n ∧ n ≤ 31 ∧ n ∈ s.cfg.expected
      ∃ t, exec (.lineReset n) s = .next t ∧ t.station = n
        ∧ t.clock = { s.clock with refused := none } ∧ t.acct = { s.acct with outstanding := false } ∧ t.nom = s.nom
        ∧ t.dryer = s.dryer ∧ t.ext = s.ext ∧ t.port = { s.port with note := t.port.note }
        ∧ t.peers = freshPeers (s.cfg.expected.filter (· != n))
        ∧ t.link.state = .joining ∧ t.link.haltSet = s.link.haltSet ∧ t.link.receiveErrors = s.link.receiveErrors
        ∧ t.link.discards = s.link.discards ∧ t.link.joinFailures = 0 ∧ t.link.restartPending = false
        ∧ (leaves → t.link.join = .waiting
            ∧ t.train.mode = if s.train.mode = .shutIn ∨ s.link.haltSet ≠ [] then .shutIn else .listen)
        ∧ (¬ leaves → t.link.join = .absent ∧ t.link.queue = [] ∧ t.train.mode = .config)
        ∧ t.link.refusalMark = false ∧ t.link.queue.length ≤ 2
        ∧ (∀ e ∈ t.link.queue, e.onLine = false
            ∧ ((∃ r, e.telegram = .condition r) ∨ ∃ u, e.telegram = .offer none 0 0 s.nom.target .shutIn u))
        ∧ (leaves → s.port.note = none →
            (s.train.mode = .shutIn ∨ s.link.haltSet = [] → t.link.queue = [])
            ∧ (s.train.mode ≠ .shutIn → s.link.haltSet ≠ [] →
                t.link.queue.map (·.telegram) = [.offer none 0 0 s.nom.target .shutIn t.comp.unit]))
        ∧ t.train.listenDone = false ∧ t.train.joinTime = none ∧ t.train.demand = 0 ∧ t.train.lineup = .closed
        ∧ t.train.offer = 0 ∧ t.train.share = 0 ∧ t.train.phase = none ∧ t.train.lastFlow = s.train.lastFlow
        ∧ t.train.dwell = (if s.train.mode = .reversing ∧ s.train.phase = some .ramp then some s.clock.index
            else s.train.dwell)
        ∧ t.comp.path = .compressed ∧ t.comp.unit = unitAfterReset s.comp.unit ∧ t.comp.command = .stop
        ∧ t.comp.starts = s.comp.starts ∧ t.comp.trips = s.comp.trips ∧ t.comp.runTimer = s.comp.runTimer
        ∧ t.comp.stopTimer = (if s.comp.unit = .starting ∨ s.comp.unit = .running then 0 else s.comp.stopTimer)
        ∧ t.comp.feedback = none ∧ t.comp.claimInFlight = false ∧ t.comp.cedePending = false
        ∧ t.intake.held = {} ∧ t.intake.lastSequence = none ∧ t.intake.fieldTimer = 0 ∧ t.intake.fieldLost = false
        ∧ t.intake.volume = s.intake.volume ∧ t.intake.meter = s.intake.meter ∧ t.intake.meterSpan = s.intake.meterSpan
        ∧ t.intake.suspInject = s.intake.suspInject.map Suspense.notDue
        ∧ t.intake.suspWithdraw = s.intake.suspWithdraw.map Suspense.notDue
        ∧ t.mon.sumInjected = s.mon.sumInjected ∧ t.mon.sumWithdrawn = s.mon.sumWithdrawn)
  ∧ ∀ s, s.powered = true →
    let start := slotAddress (slotOfSeq s.port.nextSeq)
    ∃ t, exec .powerLoss s = .next t
      ∧ t = { State.reset with powered := false, straps := s.straps, station := s.straps, pending := s.pending
                               ext := t.ext, freeDraws := t.freeDraws }
      ∧ (s.port.writing = none → t.ext = s.ext)
      ∧ (s.port.writing ≠ none → (∀ l, readSlot l t.ext (slotOfSeq s.port.nextSeq) = none)
          ∧ (∀ a, a < start ∨ start + slotBytes ≤ a → Memory.read t.ext.cells a = Memory.read s.ext.cells a)
          ∧ ∀ n l, n ≠ slotOfSeq s.port.nextSeq → readSlot l t.ext n = readSlot l s.ext n)

/-! ### The dryer's minute work -/

/-- The dryer's minute work in its six steps: the water of a withdrawal interval loads the ADSORBING bed; the heater fuel goes
to the HEATING bed, or is charged idle; the dew point sets and clears DEW_HIGH; a temperature at its target ends heating or
cooling; a loaded bed is switched out for a STANDBY one; the limit follows the table of R119, and DRY_BLOCK stands while it
is 0. Charges leave the inventories and enter the hour sum, and the valves and the heater are handed as the work leaves them
(R50, R106, R108 to R115, R118, R119, R120, R132, R162). That bed A comes
first when both beds end their cooling is the model's choice (assumption 48), and that the rate's products are exact beyond
64 bits its reading (assumption 55). -/
def Obligations.DryerMinute : Prop :=
  (∀ s r, s.sized → s.mon.sized → s.dryer.sound →
    let t := dryerMinute r s
    let g := s.cfg.dryer
    let w := intervalWater s r
    let out (bed : Bed) := switchedOut s r (t.dryer.bed bed).loading bed
    let burnt (bed : Bed) : Nat := (s.dryer.bed bed).accumulator + (s.dryer.bed bed).heaterCarry
    let charge (bed : Bed) : Nat := if coolingEnds s r bed then burnt bed / 1000 else 0
    let noHeat : Prop := s.dryer.bedA.state ≠ .heating ∧ s.dryer.bedB.state ≠ .heating
    let idle : Nat := if noHeat then (r.heaterWh + s.dryer.idleCarry) / 1000 else 0
    (∀ bed, let b := s.dryer.bed bed; let b' := t.dryer.bed bed
      (b.state = .adsorbing →
          (withdrawalInterval s r = true → 0 < r.volume →
            b'.loading = satAdd top32 b.loading ((r.volume * w + b.waterCarry) / 1000000)
              ∧ b'.waterCarry = (r.volume * w + b.waterCarry) % 1000000)
          ∧ (withdrawalInterval s r = false ∨ r.volume = 0 → b'.loading = b.loading ∧ b'.waterCarry = b.waterCarry))
      ∧ (b.state = .heating → b' = { b with
            accumulator := b.accumulator + r.heaterWh, state := if heatingEnds s r bed then .cooling else .heating
            phaseTimer := if heatingEnds s r bed then some 0 else b.phaseTimer })
      ∧ (coolingEnds s r bed = true → b'.loading = 0 ∧ b'.waterCarry = 0 ∧ b'.accumulator = 0
          ∧ b'.heaterCarry = burnt bed % 1000 ∧ b'.passage = List.replicate 17 0
          ∧ (out bed = false → b'.phaseTimer = none))
      ∧ (b.state = .cooling → coolingEnds s r bed = false → b' = b)
      ∧ (b.state = .out → b' = b)
      ∧ (b.state = .standby → out bed = false → b' = { b with state := b'.state })
      ∧ (b.state = .adsorbing → out bed = false → b' = { b with loading := b'.loading, waterCarry := b'.waterCarry })
      ∧ (out bed = true → b'.state = .heating ∧ b'.phaseTimer = some 0 ∧ (t.dryer.bed (otherBed bed)).state = .adsorbing)
      ∧ (out bed = false → (b.state = .adsorbing ∨ takenIn s r bed = true → b'.state = .adsorbing)
          ∧ (standsFree s r bed = true → takenIn s r bed = false → out (otherBed bed) = false → b'.state = .standby)))
    ∧ t.dryer.idleCarry = (if noHeat then (r.heaterWh + s.dryer.idleCarry) % 1000 else s.dryer.idleCarry)
    ∧ t.inventories.sum = s.inventories.sum - (idle + charge .a + charge .b : Nat)
    ∧ t.mon.sumHeater = s.mon.sumHeater + (idle + charge .a + charge .b)
    ∧ t.dryer.dewHigh = (dewAfter s r && !out .a && !out .b)
    ∧ (s.dryer.dewHigh = false ∧ dewAfter s r = true → raisedOnce .dewHigh s t)
    ∧ (¬ (s.dryer.dewHigh = false ∧ dewAfter s r = true) → notRaised .dewHigh s t)
    ∧ ((∀ bed, ¬ serves t.dryer bed) → t.dryer.limit = some 0)
    ∧ (∀ bed, serves t.dryer bed →
        let load := (t.dryer.bed bed).loading
        let o := t.dryer.bed (otherBed bed)
        let gone := o.phaseTimer.getD 0 / 60
        let left := max 1 (if o.state = .heating then (g.heatExpected - gone) + g.coolExpected else g.coolExpected - gone)
        let rate := (g.breakthroughLoad - load) * 60 / left * 1000 / w * r.cv / 10000
        (g.breakthroughLoad ≤ load → t.dryer.limit = some 0)
        ∧ (load < g.breakthroughLoad →
            (load < g.switchLoad ∧ t.dryer.dewHigh = false ∨ o.state = .standby → t.dryer.limit = none)
            ∧ (g.switchLoad ≤ load ∨ t.dryer.dewHigh = true → o.state ≠ .standby →
                (t.dryer.dewHigh = true ∨ o.state = .out → t.dryer.limit = some 0)
                ∧ (t.dryer.dewHigh = false → o.state ≠ .out →
                    t.dryer.limit = if w = 0 then none else some (min rate 2147483647)))))
    ∧ t.dryer.dryBlock = decide (t.dryer.limit = some 0)
    ∧ (s.dryer.dryBlock = false ∧ t.dryer.dryBlock = true → raisedOnce .dryBlock s t)
    ∧ (¬ (s.dryer.dryBlock = false ∧ t.dryer.dryBlock = true) → notRaised .dryBlock s t)
    ∧ t.train = s.train ∧ t.nom = s.nom ∧ t.clock = s.clock ∧ t.peers = s.peers ∧ t.comp = s.comp
    ∧ t.intake = s.intake.handing t.intake ∧ t.intake.handed = { s.intake.handed with
        valveA := valveOf t.dryer.bedA.state, valveB := valveOf t.dryer.bedB.state, heater := t.dryer.heater }
    ∧ (t.intake.handed = s.intake.handed → t.intake = s.intake)
    ∧ (t.intake.handed ≠ s.intake.handed → s.train.mode ≠ .config →
        (s.intake.sending = none → t.intake.sending = some t.intake.handed)
        ∧ (s.intake.sending ≠ none → t.intake.sendAgain = true))
    ∧ t.port = s.port ∧ t.ext = s.ext)
  ∧ ∀ table : List (Int × Nat), 0 < table.length → table.Pairwise (fun x y => x.1 < y.1) →
    (∀ x, tableGives table x (tableContent table (some x)))
      ∧ (∀ p ∈ table, p.2 ≤ tableContent table none) ∧ (∃ p ∈ table, p.2 = tableContent table none)
      ∧ ∀ temp pressure, waterContent table temp pressure = tableContent table temp * 10000 / max 100 (pressure.getD 100)

/-! ### The memory port -/

/-- A completed checkpoint write: the slot of the cursor's sequence number holds the checkpoint and its check, every
other byte of the memory is as it was, the cursor moves on by one, and a held checkpoint's write starts, whose slot reads as
invalid from then on; every other slot reads as before (R164, R166, R170). The memory is taken in its canonical form, which
every step keeps. That the sequence number wraps is the model's reading (assumption 28), and the held slot's mark and bytes
are its choice (assumption 5). -/
def Obligations.CheckpointWriteCompletes : Prop :=
  ∀ s c, s.powered = true → Memory.wf s.ext.cells → s.port.writing = some c →
    let start := slotAddress (slotOfSeq s.port.nextSeq)
    let bytes := checkpointBytes s.port.nextSeq c
    ∃ t, exec .checkpointWriteDone s = .next t
      ∧ bytes.length = slotBytes ∧ Memory.readBytes t.ext.cells start slotBytes = bytes
      ∧ (∀ a, a < start ∨ start + slotBytes ≤ a → Memory.read t.ext.cells a = Memory.read s.ext.cells a)
      ∧ slotOfSeq s.port.nextSeq ∉ t.ext.unfinished
      ∧ (s.port.waiting ≠ none → ∀ l, readSlot l t.ext (slotOfSeq t.port.nextSeq) = none)
      ∧ (∀ n l, n ≠ slotOfSeq s.port.nextSeq → (s.port.waiting ≠ none → n ≠ slotOfSeq t.port.nextSeq) →
          readSlot l t.ext n = readSlot l s.ext n)
      ∧ t.port.nextSeq = (s.port.nextSeq + 1) % 4294967296 ∧ t.port.writing = s.port.waiting ∧ t.port.waiting = none
      ∧ t = { s with port := t.port, ext := t.ext }

/-- A failed checkpoint write is abandoned: its slot is invalid, every other slot reads as before, CKPT_FAIL is raised,
the cursor stays, and a held checkpoint's write starts (R166). How the slot is marked invalid is the model's choice
(assumption 5). -/
def Obligations.CheckpointWriteFails : Prop :=
  ∀ s c, s.steady → s.mon.sized → s.port.writing = some c →
    ∃ t, exec .ckptFail s = .next t ∧ (∀ l, readSlot l t.ext (slotOfSeq s.port.nextSeq) = none)
      ∧ (∀ n l, n ≠ slotOfSeq s.port.nextSeq → readSlot l t.ext n = readSlot l s.ext n)
      ∧ raisedOnce .ckptFail s t ∧ t.port = { s.port with writing := s.port.waiting, waiting := none }
      ∧ t.acct = s.acct ∧ t.train = s.train ∧ t.comp = s.comp ∧ t.dryer = s.dryer

/-- Every command keeps the external memory in its canonical form. The form is the model's own (assumption 2). -/
def Obligations.MemoryStaysCanonical : Prop :=
  ∀ s t, Memory.wf s.ext.cells → step s = .next t → Memory.wf t.ext.cells

/-! ### The site clock -/

/-- A second absorbed into the hold-back: the standing time stays, the hold-back falls by 1, and the intake alone counts the
second; when it has run out, the event of R139 changes nothing more (the model's choice, assumption 8) and the next second
of the time base advances the clock again (R123, R135, R139). -/
def Obligations.HoldBack : Prop :=
  (∀ s, s.steady → 0 < s.clock.holdBack →
    ∃ t, exec .clockSecond s = .next t
      ∧ t = { s with clock := { s.clock with holdBack := s.clock.holdBack - 1 }
                     intake := s.intake.tick.handing t.intake }
      ∧ t.intake.fieldTimer = s.intake.fieldTimer + 1 ∧ t.intake.meterSpan = s.intake.meterSpan + 1
      ∧ t.intake.held = s.intake.held.tick
      ∧ t.intake.suspInject.map (·.age) = s.intake.suspInject.map (·.age + 1)
      ∧ t.intake.suspWithdraw.map (·.age) = s.intake.suspWithdraw.map (·.age + 1))
  ∧ ∀ s, s.steady → s.clock.holdBack = 0 → exec .holdBackRunOut s = .next s
    ∧ ∃ t, exec .clockSecond s = .next t ∧ t.clock = { s.clock with
        second := if s.clock.second = 86399 then 0 else s.clock.second + 1
        day := if s.clock.second = 86399 then (s.clock.day + 1) % 65536 else s.clock.day }

/-- A second on which the clock advances: the standing time, the sequencer's timers and ages, the head age, the phase timers
(except in CONFIG) and the intake's counts move on by 1 (`State.afterSecond`); without a boundary nothing else moves, but for
the handing of SETPOINT fields. At a minute boundary of a synchronized clock the blocks do one instant's work on that state,
in its order, with an hour's and a day's work when they coincide, and the open interval starts empty (R6, R30, R84, R91,
R104, R123, R130, R135, R136). The metering of a minute: the record holds the open interval, with the latest CV of the
interval, else the held one, which raises CV_HELD, else the default one, which raises CV_DEFAULT, unless the volume is 0; F
and the new fuel carry are the quotient and the rest of the fuel by 1,000; the interval is booked with F, then the due
records, injection first, with the bed that was ADSORBING as the interval closed, then comes the dryer's work (R34, R37, R53,
R101, R130). The order of two blocks that the rules leave open is the model's (assumption 7), and so is that a timer whose
mark falls on that second has its effect after this work (assumptions 54, 68 and 69). -/
def Obligations.ClockAdvances : Prop :=
  (∀ s, s.steady → s.clock.holdBack = 0 → (s.clock.synced = false ∨ (s.clock.second + 1) % 60 ≠ 0) →
    ∃ t, exec .clockSecond s = .next t
      ∧ t = { s.afterSecond with intake := s.afterSecond.intake.handing t.intake })
  ∧ (∀ s, s.steady → s.clock.holdBack = 0 → s.clock.synced = true →
    (s.clock.second + 1) % 60 = 0 →
    let u := instantWork (decide ((s.clock.second + 1) % 3600 = 0))
      (if s.clock.second = 86399 then some s.clock.day else none) s.afterSecond
    ∃ t, exec .clockSecond s = .next t ∧ t.clock = s.afterSecond.clock
      ∧ t = { u with intake := u.intake.handing t.intake }
      ∧ (s.train.mode ≠ .config → t.intake.volume = 0 ∧ t.intake.compWh = 0 ∧ t.intake.heaterWh = 0
          ∧ t.intake.samples = 0 ∧ t.intake.latestCv = none))
  ∧ ∀ s, s.mon.sized →
    let r := (meterMinute s).1
    let fuel : Nat := s.intake.compWh + s.comp.fuelCarry
    let u := (closeInterval s).2
    let bed : Option Bed :=
      if s.dryer.bedA.state = .adsorbing then some .a else if s.dryer.bedB.state = .adsorbing then some .b else none
    r.volume = s.intake.volume ∧ r.held = s.intake.held ∧ r.compWh = s.intake.compWh ∧ r.heaterWh = s.intake.heaterWh
      ∧ r.samples = s.intake.samples
      ∧ (∀ v, s.intake.latestCv = some v → r.cv = v ∧ notRaised .cvHeld s u ∧ notRaised .cvDefault s u)
      ∧ (∀ h, s.intake.latestCv = none → s.intake.held.cv = some h → r.cv = h.value.toNat ∧ notRaised .cvDefault s u
          ∧ (r.volume = 0 → notRaised .cvHeld s u)
          ∧ (0 < r.volume → raisedOnce .cvHeld s u ∧ recorded .cvHeld (fun e => e.slot = 0 ∧ e.value = r.cv) s u))
      ∧ (s.intake.latestCv = none → s.intake.held.cv = none → r.cv = s.cfg.defaultCv ∧ notRaised .cvHeld s u
          ∧ (r.volume = 0 → notRaised .cvDefault s u)
          ∧ (0 < r.volume → raisedOnce .cvDefault s u ∧ recorded .cvDefault (fun e => e.slot = 0 ∧ e.value = r.cv) s u))
      ∧ u = { s with mon := u.mon, link := u.link, intake := { s.intake with
          volume := 0, compWh := 0, heaterWh := 0, latestCv := none, samples := 0
          hourSamples := satAdd top16 s.intake.hourSamples s.intake.samples } }
      ∧ (meterMinute s).2 = dryerMinute r (bookSuspense .withdraw bed (bookSuspense .inject bed
          (bookInterval r.volume r.cv (fuel / 1000) { u with comp := { u.comp with fuelCarry := fuel % 1000 } })))
      ∧ (meterMinute s).2.comp = { s.comp with fuelCarry := fuel % 1000 }

/-- A TIME adopted by an unsynchronized clock: the standing time becomes the received one, the flag is set, no boundary is
raised, and the peer offers' times heard and the JOIN time move by the difference. With a catch-up pending, which a
restored stamp comes with, and the adopted hour later than the stamp's, one instant's work is done, a day close among it when
the gas day differs from the stamp's. A TIME whose second is above 86,399 changes nothing (R57, R78, R137, R164, R167). That
the test of LISTEN comes before the catch-up is the model's reading (assumption 33), and so is the order of the blocks in one
instant, in part its choice (assumption 7). -/
def Obligations.TimeAdopted : Prop :=
  ∀ s src dst day second, s.hears src dst → src = s.cfg.timeSource → s.clock.synced = false →
    (second ≤ 86399 → s.port.catchUp = false →
      let d := secondDifference s.clock.index (day * 86400 + second)
      ∃ t, exec (.time src dst day second) s = .next t
        ∧ t.clock = { s.clock with day := day, second := second, synced := true, refused := none }
        ∧ t.train.joinTime = s.train.joinTime.map (moveIndex · d)
        ∧ t.peers = { s.peers with offers := s.peers.offers.map (fun e =>
            { e with entry := e.entry.map (fun o => { o with heard := moveIndex o.heard d }) }) }
        ∧ t.acct = s.acct ∧ t.nom = s.nom ∧ t.comp = s.comp ∧ t.dryer = s.dryer ∧ t.mon = s.mon ∧ t.link = s.link
        ∧ t.port = s.port ∧ t.intake = s.intake.handing t.intake)
    ∧ (∀ sd sh, second ≤ 86399 → s.port.catchUp = true → s.port.stamp = some (sd, sh) →
      let d := secondDifference s.clock.index (day * 86400 + second)
      let v := s.afterStep d day second
      let u : State := listenTest { s with
        clock := { v.clock with holdBack := s.clock.holdBack }, peers := v.peers
        train := { v.train with dwell := s.train.dwell }, port := { s.port with catchUp := false } }
      let w := if 0 < hourDistance (hourIndex sd sh) (hourIndex day (second / 3600))
        then instantWork true (if day = sd then none else some sd) u else u
      ∃ t, exec (.time src dst day second) s = .next t ∧ t.port.catchUp = false
        ∧ t = { w with intake := w.intake.handing t.intake })
    ∧ (86399 < second →
      ∃ t, exec (.time src dst day second) s = .next t ∧ t = { s with intake := s.intake.handing t.intake })

/-- A TIME within 3,600 s of a synchronized clock's standing time that crosses no minute: a forward step, a backward step
within the minute, or a hold-back, by the table of R138. -/
def Obligations.TimeStepped : Prop :=
  ∀ s src dst day second, s.hears src dst → src = s.cfg.timeSource → s.clock.synced = true →
    day < 65536 → second ≤ 86399 → s.clock.day < 65536 → s.clock.second < 86400 →
    let d := secondDifference s.clock.index (day * 86400 + second)
    let m : Nat := s.clock.second % 60
    d.natAbs ≤ 3600 →
    ((0 ≤ d ∧ (m : Int) + d < 60) ∨ (d < 0 ∧ -d ≤ (m : Int)) →
      ∃ t, exec (.time src dst day second) s = .next t
        ∧ t.clock = { s.clock with day := day, second := second, holdBack := 0, refused := none }
        ∧ t.train = { s.train with
            joinTime := s.train.joinTime.map (moveIndex · d)
            dwell := if d < 0 then s.train.dwell.map (moveIndex · d) else s.train.dwell }
        ∧ t.peers = { s.peers with offers := s.peers.offers.map (PeerOffer.move d) }
        ∧ t = { s with clock := t.clock, train := t.train, peers := t.peers, intake := s.intake.handing t.intake })
    ∧ (d < 0 ∧ (m : Int) < -d →
      ∃ t, exec (.time src dst day second) s = .next t
        ∧ t = { s with clock := { s.clock with holdBack := d.natAbs, refused := none }, intake := s.intake.handing t.intake })

/-- A TIME more than 3,600 s away: the first two of a run are refused with CLOCK_STEP, and a third that agrees within 2 s is
taken, a backward one as a hold-back, a forward one as a step (R141). A forward step that reaches the next minute, large or
small, moves the standing time and raises one instant's work, with an hour's when it reaches the next hour and a day close
when it reaches the next gas day (R138, R140). The order of the blocks in one instant is the model's reading, in part its
choice (assumption 7). -/
def Obligations.LargeStepRefused : Prop :=
  (∀ s src dst day second, s.hears src dst → src = s.cfg.timeSource → s.clock.synced = true → second ≤ 86399 →
    s.mon.sized →
    let d := secondDifference s.clock.index (day * 86400 + second)
    3600 < d.natAbs →
    (∀ record, (s.clock.refused = none ∧ record = (1, d)
        ∨ (∃ e, s.clock.refused = some (1, e) ∧ (d - e).natAbs ≤ 2 ∧ record = (2, e))
        ∨ (∃ n e, s.clock.refused = some (n, e) ∧ 2 < (d - e).natAbs ∧ record = (1, d))) →
      ∃ t, exec (.time src dst day second) s = .next t ∧ t.clock = { s.clock with refused := some record }
        ∧ raisedOnce .clockStep s t ∧ t.train = s.train ∧ t.peers = s.peers ∧ t.acct = s.acct ∧ t.nom = s.nom)
    ∧ (∀ e, s.clock.refused = some (2, e) → (d - e).natAbs ≤ 2 → d < 0 →
      ∃ t, exec (.time src dst day second) s = .next t
        ∧ t = { s with clock := { s.clock with holdBack := d.natAbs, refused := none }
                       intake := s.intake.handing t.intake }))
  ∧ ∀ s src dst day second, s.hears src dst → src = s.cfg.timeSource → s.clock.synced = true →
    day < 65536 → second ≤ 86399 → s.clock.day < 65536 → s.clock.second < 86400 →
    let d := secondDifference s.clock.index (day * 86400 + second)
    60 ≤ ((s.clock.second % 60 : Nat) : Int) + d →
    (d ≤ 3600 ∨ ∃ e, s.clock.refused = some (2, e) ∧ (d - e).natAbs ≤ 2) →
    let u := instantWork (decide (3600 ≤ ((s.clock.second % 3600 : Nat) : Int) + d))
      (if 86400 ≤ (s.clock.second : Int) + d then some s.clock.day else none) (s.afterStep d day second)
    ∃ t, exec (.time src dst day second) s = .next t
      ∧ t.clock = { s.clock with day := day, second := second, holdBack := 0, refused := none }
      ∧ t = { u with intake := u.intake.handing t.intake }

/-! ### Nominations and confirmation -/

/-- A NOMS that fails a check changes no pending list and no current rate, and raises NOM_REFUSED with the slot and the
reason of the first check that fails (R14). -/
def Obligations.NomsRefused : Prop :=
  ∀ s src dst slot day hour rate, s.hears src dst → src = s.cfg.scheduling → s.mon.sized →
    (s.nom.nominee slot).pending.length ≤ 4 → nomsFailing s slot day hour rate ≠ 0 →
    ∃ t, exec (.noms src dst slot day hour rate) s = .next t ∧ t.nom = s.nom ∧ raisedOnce .nomRefused s t
      ∧ (s.cfg.escalates 7 = true → s.mon.exceptions.length < 8 → ∃ r ∈ t.mon.exceptions, r.code = 7
          ∧ r.slot = (if 1 ≤ slot ∧ slot ≤ 16 then slot else 0)
          ∧ r.value = nomsFailing s slot day hour rate)
      ∧ t.acct = s.acct ∧ t.train = s.train ∧ t.comp = s.comp ∧ t.clock = s.clock

/-- A NOMS that passes every check enters its slot's pending list: it replaces the rate of the entry for its hour, or is
added; the other entries, every other slot and the current rates stay, and no condition is raised (R14, R15). -/
def Obligations.NomsAccepted : Prop :=
  ∀ s src dst slot day hour rate, s.hears src dst → src = s.cfg.scheduling → s.nom.shippers.length = 16 →
    (s.nom.nominee slot).pending.length ≤ 4 → nomsFailing s slot day hour rate = 0 →
    let before := (s.nom.nominee slot).pending
    ∃ t, exec (.noms src dst slot day hour rate) s = .next t
      ∧ (∀ e, e ∈ (t.nom.nominee slot).pending ↔
          e = (hourIndex day hour, rate) ∨ (e ∈ before ∧ e.1 ≠ hourIndex day hour))
      ∧ (t.nom.nominee slot).pending.length = (if ∃ e ∈ before, e.1 = hourIndex day hour then before.length
          else before.length + 1)
      ∧ (t.nom.nominee slot).current = (s.nom.nominee slot).current
      ∧ (∀ i, 1 ≤ i → i ≠ slot → t.nom.nominee i = s.nom.nominee i)
      ∧ t.nom.confirmed = s.nom.confirmed ∧ t.nom.target = s.nom.target ∧ t.nom.hourDir = s.nom.hourDir
      ∧ t = { s with nom := t.nom, intake := s.intake.handing t.intake }

/-- Every step of a synchronized clock's part but a power-on reset keeps the law of the pending lists: at most four entries,
in strictly increasing effective hours, all later than the current hour; and the clock stays synchronized until the power is
lost (R14, R15, R16). -/
def Obligations.PendingsStaySound : Prop :=
  ∀ s t, (∀ n u l, s.pending.head? ≠ some (.powerOnReset n u l)) → s.clock.synced = true → s.pendingsSound →
    step s = .next t → t.pendingsSound ∧ (s.pending.head? ≠ some .powerLoss → t.clock.synced = true)

/-- The hour's work. Nominations: every pending entry left lies ahead of the current hour, and a slot that had an entry due
moves at the rate of its latest one (R15, R16). Confirmation: the hour direction is the sign of the sum of the current rates;
a configured slot whose rate has that sign is confirmed at the lesser of its rate and its right, every other at 0; the site
target is the sum of their magnitudes (R30, R31). The right is the booked rate times the factor that the slot's ratchet table
gives for its fill fraction, each rounded down, or for an injection the table's smallest factor while the view is incomplete
(R20, R21, R22, R26). Reports: a checkpoint is taken of the state as it stands, its write begun, so that its slot reads as
invalid, or held; both INVT halves and the HOURLY report are queued, and the four sums and five counts start from 0 (R27,
R162, R165, R166). That an HOURLY comes after the charges of its minute is the model's choice (assumption 7), and so are the
mark and the old bytes of a slot whose write has begun (assumption 5) and the unused places of a checkpoint (assumption
44). -/
def Obligations.HourConfirms : Prop :=
  (∀ s, let now := s.clock.hourIndex
    let t := nominationHour s
    t = { s with nom := t.nom }
    ∧ (∀ slot, let n := s.nom.nominee slot; let n' := t.nom.nominee slot
      (∀ e ∈ n'.pending, 0 < hourDistance now e.1 ∧ e ∈ n.pending)
        ∧ (∀ e ∈ n.pending, 0 < hourDistance now e.1 → e ∈ n'.pending)
        ∧ (n.pending.Pairwise (fun x y => hourDistance now x.1 < hourDistance now y.1) →
            ∀ e ∈ n.pending, hourDistance now e.1 ≤ 0 →
              (∀ x ∈ n.pending, hourDistance now x.1 ≤ 0 → hourDistance now x.1 ≤ hourDistance now e.1) →
              n'.current = e.2)
        ∧ ((∀ e ∈ n.pending, 0 < hourDistance now e.1) → n' = n))
    ∧ t.nom.hourDir = directionOf t.nom.total ∧ t.nom.confirmed.length = 16 ∧ t.nom.target = magnitudes t.nom.confirmed
    ∧ (t.nom.hourDir = none → ∀ r ∈ t.nom.confirmed, r = 0)
    ∧ (∀ f, t.nom.hourDir = some f → ∀ slot, 1 ≤ slot → slot ≤ 16 →
        let rate := (t.nom.nominee slot).current
        let r := t.nom.confirmed.getD (slot - 1) 0
        (s.cfg.configured slot = true ∧ hasSign f rate = true →
          r.natAbs = min rate.natAbs (slotRight s slot f) ∧ (r = 0 ∨ hasSign f r = true))
        ∧ (¬ (s.cfg.configured slot = true ∧ hasSign f rate = true) → r = 0)))
  ∧ (∀ s slot f, s.cfg.configured slot = true →
    let table := s.cfg.ratchet slot f
    let complete : Prop := ∀ v ∈ s.peers.view, v.half1 ≠ none ∧ v.half2 ≠ none
    s.siteInventory slot = s.inventory slot + (s.peers.view.map (fun v =>
        ((if slot ≤ 8 then v.half1 else v.half2).getD []).getD ((slot - 1) % 8) 0)).sum
      ∧ (0 < table.length → table.Pairwise (fun x y => x.1 < y.1) →
        ∃ k, slotRight s slot f = (if f = .inject then (s.cfg.shipper slot).ib else (s.cfg.shipper slot).wb) * k / 1000
          ∧ (f = .inject → ¬ complete → (∃ p ∈ table, k = p.2) ∧ ∀ p ∈ table, k ≤ p.2)
          ∧ (f = .withdraw ∨ complete → tableGives (table.map (fun p => ((p.1 : Int), p.2)))
              (max 0 (min 1000 (1000 * s.siteInventory slot / ((s.cfg.shipper slot).space : Int)))) k)))
  ∧ ∀ s, let t := reportHour s
    t.mon.sumInjected = 0 ∧ t.mon.sumWithdrawn = 0 ∧ t.mon.sumCompFuel = 0 ∧ t.mon.sumHeater = 0
    ∧ t.intake = { s.intake with checkFailures := 0, sequenceGaps := 0, hourSamples := 0 }
    ∧ t.link.receiveErrors = 0 ∧ t.link.discards = 0
    ∧ t.ext.cells = s.ext.cells
    ∧ (s.port.writing = none → (∀ l, readSlot l t.ext (slotOfSeq s.port.nextSeq) = none)
        ∧ ∀ n l, n ≠ slotOfSeq s.port.nextSeq → readSlot l t.ext n = readSlot l s.ext n)
    ∧ (s.port.writing ≠ none → t.ext = s.ext)
    ∧ (∃ c, (s.port.writing = none → t.port = { s.port with writing := some c })
        ∧ (s.port.writing ≠ none → t.port = { s.port with waiting := some c })
        ∧ c = checkpointOf s ∧ c.stampDay = s.clock.day ∧ c.stampHour = s.clock.second / 3600
        ∧ c.slots = s.acct.slots ∧ c.cursor = s.acct.cursor ∧ c.closed = s.acct.closed
        ∧ c.carryInject = s.acct.carryInject ∧ c.carryWithdraw = s.acct.carryWithdraw
        ∧ c.confirmed = s.nom.confirmed ∧ c.target = s.nom.target ∧ c.nominees = s.nom.shippers.map saveNominee
        ∧ c.bedA = saveBed s.dryer.bedA ∧ c.bedB = saveBed s.dryer.bedB ∧ c.idleCarry = s.dryer.idleCarry
        ∧ c.fuelCarry = s.comp.fuelCarry ∧ c.runTimer = s.comp.runTimer ∧ c.stopTimer = s.comp.stopTimer
        ∧ c.suspInject = saveSuspense s.intake.suspInject ∧ c.suspWithdraw = saveSuspense s.intake.suspWithdraw)
    ∧ (s.train.mode ≠ .config → s.roomy →
        (∀ half, half = 1 ∨ half = 2 → t.waits (.invt half s.clock.day s.clock.hour
          ((List.range 8).map (fun i => s.inventory ((half - 1) * 8 + i + 1)))))
        ∧ t.waits (.hourly { mode := s.train.mode, hourDir := s.nom.hourDir, day := s.clock.day, hour := s.clock.hour
                             target := s.nom.target, injected := s.mon.sumInjected, withdrawn := s.mon.sumWithdrawn
                             compFuel := s.mon.sumCompFuel, heater := s.mon.sumHeater
                             rates := s.nom.confirmed.map (fun r =>
                               if s.nom.target = 0 then 0 else r.natAbs * 1000 / s.nom.target)
                             summary := s.mon.summary, sticky := s.mon.sticky
                             counts := [s.intake.checkFailures, s.intake.sequenceGaps, s.intake.hourSamples,
                               s.link.receiveErrors, s.link.discards] })
        ∧ t = { s with port := t.port, ext := t.ext, link := t.link, intake := t.intake
                       mon := { s.mon with sumInjected := 0, sumWithdrawn := 0, sumCompFuel := 0, sumHeater := 0 } })

/-! ### The peer tables -/

/-- An OFFER of a peer fills that peer's entry with its direction, offer and site target and the time now, and no other; the
diverge mark and TARGET_DIVERGE follow the table of R81; any other direction value changes nothing (R78, R81). -/
def Obligations.OfferTaken : Prop :=
  ∀ s src dst dir offer share target mode unit, s.hears src dst → src ∈ s.cfg.expected → s.mon.sized →
    let compared := s.clock.synced = true ∧ 60 ≤ s.clock.second % 3600
    let before := s.peers.divergeMark src
    ∃ t, exec (.offer src dst dir offer share target mode unit) s = .next t
      ∧ (2 < dir → t = { s with intake := s.intake.handing t.intake })
      ∧ (∀ d, dirOfCode dir = some d →
          t.peers = { s.peers with offers := s.peers.offers.map (fun e => if e.station = src then
            { e with entry := some { dir := d, offer := offer, target := target, heard := s.clock.index
                                     diverge := if compared then decide (target ≠ s.nom.target) else before } } else e) }
          ∧ (compared ∧ target ≠ s.nom.target ∧ before = false → raisedOnce .targetDiverge s t)
          ∧ (¬ (compared ∧ target ≠ s.nom.target ∧ before = false) → t.mon = s.mon ∧ t.link = s.link))
      ∧ t.nom = s.nom ∧ t.acct = s.acct ∧ t.train = s.train ∧ t.comp = s.comp ∧ t.clock = s.clock

/-- An INVT of a peer replaces that peer's half record and sets its heard flag; the other half, the other peers, the
confirmed hour and the accounts stay; any other half number changes nothing (R24, R32). -/
def Obligations.InvtTaken : Prop :=
  ∀ s src dst half day hour inventories, s.hears src dst → src ∈ s.cfg.expected →
    ∃ t, exec (.invt src dst half day hour inventories) s = .next t
      ∧ t.peers = { s.peers with view := s.peers.view.map (fun v => if v.station = src then
          { v with half1 := if half = 1 then some inventories else v.half1
                   half2 := if half = 2 then some inventories else v.half2 } else v) }
      ∧ (half ≠ 1 → half ≠ 2 → t = { s with intake := s.intake.handing t.intake })
      ∧ t.nom = s.nom ∧ t.acct.slots = s.acct.slots ∧ t.clock = s.clock ∧ t.dryer = s.dryer

/-- A CLAIM of a peer: ignored when its station stands in the copy, ignored and counted when the copy is full, else added at
the end, its head age 0 if the copy was empty. A CEDE of a peer removes its entry wherever it stands; the next head starts
from a head age of 0; a QUEUED unit whose own entry becomes head goes to STARTING with the command START and a start of age
0 in its history (R91, R92, R93). -/
def Obligations.StartQueueCopied : Prop :=
  (∀ s src dst, s.hears src dst → src ∈ s.cfg.expected →
    ∃ t, exec (.claim src dst) s = .next t
      ∧ (src ∈ s.peers.startQueue → t.peers = s.peers ∧ t.link = s.link)
      ∧ (src ∉ s.peers.startQueue → 8 ≤ s.peers.startQueue.length →
          t.peers = s.peers ∧ t.link = { s.link with discards := satAdd top16 s.link.discards 1 })
      ∧ (src ∉ s.peers.startQueue → s.peers.startQueue.length < 8 → t.link = s.link
          ∧ t.peers = { s.peers with startQueue := s.peers.startQueue ++ [src]
                                     headAge := if s.peers.startQueue = [] then 0 else s.peers.headAge })
      ∧ t = { s with peers := t.peers, link := t.link, intake := s.intake.handing t.intake })
  ∧ ∀ s src dst, s.hears src dst → src ∈ s.cfg.expected →
    ∃ t, exec (.cede src dst) s = .next t
      ∧ t.peers = { s.peers with
          startQueue := s.peers.startQueue.filter (· != src)
          headAge := if s.peers.startQueue.head? = some src then 0 else s.peers.headAge }
      ∧ (∀ rest, s.peers.startQueue = src :: s.station :: rest → s.comp.unit = .queued → s.train.mode ≠ .shutIn →
          t.comp.unit = .starting ∧ t.comp.command = .start ∧ t.comp.startTimer = some 0
            ∧ t.comp.starts.getLast? = some 0)
      ∧ t.acct.slots = s.acct.slots ∧ t.nom = s.nom ∧ t.train = s.train ∧ t.clock = s.clock ∧ t.dryer = s.dryer

/-- A JOIN of another station removes its entry from the start queue copy and empties its offer entry; both INVT halves and
an OFFER are queued with the state as it stands (R28, R78, R82, R92, R154). -/
def Obligations.JoinTaken : Prop :=
  ∀ s src dst, s.hears src dst → s.roomy →
    ∃ t, exec (.join src dst) s = .next t
      ∧ t.peers.startQueue = s.peers.startQueue.filter (· != src) ∧ t.peers.view = s.peers.view
      ∧ t.peers.offers = s.peers.offers.map (fun e => if e.station = src then { e with entry := none } else e)
      ∧ (∀ half, half = 1 ∨ half = 2 → t.waits (.invt half s.clock.day s.clock.hour
          ((List.range 8).map (fun i => s.inventory ((half - 1) * 8 + i + 1)))))
      ∧ (∃ u, t.waits (.offer s.train.offerDir s.train.offer s.train.share s.nom.target s.train.mode u))
      ∧ t.acct.slots = s.acct.slots ∧ t.nom = s.nom ∧ t.train = s.train ∧ t.clock = s.clock ∧ t.dryer = s.dryer

/-! ### The halt set and the receive filters -/

/-- A HALT adds its source to the halt set once, in every train mode; the set becoming non-empty shuts the train in, except
in CONFIG and in SHUT_IN. A RESUME removes its source and changes nothing else: it takes no train out of SHUT_IN. Under the
part's own number both are a duplicate's telegrams in every train mode: they take the link to SILENT, and the set stays (R56,
R66, R152, R153). That they do so in CONFIG too, beside R150's words on the link state there, is the model's reading
(assumption 12). -/
def Obligations.HaltSet : Prop :=
  (∀ s src dst reason, s.steady → src ≠ 0 → src ≠ s.station → (dst = 0 ∨ dst = s.station) →
    ∃ t, exec (.halt src dst reason) s = .next t
      ∧ t.link.haltSet = (if src ∈ s.link.haltSet then s.link.haltSet else s.link.haltSet ++ [src])
      ∧ (s.link.haltSet = [] → s.train.mode ≠ .config → s.train.mode ≠ .shutIn → takenToShutIn s t)
      ∧ (s.link.haltSet ≠ [] ∨ s.train.mode = .config ∨ s.train.mode = .shutIn →
          t = { s with link := { s.link with haltSet := t.link.haltSet }, intake := s.intake.handing t.intake })
      ∧ t.acct.slots = s.acct.slots ∧ t.nom = s.nom ∧ t.dryer = s.dryer ∧ t.clock = s.clock ∧ t.peers = s.peers)
  ∧ (∀ s src dst, s.steady → src ≠ 0 → src ≠ s.station → (dst = 0 ∨ dst = s.station) →
    ∃ t, exec (.resume src dst) s = .next t
      ∧ t = { s with link := { s.link with haltSet := s.link.haltSet.filter (· != src) }, intake := s.intake.handing t.intake })
  ∧ ∀ s dst reason, s.steady → s.station ≠ 0 →
    exec (.halt s.station dst reason) s = exec (.dupStation 8) s ∧ exec (.resume s.station dst) s = exec (.dupStation 9) s
      ∧ ∀ kind, kind = 8 ∨ kind = 9 → ∃ t, exec (.dupStation kind) s = .next t ∧ t.link.haltSet = s.link.haltSet
          ∧ t.link.state = .silent ∧ (s.link.state ≠ .silent → s.mon.sized → raisedOnce .dupStation s t)

/-- The receive filter (R149): a telegram is ignored in CONFIG, counted as a receive error from source 0, taken as a
duplicate under the part's own number, ignored when it is for another station, and discarded and counted when its source is
not recognised for its kind. One whose check fails grows the receive-error count alone, one of an unknown kind the discard
count alone; a REPORT is ignored and not counted. That a failed check is ignored in CONFIG is the model's reading
(assumption 12). -/
def Obligations.TelegramsFiltered : Prop :=
  (∀ s c src dst kind known, passedTelegram s c = some (src, dst, kind, known) → s.powered = true →
    (s.train.mode = .config → exec c s = .next s)
      ∧ (s.train.mode ≠ .config → src = 0 →
          exec c s = .next { s with link := { s.link with receiveErrors := satAdd top16 s.link.receiveErrors 1 } })
      ∧ (s.train.mode ≠ .config → src ≠ 0 → src = s.station → exec c s = exec (.dupStation kind) s)
      ∧ (s.train.mode ≠ .config → src ≠ 0 → src ≠ s.station → dst ≠ 0 → dst ≠ s.station → exec c s = .next s)
      ∧ (s.train.mode ≠ .config → src ≠ 0 → src ≠ s.station → (dst = 0 ∨ dst = s.station) → known = false →
          exec c s = .next { s with link := { s.link with discards := satAdd top16 s.link.discards 1 } }))
  ∧ ∀ s src dst kind, s.powered = true →
    (s.train.mode = .config → exec .receiveError s = .next s ∧ exec (.unknownKind src dst kind) s = .next s
        ∧ exec (.report src dst) s = .next s)
      ∧ (s.train.mode ≠ .config →
          exec .receiveError s
              = .next { s with link := { s.link with receiveErrors := satAdd top16 s.link.receiveErrors 1 } }
            ∧ (src ≠ 0 → src ≠ s.station → exec (.report src dst) s = .next s)
            ∧ (src ≠ 0 → src ≠ s.station → (dst = 0 ∨ dst = s.station) → exec (.unknownKind src dst kind) s
                = .next { s with link := { s.link with discards := satAdd top16 s.link.discards 1 } }))

/-- A telegram under the part's own number that is not its echo takes the link to SILENT from any state: what was on the line
waits again with its mismatch count as it was, the JOIN is dropped, offer, share and demand fall, and DUP_STATION is raised
once; in SILENT it raises nothing more (R69, R79, R145, R152). An echo mismatch puts the telegram back to waiting, one
mismatch more; the sixteenth takes it out of the queue with TX_FAIL, leaving the report cursor where it stands. A mismatch of
the JOIN in JOINING sets it waiting again, the third failure leads to FAULT with LINK_FAULT, offer and share falling to 0; in
FAULT the JOIN is given up; each mismatch grows the receive-error count (R10, R79, R145, R149, R150, R151). That the first comes instead of the second where R152 applies is the
model's reading (assumption 41). -/
def Obligations.DuplicatesAndMismatches : Prop :=
  (∀ s kind, s.atWork → s.mon.sized →
    ∃ t, exec (.dupStation kind) s = .next t
      ∧ (s.link.state = .silent → t = { s with intake := s.intake.handing t.intake })
      ∧ (s.link.state ≠ .silent → t.link.state = .silent ∧ t.link.join = .absent ∧ (∀ e ∈ t.link.queue, e.onLine = false)
          ∧ (s.roomy → ∀ x ∈ s.link.queue, x.telegram ≠ .claim → { x with onLine := false } ∈ t.link.queue)
          ∧ t.train = { s.train with offer := 0, share := 0, demand := t.train.demand }
          ∧ ((s.train.offerDir = some .inject ∧ 0 ≤ s.train.demand) ∨ (s.train.offerDir = some .withdraw
              ∧ s.train.demand ≤ 0) ∨ s.train.offerDir = none → t.train.demand = 0)
          ∧ raisedOnce .dupStation s t ∧ 4 ∈ alertCauses t)
      ∧ t.acct.slots = s.acct.slots ∧ t.nom = s.nom ∧ t.dryer = s.dryer ∧ t.clock = s.clock ∧ t.peers = s.peers)
  ∧ (∀ s a e b, s.atWork → s.mon.sized → s.sends a e b →
    ∃ t, exec .echoMismatch s = .next t ∧ t.acct.slots = s.acct.slots ∧ t.train = s.train ∧ t.dryer = s.dryer
      ∧ t.link.receiveErrors = satAdd top16 s.link.receiveErrors 1
      ∧ (e.mismatches + 1 < 16 → t = { s with intake := s.intake.handing t.intake, link := { s.link with
          queue := a ++ { e with onLine := false, mismatches := e.mismatches + 1 } :: b
          receiveErrors := t.link.receiveErrors } })
      ∧ (16 ≤ e.mismatches + 1 → raisedOnce .txFail s t ∧ (∀ x ∈ t.link.queue, x.onLine = false)
          ∧ (e.ticket < s.link.nextTicket → ∀ x ∈ t.link.queue, x.ticket ≠ e.ticket)
          ∧ (s.roomy → ∀ x ∈ a ++ b, x.telegram ≠ .claim → x ∈ t.link.queue)
          ∧ t.acct.cursor = s.acct.cursor ∧ (e.owner = .dayCursor → t.acct.outstanding = false)))
  ∧ ∀ s, s.atWork → s.mon.sized → s.link.join = .onLine →
    ∃ t, exec .echoMismatch s = .next t ∧ t.acct.slots = s.acct.slots ∧ t.dryer = s.dryer
      ∧ t.link.receiveErrors = satAdd top16 s.link.receiveErrors 1
      ∧ (s.link.state = .joining → s.link.joinFailures < 2 →
          t = { s with intake := s.intake.handing t.intake
                       link := { s.link with
                         join := .waiting, joinFailures := s.link.joinFailures + 1
                         receiveErrors := t.link.receiveErrors } })
      ∧ (s.link.state = .joining → 2 ≤ s.link.joinFailures → t.link.state = .fault ∧ t.link.join = .absent
          ∧ t.train.offer = 0 ∧ t.train.share = 0 ∧ raisedOnce .linkFault s t ∧ 4 ∈ alertCauses t)
      ∧ (s.link.state = .fault → t = { s with
          intake := s.intake.handing t.intake
          link := { s.link with join := .absent, receiveErrors := t.link.receiveErrors } })

/-! ### The orders of a console -/

/-- ORDER SHUT: answered DONE; a train that is not in SHUT_IN is shut in, one that is stays as it stands (R66, R160). -/
def Obligations.OrderShut : Prop :=
  ∀ s src dst arg litres, s.obeys src dst →
    ∃ t, exec (.orderShut src dst arg litres) s = .next t
      ∧ (s.train.mode ≠ .shutIn → takenToShutIn s t)
      ∧ (s.train.mode = .shutIn → t.train = s.train ∧ t.comp = s.comp)
      ∧ (s.roomy → t.waits (.reply { console := src, command := 1, arg := arg, litres := litres, outcome := .done }))
      ∧ t.acct.slots = s.acct.slots ∧ t.nom = s.nom ∧ t.dryer = s.dryer ∧ t.clock = s.clock ∧ t.peers = s.peers
      ∧ t.port = s.port ∧ t.ext = s.ext

/-- ORDER RELEASE, row by row: REFUSED_STATE out of SHUT_IN; REFUSED_HALT while a station stands in the halt set; else DONE,
and the train goes to HOLD while the field is lost, to IDLE when LISTEN is over or has been left since the last reset, to
LISTEN otherwise (R57, R67). -/
def Obligations.OrderRelease : Prop :=
  ∀ s src dst arg litres, s.obeys src dst →
    ∃ t o, exec (.orderRelease src dst arg litres) s = .next t
      ∧ (s.roomy → t.waits (.reply { console := src, command := 2, arg := arg, litres := litres, outcome := o }))
      ∧ (s.train.mode ≠ .shutIn → o = .refusedState ∧ t.train = s.train ∧ t.comp = s.comp)
      ∧ (s.train.mode = .shutIn → s.link.haltSet ≠ [] → o = .refusedHalt ∧ t.train = s.train ∧ t.comp = s.comp)
      ∧ (s.train.mode = .shutIn → s.link.haltSet = [] → o = .done ∧ 2 ∉ alertCauses t
          ∧ (s.intake.fieldLost = true → t.train.mode = .hold ∧ t.train.demand = 0 ∧ t.train.lineup = .closed)
          ∧ (s.intake.fieldLost = false → s.train.listenDone = true → t.train = { s.train with mode := .idle })
          ∧ (s.intake.fieldLost = false → s.train.listenDone = false →
              (listenOver s → t.train = { s.train with mode := .idle, listenDone := true })
              ∧ (¬ listenOver s → t.train = { s.train with mode := .listen })))
      ∧ t.link.haltSet = s.link.haltSet ∧ t.acct.slots = s.acct.slots ∧ t.nom = s.nom ∧ t.dryer = s.dryer
      ∧ t.clock = s.clock ∧ t.peers = s.peers

/-- ORDER UNLOCK: a TRIPPED or LOCKOUT unit goes to STOPPED with its trip history emptied, answered DONE, and claims a start
at once when one is wanted; any other is answered REFUSED_STATE (R89, R100). -/
def Obligations.OrderUnlock : Prop :=
  ∀ s src dst arg litres, s.obeys src dst →
    let blocked := s.comp.unit = .tripped ∨ s.comp.unit = .lockout
    let after : State := { s with comp := { s.comp with unit := .stopped, command := .stop, trips := [] } }
    ∃ t, exec (.orderUnlock src dst arg litres) s = .next t
      ∧ (blocked → t.comp = { after.comp with claimInFlight := t.comp.claimInFlight } ∧ 5 ∉ alertCauses t)
      ∧ (blocked → s.roomy → startDue after → t.comp.claimInFlight = true ∧ t.waits .claim)
      ∧ (¬ blocked → t.comp = s.comp)
      ∧ (s.roomy → ∃ o, (blocked → o = .done) ∧ (¬ blocked → o = .refusedState)
          ∧ t.waits (.reply { console := src, command := 3, arg := arg, litres := litres, outcome := o }))
      ∧ t.acct.slots = s.acct.slots ∧ t.nom = s.nom ∧ t.dryer = s.dryer ∧ t.clock = s.clock ∧ t.peers = s.peers
      ∧ t.train = s.train

/-- ORDER BED_OUT: REFUSED_ARG for a value that names no bed; else DONE, and a bed that is not OUT goes OUT with the bed
capacity as its loading, the other bed taken into service when it may be, DEW_HIGH cleared when the bed was ADSORBING, the
charge formed when it was HEATING or COOLING, and the demand held at 0 when a withdrawing train is left without a bed (R70,
R111, R115, R116, R118). ORDER BED_IN: an OUT bed goes to HEATING with its phase timer from 0, unless the other is HEATING
(R117). The valve of a bed gone OUT is handed as ISOLATE, that of one put back as REGEN with the heater ON (R106, R132). -/
def Obligations.BedOrders : Prop :=
  (∀ s src dst arg litres, s.obeys src dst →
    ∃ t o, exec (.orderBedOut src dst arg litres) s = .next t
      ∧ (s.roomy → t.waits (.reply { console := src, command := 4, arg := arg, litres := litres, outcome := o }))
      ∧ (arg ≠ 1 → arg ≠ 2 → o = .refusedArg ∧ t.dryer = s.dryer ∧ t.acct.slots = s.acct.slots ∧ t.train = s.train)
      ∧ (∀ bed, bedCode bed = arg → o = .done
          ∧ ((s.dryer.bed bed).state = .out → t.dryer = s.dryer ∧ t.acct.slots = s.acct.slots ∧ t.train = s.train)
          ∧ ((s.dryer.bed bed).state ≠ .out →
              (t.dryer.bed bed).state = .out ∧ (t.dryer.bed bed).loading = s.cfg.dryer.capacity
              ∧ (t.dryer.bed bed).phaseTimer = none
              ∧ (match bed with | .a => t.intake.handed.valveA | .b => t.intake.handed.valveB) = .isolate
              ∧ (t.intake.handed.heater = true ↔ (s.dryer.bed (otherBed bed)).state = .heating)
              ∧ t.dryer.bed (otherBed bed) = { s.dryer.bed (otherBed bed) with
                  state := if (s.dryer.bed bed).state = .adsorbing ∧ (s.dryer.bed (otherBed bed)).state = .standby
                    ∧ s.train.lineup = .withdraw then .adsorbing else (s.dryer.bed (otherBed bed)).state }
              ∧ t.dryer.dewHigh = (if (s.dryer.bed bed).state = .adsorbing then false else s.dryer.dewHigh)
              ∧ ((s.dryer.bed bed).state = .heating ∨ (s.dryer.bed bed).state = .cooling → charged s t bed)
              ∧ ((s.dryer.bed bed).state = .standby ∨ (s.dryer.bed bed).state = .adsorbing →
                  t.acct.slots = s.acct.slots)
              ∧ (s.train.mode = .withdraw → s.train.lineup = .withdraw →
                  (t.dryer.bed (otherBed bed)).state ≠ .adsorbing → t.train.demand = 0)))
      ∧ t.train = { s.train with demand := t.train.demand } ∧ t.nom = s.nom ∧ t.clock = s.clock ∧ t.peers = s.peers)
  ∧ ∀ s src dst arg litres, s.obeys src dst →
    ∃ t o, exec (.orderBedIn src dst arg litres) s = .next t
      ∧ (s.roomy → t.waits (.reply { console := src, command := 5, arg := arg, litres := litres, outcome := o }))
      ∧ (arg ≠ 1 → arg ≠ 2 → o = .refusedArg ∧ t.dryer = s.dryer)
      ∧ (∀ bed, bedCode bed = arg →
          let may := (s.dryer.bed bed).state = .out ∧ (s.dryer.bed (otherBed bed)).state ≠ .heating
          (may → o = .done ∧ t.dryer.bed bed = { s.dryer.bed bed with state := .heating, phaseTimer := some 0 }
            ∧ (match bed with | .a => t.intake.handed.valveA | .b => t.intake.handed.valveB) = .regen
            ∧ t.intake.handed.heater = true
            ∧ t.dryer.bed (otherBed bed) = s.dryer.bed (otherBed bed) ∧ t.dryer.dewHigh = s.dryer.dewHigh)
          ∧ (¬ may → o = .refusedState ∧ t.dryer = s.dryer))
      ∧ t = { s with dryer := t.dryer, link := t.link, mon := t.mon, intake := s.intake.handing t.intake }

/-- ORDER ACCEPT and CORRECT, row by row: REFUSED_ARG for a direction value outside INJECT and WITHDRAW, REFUSED_NONE without
a record (for ACCEPT, without a volume), REFUSED_STATE for a record that is due; else the record is made due, with the
litres the order books, and no reply is queued yet (R129). -/
def Obligations.SuspenseOrders : Prop :=
  ∀ s src dst arg litres (accept : Bool), s.obeys src dst →
    let command := if accept then 6 else 7
    let answered (t : State) (o : OrderOutcome) := (s.roomy → t.waits
        (.reply { console := src, command := command, arg := arg, litres := litres, outcome := o }))
      ∧ t.intake.suspInject = s.intake.suspInject ∧ t.intake.suspWithdraw = s.intake.suspWithdraw
    ∃ t, exec (if accept then .orderAccept src dst arg litres else .orderCorrect src dst arg litres) s = .next t
      ∧ (arg ≠ 1 → arg ≠ 2 → answered t .refusedArg)
      ∧ (∀ f, flowCode f = arg →
          (s.intake.suspense f = none → answered t .refusedNone)
          ∧ ∀ r, s.intake.suspense f = some r →
            (r.due ≠ none → answered t .refusedState)
            ∧ (r.due = none → accept = true → r.volume = none → answered t .refusedNone)
            ∧ (∀ v, r.due = none → (if accept then r.volume = some v else litres = v) → t.link = s.link
                ∧ t.intake.suspense f = some { r with
                    due := some { console := src, command := command, arg := arg, litres := litres, book := v } }
                ∧ t.intake.suspense (opposite f) = s.intake.suspense (opposite f)))
      ∧ t = { s with link := t.link, mon := t.mon
                     intake := { s.intake.handing t.intake with suspInject := t.intake.suspInject
                                                                suspWithdraw := t.intake.suspWithdraw } }

/-- ORDER CLEAR empties the condition monitor but for the hour sums, and withdraws ALERT cause 7; where the queue takes no
reply, TX_DROP alone is raised after the clear (assumptions 37 and 53). An ORDER with any other command value is answered
REFUSED_ARG and changes no block (R158, R159, R160). -/
def Obligations.OrderClear : Prop :=
  ∀ s src dst arg litres, s.obeys src dst →
    (∃ t, exec (.orderClear src dst arg litres) s = .next t
      ∧ (s.admits → 7 ∉ alertCauses t
          ∧ t.mon = { s.mon with sticky := List.replicate 31 false, counters := List.replicate 31 0, exceptions := []
                                 lostCount := 0, summary := List.replicate 31 false }
          ∧ t.waits (.reply { console := src, command := 8, arg := arg, litres := litres, outcome := .done }))
      ∧ (¬ s.admits → (∀ c, t.mon.sticky.getD (condCode c - 1) false = decide (c = .txDrop))
          ∧ (∀ c, c ≠ .txDrop → t.mon.counters.getD (condCode c - 1) 0 = 0
              ∧ t.mon.summary.getD (condCode c - 1) false = false)
          ∧ (∀ r ∈ t.mon.exceptions, r.code = 16) ∧ t.mon.lostCount = 0 ∧ t.link = s.link)
      ∧ t.mon.sumInjected = s.mon.sumInjected ∧ t.mon.sumWithdrawn = s.mon.sumWithdrawn
      ∧ t.mon.sumCompFuel = s.mon.sumCompFuel ∧ t.mon.sumHeater = s.mon.sumHeater
      ∧ t = { s with mon := t.mon, link := t.link, intake := s.intake.handing t.intake })
    ∧ ∀ command, s.admits → ∃ t, exec (.orderUnknownCommand src dst command arg litres) s = .next t
      ∧ t.waits (.reply { console := src, command := command, arg := arg, litres := litres, outcome := .refusedArg })
      ∧ t = { s with link := t.link, intake := s.intake.handing t.intake }

/-- ORDER RESTART: out of ACTIVE a line reset at once; in ACTIVE the reply DONE waits and the restart is pending; a reply
refused as it is queued gives the reset at once; while it is pending another is answered REFUSED_STATE. The reset is given
when the reply's send completes, at its sixteenth mismatch, when the OFFER of a HALT evicts it, and when the link enters FAULT
or SILENT by LINE_HELD, DUP_STATION or the third JOIN failure. No event leaves a restart pending without its reply in the
queue of an ACTIVE link; every other event is, while it is pending, what it is without, followed by the reset when the reply
or the ACTIVE link is gone (R145, R148, R151, R152, R161). That the reset latches the pins as last given is the model's
choice (assumption 13), that it ends the pending restart its reading (assumption 70), and that it comes at the event's end its
choice (assumption 57). -/
def Obligations.OrderRestart : Prop :=
  (∀ s src dst arg litres, s.obeys src dst →
    (s.link.state ≠ .active → exec (.orderRestart src dst arg litres) s = exec (.lineReset s.straps) s)
    ∧ (s.link.state = .active → s.roomy → ∃ t, exec (.orderRestart src dst arg litres) s = .next t
        ∧ t.link.restartPending = true ∧ t.link.state = .active
        ∧ t.waits (.reply { console := src, command := 9, arg := arg, litres := litres, outcome := .done })
        ∧ t = { s with link := t.link, intake := s.intake.handing t.intake }))
  ∧ (∀ s src dst arg litres, s.powered = true → s.train.mode ≠ .config → src ≠ 0 → src ≠ s.station → dst = s.station →
      src ∈ s.cfg.consoles → s.link.state = .active → s.link.restartPending = true →
      (∃ e ∈ s.link.queue, e.owner = .restart) → s.roomy →
      ∃ t, exec (.orderRestart src dst arg litres) s = .next t
        ∧ t.link.restartPending = true
        ∧ t.waits (.reply { console := src, command := 9, arg := arg, litres := litres, outcome := .refusedState })
        ∧ t = { s with link := t.link, intake := s.intake.handing t.intake })
  ∧ (∀ s src dst arg litres, s.obeys src dst → s.restartSound → s.link.state = .active → ¬ s.admits →
      ∃ t, exec (.orderRestart src dst arg litres) s = .next t ∧ restarted s t)
  ∧ (∀ s a e b, s.powered = true → s.train.mode ≠ .config → s.link.restartPending = true → s.sends a e b →
      e.owner = .restart → (∀ x ∈ a ++ b, x.owner ≠ .restart) →
      (∃ t, exec .echoIntact s = .next t ∧ restarted s t)
        ∧ (16 ≤ e.mismatches + 1 → ∃ t, exec .echoMismatch s = .next t ∧ restarted s t))
  ∧ (∀ s src dst reason e, s.powered = true → s.train.mode ≠ .config → s.train.mode ≠ .shutIn →
      s.link.restartPending = true → src ≠ 0 → src ≠ s.station → (dst = 0 ∨ dst = s.station) → s.link.haltSet = [] →
      s.link.queue.length = 12 → (∀ x ∈ s.link.queue, ∀ d w x' y z u, x.telegram ≠ .offer d w x' y z u) →
      e ∈ s.link.queue → e.owner = .restart → e.onLine = false → 2 ≤ telegramClass e.telegram →
      (∀ x ∈ s.link.queue, x ≠ e → x.owner ≠ .restart ∧ (x.onLine = false → x.ticket < e.ticket)) →
      ∃ t, exec (.halt src dst reason) s = .next t ∧ restarted s t ∧ t.link.haltSet = [src])
  ∧ (∀ s, s.powered = true → s.train.mode ≠ .config → s.link.restartPending = true →
      (s.link.state = .joining ∨ s.link.state = .active → ∃ t, exec .lineHeld s = .next t ∧ restarted s t)
      ∧ (s.link.state ≠ .silent → ∀ kind, ∃ t, exec (.dupStation kind) s = .next t ∧ restarted s t)
      ∧ (s.link.join = .onLine → s.link.state = .joining → 2 ≤ s.link.joinFailures →
          ∃ t, exec .echoMismatch s = .next t ∧ restarted s t))
  ∧ (∀ c s t, s.restartSound → exec c s = .next t → t.restartSound)
  ∧ ∀ c s t, s.restartSound → s.link.restartPending = true → (∀ n u l, c ≠ .powerOnReset n u l) → c ≠ .powerLoss →
      (∀ n, c ≠ .lineReset n) → (∀ src dst arg litres, c ≠ .orderRestart src dst arg litres) →
      exec c { s with link := { s.link with restartPending := false } } = .next t →
      let u : State := { t with link := { t.link with restartPending := true } }
      (u.restartSound → exec c s = .next u) ∧ (¬ u.restartSound → exec c s = exec (.lineReset u.straps) u)

/-! ### Sending on the line -/

/-- At an idle line the first entry goes onto the line in ACTIVE, the JOIN that waits in JOINING and FAULT, and nothing
in SILENT or while a telegram of the part is on the line; arbitration lost leaves it waiting again at its own place, its
mismatch count unchanged (R144, R145, R150, R151, R152). That a command which finds nothing to do changes nothing is the
model's choice (assumption 38). -/
def Obligations.LineTaken : Prop :=
  (∀ s, s.powered = true → s.train.mode ≠ .config →
    ∃ t, exec .sendStart s = .next t
      ∧ (s.link.join = .onLine ∨ (∃ e ∈ s.link.queue, e.onLine = true) → t = s)
      ∧ (s.link.join ≠ .onLine → (∀ e ∈ s.link.queue, e.onLine = false) →
          (s.link.state = .silent → t = s)
          ∧ (s.link.state = .active → t = { s with link := { s.link with
              queue := (s.link.queue.take 1).map (fun e => { e with onLine := true }) ++ s.link.queue.drop 1 } })
          ∧ (s.link.state = .joining ∨ s.link.state = .fault → t = { s with link := { s.link with
              join := if s.link.join = .waiting then .onLine else s.link.join } })))
  ∧ ∀ s, s.powered = true → ∃ t, exec .arbitrationLost s = .next t
      ∧ t = { s with link := { s.link with
          join := if s.link.join = .onLine then .waiting else s.link.join
          queue := s.link.queue.map (fun e => { e with onLine := false }) } }

/-- The intact echo of the JOIN makes the link ACTIVE, empties the JOIN and its failure count, and makes the site time the
JOIN time; the mode stays (R57, R150, R151). -/
def Obligations.JoinCompletes : Prop :=
  ∀ s, s.atWork → s.link.join = .onLine →
    ∃ t, exec .echoIntact s = .next t ∧ t.link.state = .active ∧ t.link.join = .absent ∧ t.link.joinFailures = 0
      ∧ t.train = { s.train with joinTime := some s.clock.index } ∧ t.acct.slots = s.acct.slots ∧ t.nom = s.nom
      ∧ t.clock = s.clock ∧ t.dryer = s.dryer ∧ t.peers = s.peers

/-- The intact echo of a queued telegram takes it out of the queue and tells its owner: a DAY report moves the cursor to the
next slot that gets one; the part's CLAIM enters the copy, where a STOPPED unit that still wants a start is QUEUED, or
STARTING at the head, and any other cedes, as one whose copy is full does; the part's CEDE takes its entry out of the copy,
a QUEUED unit with it, a STARTING one starts on, and a unit whose start has lost its ground meanwhile cedes anew (R9, R11, R90
to R95, R145). -/
def Obligations.EchoCompletes : Prop :=
  ∀ s a e b, s.atWork → s.sends a e b →
    ∃ t, exec .echoIntact s = .next t ∧ (∀ x ∈ t.link.queue, x.onLine = false)
      ∧ (e.ticket < s.link.nextTicket → ∀ x ∈ t.link.queue, x.ticket ≠ e.ticket)
      ∧ (s.roomy → ∀ x ∈ a ++ b, x.telegram ≠ .claim → x ∈ t.link.queue)
      ∧ (e.owner = .dayCursor → nextReport s (s.acct.cursor + 1) t.acct.cursor ∧ t.acct.outstanding = false)
      ∧ (e.owner ≠ .dayCursor → t.acct.cursor = s.acct.cursor) ∧ (e.owner ≠ .sequencer → t.peers = s.peers)
      ∧ (e.owner = .sequencer → e.telegram = .claim → s.station ∉ s.peers.startQueue → s.peers.startQueue.length < 8 →
          t.peers.startQueue = s.peers.startQueue ++ [s.station]
          ∧ t.peers.headAge = (if s.peers.startQueue = [] then 0 else s.peers.headAge)
          ∧ (wants s → s.comp.unit = .stopped → t.comp.claimInFlight = false
              ∧ t.comp.unit = if s.peers.startQueue = [] then .starting else .queued)
          ∧ (¬ (wants s ∧ s.comp.unit = .stopped) → s.comp.cedePending = false → s.roomy →
              t.waits .cede ∧ t.comp.cedePending = true)
          ∧ (¬ wants s → s.comp.unit = .stopped → t.comp.unit = .stopped)
          ∧ (s.comp.unit = .stopping ∨ s.comp.unit = .tripped ∨ s.comp.unit = .lockout → t.comp.unit = s.comp.unit))
      ∧ (e.owner = .sequencer → e.telegram = .claim → s.station ∉ s.peers.startQueue → 8 ≤ s.peers.startQueue.length →
          t.peers = s.peers ∧ t.link.discards = satAdd top16 s.link.discards 1
          ∧ (s.comp.cedePending = false → s.roomy → t.waits .cede ∧ t.comp.cedePending = true))
      ∧ (e.owner = .sequencer → e.telegram = .cede →
          t.peers.startQueue = s.peers.startQueue.filter (· != s.station)
          ∧ (s.comp.unit ≠ .queued → s.comp.unit ≠ .starting → s.comp.unit ≠ .stopped → t.comp.cedePending = false)
          ∧ (s.comp.unit = .stopped → t.comp.cedePending = false)
          ∧ (s.comp.unit = .starting →
              (s.train.mode ≠ .shutIn → t.comp.unit = .starting ∧ t.comp.cedePending = false)
              ∧ (s.train.mode = .shutIn → t.comp.unit = .stopping ∧ t.comp.command = .stop ∧ t.comp.stopTimer = 0
                  ∧ (s.roomy → t.comp.cedePending = true ∧ t.waits .cede)))
          ∧ (s.comp.unit = .queued →
              (s.station ∈ s.peers.startQueue → t.comp.unit = .stopped ∧ t.comp.cedePending = false)
              ∧ (s.station ∉ s.peers.startQueue → wants s → t.comp.unit = .queued ∧ t.comp.cedePending = false)
              ∧ (s.station ∉ s.peers.startQueue → ¬ wants s → t.comp.unit = .stopped
                  ∧ (s.roomy → t.comp.cedePending = true ∧ t.waits .cede))))
      ∧ t.acct.slots = s.acct.slots ∧ t.nom = s.nom ∧ t.train = s.train ∧ t.clock = s.clock ∧ t.dryer = s.dryer

/-! ### The compressor's feedbacks, its path and its capacity -/

/-- The compressor feedback of an accepted SAMPLE: a trip is taken on a trip edge, except in LOCKOUT, and on STOPPED while
RUNNING: its entry of age 0 joins the young ones, COMP_TRIP is raised, the third makes LOCKOUT with COMP_LOCKOUT, the stop
timer starts from 0, and a start or a claim under way is ceded or withdrawn; else a start completes, a stop completes, a
TRIPPED unit may restart by itself, and VOID changes nothing; after a reset the first feedback settles a STOPPING unit (R85,
R94, R95, R97, R98, R99). The RUN of a completed start is handed, and sent unless a send is in progress, also when R96 stops
the unit in the same event, whose STOP is handed after it (R88, R96, R132). What an edge is after a trip on STOPPED is the model's reading (assumption 49), and so is the stop
timer of a unit that settles TRIPPED (assumption 17). In the minute work the path follows the differential with its band, and
the capacity its table (R86, R87), and the start-limit mark stands while the unit is held back by its start limit, which
raises START_LIMIT once (R89); that pressures too old leave the path without a direction is the model's (assumption 18). That
a TRIPPED feedback with no latest one is an edge is its reading (assumption 25), and so is that a unit restarts by itself in
CONFIG too (assumption 32), and that an auto-restart byte of 1 is set (assumption 62). -/
def Obligations.FeedbacksAndPath : Prop :=
  (∀ s p f, s.steady → s.mon.sized → s.intake.lastSequence ≠ some p.sequence → p.feedback = some f →
    let settles := s.comp.unit = .stopping ∧ s.comp.awaiting = true
    let trip := ¬ settles ∧ s.comp.unit ≠ .lockout
      ∧ (f = .tripped ∧ s.comp.feedback ≠ some .tripped ∨ s.comp.unit = .running ∧ f = .stopped)
    let young : List Nat := s.comp.trips.filter (· < 86400)
    ∃ t, exec (.sample (some p)) s = .next t ∧ t.comp.feedback = some f ∧ t.comp.awaiting = false
      ∧ (trip → t.comp.trips = young ++ [0] ∧ t.comp.unit = (if 2 ≤ young.length then .lockout else .tripped)
          ∧ t.comp.command = .stop ∧ t.comp.stopTimer = 0 ∧ raisedOnce .compTrip s t
          ∧ (2 ≤ young.length → raisedOnce .compLockout s t) ∧ (young.length < 2 → notRaised .compLockout s t)
          ∧ (s.comp.unit = .starting → t.comp.startTimer = none)
          ∧ (s.comp.unit = .queued ∨ s.comp.unit = .starting → s.comp.cedePending = false → s.train.mode ≠ .config →
              s.roomy → t.comp.cedePending = true ∧ t.waits .cede)
          ∧ (s.comp.unit = .stopped → s.comp.claimInFlight = true → (∃ e ∈ s.link.queue, e.telegram = .claim
                ∧ e.onLine = false) →
              t.comp.claimInFlight = false ∧ ∀ e ∈ t.link.queue, e.telegram = .claim → e.onLine = true))
      ∧ (¬ trip → t.comp.trips = s.comp.trips ∧ notRaised .compTrip s t ∧ notRaised .compLockout s t
          ∧ (settles → t.comp.unit = (match f with
                | .stopped => .stopped
                | .tripped => .tripped
                | .starting | .running => .stopping)
              ∧ (f = .tripped → t.comp.stopTimer = 0))
          ∧ (s.comp.unit = .starting → f = .running → s.train.mode ≠ .shutIn → s.train.mode ≠ .hold → 0 < s.cfg.minRun →
              t.comp.unit = .running ∧ t.comp.command = .run ∧ t.comp.runTimer = 0 ∧ t.comp.startTimer = none
              ∧ (s.comp.cedePending = false → s.train.mode ≠ .config → s.roomy →
                  t.comp.cedePending = true ∧ t.waits .cede))
          ∧ (s.comp.unit = .starting → f = .running → s.train.mode ≠ .config → s.intake.handed.command ≠ .run →
              (s.intake.sending = none → t.intake.sending = some { s.intake.handed with command := .run }
                ∧ t.intake.sendAgain = true)
              ∧ (s.train.mode = .shutIn ∨ s.cfg.minRun = 0 ∧ s.train.mode ≠ .hold ∧ (s.comp.path = .free
                    ∨ 300 ≤ s.comp.zeroDemand ∨ s.train.mode = .idle ∨ s.train.mode = .listen) →
                  t.comp.unit = .stopping ∧ t.comp.command = .stop ∧ t.comp.stopTimer = 0
                    ∧ t.intake.handed.command = .stop))
          ∧ (¬ settles → s.comp.unit = .stopping → t.comp.unit = if f = .stopped then .stopped else .stopping)
          ∧ (s.comp.unit = .tripped → t.comp.unit = if f = .stopped ∧ s.cfg.autoRestart = 1
              ∧ s.cfg.minStop * 60 ≤ s.comp.stopTimer then .stopped else .tripped)
          ∧ (s.comp.unit = .running → s.train.mode ≠ .hold → ¬ stopDue s → t.comp.unit = .running)
          ∧ (s.comp.unit = .stopped ∨ s.comp.unit = .lockout → t.comp.unit = s.comp.unit)))
  ∧ (∀ s p, s.steady → s.mon.sized → s.intake.lastSequence ≠ some p.sequence → p.feedback = none →
    ∃ t, exec (.sample (some p)) s = .next t ∧ t.comp.feedback = s.comp.feedback ∧ t.comp.awaiting = s.comp.awaiting
      ∧ t.comp.trips = s.comp.trips ∧ notRaised .compTrip s t)
  ∧ ∀ s r, s.mon.sized →
    let t := sequencerMinute r s
    let dir := match s.train.mode with
      | .inject => some .inject
      | .withdraw => some .withdraw
      | .reversing => s.train.lastFlow
      | .config | .listen | .idle | .hold | .shutIn => s.nom.hourDir
    t.comp = { s.comp with path := t.comp.path, capacity := t.comp.capacity, startLimit := t.comp.startLimit }
      ∧ (dir = none → t.comp.path = s.comp.path)
      ∧ (∀ f, dir = some f →
          (fresh r.held.header = none ∨ fresh r.held.wellhead = none → t.comp.path = .compressed)
          ∧ ∀ h p d, fresh r.held.header = some h → fresh r.held.wellhead = some p →
              (f = .inject → d = h - p) → (f = .withdraw → d = p - h) →
              (s.comp.path = .free → t.comp.path = if d < s.cfg.margin then .compressed else .free)
              ∧ (s.comp.path = .compressed →
                  t.comp.path = if (s.cfg.margin : Int) + s.cfg.band ≤ d then .free else .compressed))
      ∧ (fresh r.held.suction = none ∨ fresh r.held.discharge = none → t.comp.capacity = 0)
      ∧ (∀ su di : Nat, fresh r.held.suction = some (su : Int) → fresh r.held.discharge = some (di : Int) →
          s.cfg.capacity.length = 6 → s.cfg.capacity.Pairwise (fun x y => x.1 < y.1) →
          let x := 1000 * di / max 100 su
          ((s.cfg.capacity.getD 5 (0, 0)).1 < x → t.comp.capacity = 0)
          ∧ (x ≤ (s.cfg.capacity.getD 5 (0, 0)).1 →
              tableGives (s.cfg.capacity.map (fun c => ((c.1 : Int), c.2))) x t.comp.capacity))
      ∧ (t.comp.startLimit = true ↔ (s.train.mode = .idle ∨ s.train.mode = .inject ∨ s.train.mode = .withdraw)
          ∧ s.nom.hourDir ≠ none ∧ t.comp.path = .compressed ∧ s.comp.unit = .stopped
          ∧ s.cfg.minStop * 60 ≤ s.comp.stopTimer ∧ 3 ≤ (s.comp.starts.filter (· < 3600)).length)
      ∧ (t.comp.startLimit = true ∧ s.comp.startLimit = false → raisedOnce .startLimit s t)
      ∧ (¬ (t.comp.startLimit = true ∧ s.comp.startLimit = false) → t.mon = s.mon ∧ t.link = s.link)
      ∧ t = { s with comp := t.comp, mon := t.mon, link := t.link, acct := t.acct }

/-! ### The line out of service, and the DAY reports -/

/-- A line held busy takes a JOINING or ACTIVE link to FAULT, with nothing on the line, LINK_FAULT raised and offer,
share and demand fallen; a link in FAULT or SILENT stays. In FAULT, an idle second sets a JOIN up again (R69, R79,
R151). That an idle second elsewhere changes nothing is the model's choice (assumption 38). -/
def Obligations.LineFaults : Prop :=
  (∀ s, s.atWork → s.mon.sized →
    ∃ t, exec .lineHeld s = .next t
      ∧ (s.link.state = .fault ∨ s.link.state = .silent → t = { s with intake := s.intake.handing t.intake })
      ∧ (s.link.state = .joining ∨ s.link.state = .active →
          t.link.state = .fault ∧ t.link.join = .absent ∧ (∀ x ∈ t.link.queue, x.onLine = false)
          ∧ t.train = { s.train with offer := 0, share := 0, demand := t.train.demand }
          ∧ ((s.train.offerDir = some .inject ∧ 0 ≤ s.train.demand) ∨ (s.train.offerDir = some .withdraw
              ∧ s.train.demand ≤ 0) ∨ s.train.offerDir = none → t.train.demand = 0)
          ∧ raisedOnce .linkFault s t ∧ 4 ∈ alertCauses t)
      ∧ t.acct.slots = s.acct.slots ∧ t.nom = s.nom ∧ t.dryer = s.dryer ∧ t.peers = s.peers)
  ∧ ∀ s, s.powered = true → ∃ t, exec .faultIdleWait s = .next t
      ∧ (s.link.state = .fault → s.link.join = .absent → t = { s with link := { s.link with join := .waiting } })
      ∧ (s.link.state ≠ .fault ∨ s.link.join ≠ .absent → t = s)

/-- The DAY report of the slot the cursor comes to is queued, from the closed-day set, when the mode is not CONFIG, none
is outstanding and the occupancy is 5 or less; with no slot left the cursor is finished; otherwise nothing is queued
(R9). That the queueing is a command of its own is the model's choice (assumption 34). -/
def Obligations.DayReportQueued : Prop :=
  ∀ s, s.steady →
    let open_ := s.train.mode ≠ .config ∧ s.acct.outstanding = false ∧ s.link.queue.length ≤ 5
    ∃ t, exec .dayReportQueue s = .next t
      ∧ (¬ open_ → t = { s with intake := s.intake.handing t.intake })
      ∧ (open_ → nextReport s s.acct.cursor 17 →
          t = { s with intake := s.intake.handing t.intake, acct := { s.acct with cursor := 17 } })
      ∧ (∀ slot, open_ → s.link.refusalMark = false → slot ≤ 16 → nextReport s s.acct.cursor slot →
          let r := s.acct.closed.getD slot {}
          t.acct = { s.acct with cursor := slot, outstanding := true }
          ∧ t.waits (.day { day := s.acct.closedDay.getD 0, slot := slot
                            shipper := if slot = 0 then 0 else (s.cfg.shipper slot).code
                            totals := r.totals, inventory := r.inventory, spaceOver := r.spaceOver
                            provisional := s.acct.provisional })
          ∧ t = { s with acct := t.acct, link := t.link, intake := s.intake.handing t.intake })

/-! ### The field port -/

/-- A SAMPLE: one whose check fails is counted and one that repeats the latest sequence number is discarded, and neither
changes anything else. Any other is accepted: its sequence gap counted, the field timer at 0, the field-lost flag clear, each
held value replaced by a value in its range with a held time of 0, the lineup feedback taken, a train in HOLD let go to IDLE,
or to LISTEN and its test, or to SHUT_IN while a station halts it, and a SETPOINT sent or marked (R57, R65, R66, R122, R123,
R124, R132). -/
def Obligations.SampleTaken : Prop :=
  (∀ s, s.powered = true → exec (.sample none) s = .next { s with intake := { s.intake with
      checkFailures := satAdd top16 s.intake.checkFailures 1 } })
  ∧ (∀ s p, s.powered = true → s.intake.lastSequence = some p.sequence → exec (.sample (some p)) s = .next s)
  ∧ ∀ s p, s.steady → s.intake.lastSequence ≠ some p.sequence →
    let pressure (x : Option Nat) (before after : Option Held) := heldAfter 0 25000 (x.map Int.ofNat) before after
    let temperature (x : Option Int) (before after : Option Held) := heldAfter (-400) 3000 x before after
    ∃ t, exec (.sample (some p)) s = .next t
      ∧ t.intake.lastSequence = some p.sequence ∧ t.intake.fieldTimer = 0 ∧ t.intake.fieldLost = false
      ∧ t.intake.lateRaised = false ∧ t.intake.samples = s.intake.samples + 1 ∧ t.intake.lineup = p.lineup
      ∧ t.intake.checkFailures = s.intake.checkFailures ∧ t.intake.hourSamples = s.intake.hourSamples
      ∧ (∀ l, s.intake.lastSequence = some l → l < 256 → p.sequence < 256 → ∃ gap, gap < 256
          ∧ (l + 1 + gap) % 256 = p.sequence ∧ t.intake.sequenceGaps = satAdd top16 s.intake.sequenceGaps gap)
      ∧ (s.intake.lastSequence = none → t.intake.sequenceGaps = s.intake.sequenceGaps)
      ∧ heldAfter 1 200000 (p.cv.map Int.ofNat) s.intake.held.cv t.intake.held.cv
      ∧ pressure p.wellhead s.intake.held.wellhead t.intake.held.wellhead
      ∧ pressure p.header s.intake.held.header t.intake.held.header
      ∧ pressure p.suction s.intake.held.suction t.intake.held.suction
      ∧ pressure p.discharge s.intake.held.discharge t.intake.held.discharge
      ∧ pressure p.inletPressure s.intake.held.inletPressure t.intake.held.inletPressure
      ∧ temperature p.inletTemp s.intake.held.inletTemp t.intake.held.inletTemp
      ∧ temperature p.bedATemp s.intake.held.bedA t.intake.held.bedA
      ∧ temperature p.bedBTemp s.intake.held.bedB t.intake.held.bedB
      ∧ temperature p.dewPoint s.intake.held.dewPoint t.intake.held.dewPoint
      ∧ (∀ x, p.cv = some x → 1 ≤ x → x ≤ 200000 → t.intake.latestCv = some x)
      ∧ ((p.cv = none ∨ ∃ x, p.cv = some x ∧ (x < 1 ∨ 200000 < x)) → t.intake.latestCv = s.intake.latestCv)
      ∧ t.comp.feedback = (if p.feedback = none then s.comp.feedback else p.feedback)
      ∧ (s.train.mode ≠ .hold → t.train = { s.train with demand := t.train.demand }
          ∧ (t.train.demand = s.train.demand ∨ t.train.demand = 0))
      ∧ (s.train.mode = .hold → s.train.listenDone = true → t.train = { s.train with mode := .idle })
      ∧ (s.train.mode = .hold → s.train.listenDone = false → s.link.haltSet ≠ [] → t.train.mode = .shutIn)
      ∧ (s.train.mode = .hold → s.train.listenDone = false → s.link.haltSet = [] →
          (listenOver s → t.train = { s.train with mode := .idle, listenDone := true })
          ∧ (¬ listenOver s → t.train = { s.train with mode := .listen }))
      ∧ (s.train.mode ≠ .config → t.intake.sending ≠ none ∧ (s.intake.sending ≠ none → t.intake.sendAgain = true))
      ∧ (s.train.mode = .config → t.intake.meter = s.intake.meter ∧ t.intake.meterSpan = s.intake.meterSpan
          ∧ t.intake.volume = s.intake.volume ∧ t.intake.compFuel = s.intake.compFuel
          ∧ t.intake.heaterFuel = s.intake.heaterFuel)
      ∧ t.acct.slots = s.acct.slots ∧ t.nom = s.nom ∧ t.clock = s.clock ∧ t.dryer = s.dryer ∧ t.peers = s.peers

/-- The totalizers of an accepted SAMPLE out of CONFIG. The meter: without a baseline the reading becomes it; with one, the
difference modulo 2^32 enters the open interval when it is plausible and fits, with METER_GAP over more than 1 s, and goes to
suspense with METER_IMPLAUSIBLE otherwise, with a span of at least 1, into an open record where there is one; under the
restore mark a difference goes to suspense with RESTORE_GAP; at a totalizer reset the span goes to suspense without a volume,
with METER_RESET. The reading is the new baseline and the span starts from 0. The fuel totalizers follow their table (R125,
R126, R127, R128, R129, R131). That a record opened by a SAMPLE holds that SAMPLE's own CV is the model's choice (assumption
59). -/
def Obligations.MeterDifference : Prop :=
  ∀ s p, s.steady → s.train.mode ≠ .config → s.mon.sized → s.intake.lastSequence ≠ some p.sequence →
    ∃ t, exec (.sample (some p)) s = .next t
      ∧ (let kept := t.intake.suspInject = s.intake.suspInject ∧ t.intake.suspWithdraw = s.intake.suspWithdraw
        (p.totalizerReset = false → p.meter = none → t.intake.meter = s.intake.meter
            ∧ t.intake.meterSpan = s.intake.meterSpan ∧ t.intake.volume = s.intake.volume ∧ kept)
        ∧ (∀ x, p.meter = some x → t.intake.meter = { reading := some x, restoreMark := false }
            ∧ t.intake.meterSpan = 0)
        ∧ (s.intake.meter.reading = none → t.intake.volume = s.intake.volume ∧ kept)
        ∧ (p.totalizerReset = true → t.intake.volume = s.intake.volume
            ∧ (p.meter = none → t.intake.meter = { reading := none, restoreMark := false })
            ∧ (s.intake.meter.reading ≠ none → raisedOnce .meterReset s t ∧ suspended s t s.intake.meterSpan none)
            ∧ (s.intake.meter.reading = none → notRaised .meterReset s t))
        ∧ (∀ x b dv, p.totalizerReset = false → p.meter = some x → s.intake.meter.reading = some b → b < 4294967296 →
            dv < 4294967296 → (b + dv) % 4294967296 = x →
            (s.intake.meter.restoreMark = true → t.intake.volume = s.intake.volume
              ∧ (dv = 0 → kept ∧ notRaised .restoreGap s t)
              ∧ (0 < dv → raisedOnce .restoreGap s t ∧ suspended s t (max 1 s.intake.meterSpan) (some dv)))
            ∧ (s.intake.meter.restoreMark = false →
              let plausible := dv ≤ s.cfg.qmax * max 1 s.intake.meterSpan * 5 / 4 ∧ s.intake.volume + dv ≤ 4294967295
              (plausible → t.intake.volume = s.intake.volume + dv ∧ kept ∧ notRaised .meterImplausible s t
                ∧ (1 < s.intake.meterSpan → raisedOnce .meterGap s t)
                ∧ (s.intake.meterSpan ≤ 1 → notRaised .meterGap s t))
              ∧ (¬ plausible → t.intake.volume = s.intake.volume ∧ raisedOnce .meterImplausible s t
                ∧ suspended s t (max 1 s.intake.meterSpan) (some dv)))))
      ∧ fuelTaken p.compFuel s.intake.compFuel t.intake.compFuel s.intake.compWh t.intake.compWh
      ∧ fuelTaken p.heaterFuel s.intake.heaterFuel t.intake.heaterFuel s.intake.heaterWh t.intake.heaterWh
      ∧ t.acct.slots = s.acct.slots ∧ t.nom = s.nom ∧ t.clock = s.clock ∧ t.dryer = s.dryer ∧ t.peers = s.peers

/-- A SETPOINT's send completes: with the pending mark set the fields as last handed are sent and the mark is cleared,
else no send is in progress (R132). That the completion of no send changes nothing is the model's choice (assumption
38). -/
def Obligations.SetpointSent : Prop :=
  ∀ s, s.powered = true → ∃ t, exec .setpointSendDone s = .next t
    ∧ (s.intake.sending = none → t = s)
    ∧ (s.intake.sending ≠ none → t = { s with intake := { s.intake with
        sending := if s.intake.sendAgain then some s.intake.handed else none, sendAgain := false } })

/-- FIELD_LATE and FIELD_LOST are raised once for each silence, at 3 s and at 30 s; FIELD_LOST sets the field-lost flag
and takes a train that is in LISTEN, IDLE, INJECT, WITHDRAW or REVERSING to HOLD, its OFFER queued; SUSPENSE_OLD is
raised once for a record that is 86,400 s old; none of them is raised before its mark or again (R65, R124, R128). That the
event of a mark not reached changes nothing is the model's choice (assumption 8), but for the sequencer's own tests. -/
def Obligations.IntakeTimers : Prop :=
  ∀ s, s.steady → s.mon.sized →
    (∃ t, exec .fieldLate s = .next t ∧ t.acct.slots = s.acct.slots ∧ t.dryer = s.dryer ∧ t.train.mode = s.train.mode
      ∧ (3 ≤ s.intake.fieldTimer ∧ s.intake.lateRaised = false → raisedOnce .fieldLate s t
          ∧ t.intake = { s.intake.handing t.intake with lateRaised := true })
      ∧ (¬ (3 ≤ s.intake.fieldTimer ∧ s.intake.lateRaised = false) → t.intake = s.intake.handing t.intake
          ∧ notRaised .fieldLate s t ∧ (s.roomy → t.mon = s.mon)))
    ∧ (∃ t, exec .fieldLost s = .next t ∧ t.acct.slots = s.acct.slots ∧ t.dryer = s.dryer
      ∧ (¬ (30 ≤ s.intake.fieldTimer ∧ s.intake.fieldLost = false) → t.intake = s.intake.handing t.intake
          ∧ notRaised .fieldLost s t ∧ (s.roomy → t.mon = s.mon) ∧ t.train.mode = s.train.mode)
      ∧ (30 ≤ s.intake.fieldTimer ∧ s.intake.fieldLost = false →
          t.intake = { s.intake.handing t.intake with fieldLost := true } ∧ raisedOnce .fieldLost s t
          ∧ 3 ∈ alertCauses t
          ∧ (s.train.mode = .config ∨ s.train.mode = .hold ∨ s.train.mode = .shutIn → t.train.mode = s.train.mode)
          ∧ (s.train.mode ≠ .config → s.train.mode ≠ .hold → s.train.mode ≠ .shutIn →
              t.train = { s.train with mode := .hold, phase := none, lineup := .closed, offer := 0, share := 0, demand := 0
                                       dwell := if s.train.mode = .reversing ∧ s.train.phase = some .ramp
                                         then some s.clock.index else s.train.dwell }
              ∧ (s.roomy → ∃ u, t.waits (.offer s.train.offerDir 0 0 s.nom.target .hold u)))))
    ∧ ∀ f, ∃ t, exec (.suspenseOld f) s = .next t ∧ t.acct.slots = s.acct.slots ∧ t.dryer = s.dryer
      ∧ t.train.mode = s.train.mode
      ∧ (∀ r, s.intake.suspense f = some r → 86400 ≤ r.age ∧ r.oldRaised = false → raisedOnce .suspenseOld s t
          ∧ t.intake = (s.intake.handing t.intake).setSuspense f (some { r with oldRaised := true }))
      ∧ ((∀ r, s.intake.suspense f = some r → ¬ (86400 ≤ r.age ∧ r.oldRaised = false)) →
          t.intake = s.intake.handing t.intake ∧ notRaised .suspenseOld s t ∧ (s.roomy → t.mon = s.mon))

/-! ### The timers of the train and the compressor -/

/-- The marks of LISTEN: a train in LISTEN goes to IDLE when its time there is over by R57, and stays otherwise; any
other mode stays (R57). That the event of a mark not reached changes nothing is the model's choice (assumption 8). -/
def Obligations.ListenMarks : Prop :=
  ∀ s c, s.steady → (c = .listen30sMark ∨ c = .listen120sMark) →
    ∃ t, exec c s = .next t
      ∧ (s.train.mode = .listen ∧ listenOver s → t.train = { s.train with mode := .idle, listenDone := true })
      ∧ (¬ (s.train.mode = .listen ∧ listenOver s) → t.train = { s.train with demand := t.train.demand })
      ∧ t.acct.slots = s.acct.slots ∧ t.nom = s.nom ∧ t.clock = s.clock ∧ t.dryer = s.dryer ∧ t.peers = s.peers

/-- START_TIMEOUT at 180 s takes a STARTING unit to STOPPING with the command STOP, the stop timer from 0 and a CEDE;
the minimum run time and the 300 s of zero demand stop a RUNNING unit exactly when R96 asks for it (R94, R95, R96). That
the event of a mark not reached changes nothing is the model's choice (assumption 8). -/
def Obligations.RunTimers : Prop :=
  (∀ s n, s.atWork → s.mon.sized → s.comp.unit = .starting → s.comp.startTimer = some n →
    ∃ t, exec .startTimeout s = .next t ∧ t.acct.slots = s.acct.slots ∧ t.dryer = s.dryer ∧ t.train.mode = s.train.mode
      ∧ (180 ≤ n → t.comp.unit = .stopping ∧ t.comp.command = .stop ∧ t.comp.stopTimer = 0 ∧ t.comp.startTimer = none
          ∧ raisedOnce .startTimeout s t
          ∧ (s.comp.cedePending = false → s.roomy → t.comp.cedePending = true ∧ t.waits .cede))
      ∧ (n < 180 → s.train.mode ≠ .shutIn → t.comp.unit = .starting ∧ t.comp.startTimer = some n))
  ∧ ∀ s c, s.steady → (c = .minRunElapsed ∨ c = .zeroDemand300s) → s.comp.unit = .running →
    ∃ t, exec c s = .next t ∧ t.acct.slots = s.acct.slots ∧ t.dryer = s.dryer ∧ t.train.mode = s.train.mode
      ∧ (stopDue s → t.comp.unit = .stopping ∧ t.comp.command = .stop ∧ t.comp.stopTimer = 0)
      ∧ (¬ stopDue s → t.comp.unit = .running ∧ t.comp.stopTimer = s.comp.stopTimer)

/-- The minimum stop time lets a TRIPPED unit with auto-restart set and a latest feedback STOPPED go to STOPPED, and no
other TRIPPED unit; at it, and when a start leaves the last hour, a STOPPED unit that wants a start by R89 claims one
(R89, R90, R99). That the event of a mark not reached changes nothing is the model's choice (assumption 8), and that
CONFIG is no exception for auto-restart and a byte of 1 sets it its readings (assumptions 32 and 62). -/
def Obligations.StopTimers : Prop :=
  (∀ s, s.steady → s.comp.unit = .tripped →
    let may := s.cfg.autoRestart = 1 ∧ s.cfg.minStop * 60 ≤ s.comp.stopTimer ∧ s.comp.feedback = some .stopped
    ∃ t, exec .minStopElapsed s = .next t ∧ (may → t.comp.unit = .stopped) ∧ (¬ may → t.comp.unit = .tripped)
      ∧ t.comp.trips = s.comp.trips ∧ t.acct.slots = s.acct.slots ∧ t.train.mode = s.train.mode ∧ t.dryer = s.dryer)
  ∧ ∀ s c, s.steady → (c = .minStopElapsed ∨ c = .startHistoryAgeOut) → s.comp.unit = .stopped →
    ∃ t, exec c s = .next t ∧ t.comp.unit = .stopped ∧ t.acct.slots = s.acct.slots ∧ t.train.mode = s.train.mode
      ∧ t.dryer = s.dryer ∧ t.peers = s.peers
      ∧ (startDue s → s.roomy → t.comp.claimInFlight = true ∧ t.waits .claim)
      ∧ (¬ startDue s → s.comp.claimInFlight = false → t.comp.claimInFlight = false ∧ t.link = s.link)

/-- Trips that are 86,400 s old leave the trip history, a LOCKOUT standing. A head that is 210 s old leaves the copy,
the next one starting from a head age of 0, and a QUEUED unit whose own entry becomes head goes to STARTING; a younger
head stays (R92, R93, R98). That the event of a mark not reached changes nothing is the model's choice (assumption 8). -/
def Obligations.HistoryTimers : Prop :=
  (∀ s, s.steady → ∃ t, exec .tripHistoryAgeOut s = .next t
      ∧ (∀ a, a ∈ t.comp.trips ↔ a ∈ s.comp.trips ∧ a < 86400) ∧ (s.comp.unit = .lockout → t.comp.unit = .lockout)
      ∧ t.comp.starts = s.comp.starts ∧ t.acct.slots = s.acct.slots ∧ t.dryer = s.dryer ∧ t.peers = s.peers)
  ∧ ∀ s head rest, s.steady → s.peers.startQueue = head :: rest → s.peers.copySound →
    ∃ t, exec .headHoldExpiry s = .next t ∧ t.acct.slots = s.acct.slots ∧ t.dryer = s.dryer
      ∧ (s.peers.headAge < 210 → t.peers = s.peers)
      ∧ (210 ≤ s.peers.headAge → t.peers = { s.peers with startQueue := rest, headAge := 0 }
          ∧ (s.comp.unit = .queued → rest.head? = some s.station → s.train.mode ≠ .shutIn →
              t.comp.unit = .starting ∧ t.comp.command = .start ∧ t.comp.starts.getLast? = some 0)
          ∧ (s.comp.unit = .queued → head = s.station → t.comp.unit = .stopped))

/-- A bed whose phase timer has reached the maximum of its phase goes OUT with BED_FAULT, its charge formed; a bed short
of it stays, and so does the other bed (R113, R114, R115). That the event of a mark not reached changes nothing is the
model's choice (assumption 8). -/
def Obligations.PhaseMaxima : Prop :=
  ∀ s bed c phase limit, s.atWork → s.mon.sized →
    (c = .heatMaximum bed ∧ phase = .heating ∧ limit = s.cfg.dryer.heatMaximum
      ∨ c = .coolMaximum bed ∧ phase = .cooling ∧ limit = s.cfg.dryer.coolMaximum) →
    ∃ t, exec c s = .next t ∧ t.dryer.bed (otherBed bed) = s.dryer.bed (otherBed bed)
      ∧ t.dryer.dewHigh = s.dryer.dewHigh ∧ t.nom = s.nom ∧ t.clock = s.clock ∧ t.peers = s.peers
      ∧ (∀ n, (s.dryer.bed bed).state = phase → (s.dryer.bed bed).phaseTimer = some n →
          (limit * 60 ≤ n → (t.dryer.bed bed).state = .out ∧ (t.dryer.bed bed).loading = s.cfg.dryer.capacity
            ∧ (t.dryer.bed bed).phaseTimer = none ∧ charged s t bed ∧ raisedOnce .bedFault s t)
          ∧ (n < limit * 60 → t.dryer = s.dryer ∧ t.acct.slots = s.acct.slots))
      ∧ ((s.dryer.bed bed).state ≠ phase → t.dryer = s.dryer ∧ t.acct.slots = s.acct.slots)

/-! ### Allocation and the gas day -/

/-- Largest-remainder apportionment gives out exactly the amount: each share is the truncated quotient or one more, a slot
without weight gets nothing, of two slots with one more the larger remainder has it, the lower slot among equals; with no
weight slot 0 has it all (R41, R42). -/
def Obligations.ApportionsExactly : Prop :=
  ∀ amount w, w.length = 17 →
    let shares := apportion amount w
    shares.length = 17 ∧ shares.sum = amount
      ∧ (w.sum = 0 → shares = amount :: List.replicate 16 0)
      ∧ (0 < w.sum → ∀ i < 17,
          let q (i : Nat) := amount * w.getD i 0 / w.sum
          let r (i : Nat) := amount * w.getD i 0 % w.sum
          (w.getD i 0 = 0 → shares.getD i 0 = 0) ∧ (shares.getD i 0 = q i ∨ shares.getD i 0 = q i + 1)
          ∧ ∀ j < 17, 0 < w.getD j 0 → shares.getD i 0 = q i + 1 →
              (r i < r j ∨ (r i = r j ∧ j < i)) → shares.getD j 0 = q j + 1)

/-- The law of the inventories' sum: a booking changes it by exactly the signed energy, an interval's in the direction that
R35 and R36 give it, a fuel or regeneration charge by exactly minus the charge; the energy and the carry account for every
litre, and the carry stays in its range. Each slot's share moves its inventory and its day total of that direction, what slot
0 takes of the caps also its shortfall total, and a withdrawal's shares the passage list of the ADSORBING bed; a charge moves
the fuel total of its kind by what is deducted, and the shortfall totals by what a shipper cannot bear. A due suspense
record is booked in its own direction with its own CV and snapshot, removed, and its order answered DONE. A withdrawal's
share is the inventory or at least the apportioned share, and slot 0 takes what no shipper with a weight has left. SPACE_OVER
is raised for each shipper whose flag an injection sets, CAP_SHORTFALL, FUEL_SHORTFALL and STRAY_FLOW once for their booking
(R3, R4, R5, R35, R36, R38, R39, R41, R43 to R48, R50, R52, R53, R105, R130, R162). That the sums do not overflow is the model's
reading (assumption 16), that the first SPACE_OVER is the lowest slot's its choice (assumption 42), and so is that an
unconfigured slot is not compared (assumption 63). -/
def Obligations.InventorySumLaw : Prop :=
  (∀ s f v h w bed, s.sized → s.mon.sized → w.length = 17 →
    let e := (bookEnergy f v h w bed s).1
    let shares := (bookEnergy f v h w bed s).2.1
    let t := (bookEnergy f v h w bed s).2.2
    let pool : Nat := shares.getD 0 0 - (apportion e w).getD 0 0
    let newly (i : Nat) : Bool :=
      (t.acct.slots.getD i {}).spaceOver && !(s.acct.slots.getD i {}).spaceOver
    t.inventories.sum = s.inventories.sum + signedEnergy f e ∧ shares.length = 17 ∧ shares.sum = e
      ∧ (e, t.acct.carry f) = energyStage s.cfg.roundMode v h (s.acct.carry f)
      ∧ t.acct.carry (opposite f) = s.acct.carry (opposite f) ∧ (f = .inject → shares = apportion e w)
      ∧ (∀ i < 17, let x := s.acct.slots.getD i {}; let y := t.acct.slots.getD i {}; let n := shares.getD i 0
          (f = .inject → y.inventory = x.inventory + n ∧ y.totals = { x.totals with injected := x.totals.injected + n })
          ∧ (f = .withdraw → w.getD 0 0 = 0 → y.inventory = x.inventory - n ∧ (1 ≤ i → n ≤ x.inventory.toNat)
              ∧ y.totals = { x.totals with
                  withdrawn := x.totals.withdrawn + n
                  shortfall := x.totals.shortfall + if i = 0 then pool else 0 }
              ∧ (1 ≤ i → n = x.inventory.toNat ∨ (apportion e w).getD i 0 ≤ n)
              ∧ (1 ≤ i → 0 < pool → 0 < w.getD i 0 → n = x.inventory.toNat))
          ∧ (f = .inject → (y.spaceOver = true ↔ x.spaceOver = true ∨ 1 ≤ i ∧ 0 < n ∧ s.cfg.configured i = true
              ∧ ((s.cfg.shipper i).space : Int) < t.siteInventory i))
          ∧ (f = .withdraw → y.spaceOver = x.spaceOver)
          ∧ (newly i = true → (∀ j < i, newly j = false) →
              recorded .spaceOver (fun r => r.slot = i ∧ r.value = t.siteInventory i) s t))
      ∧ raisedTimes .spaceOver ((List.range 17).filter newly).length s t
      ∧ (f = .withdraw → w.getD 0 0 = 0 → 0 < pool → raisedOnce .capShortfall s t ∧ recorded .capShortfall
          (fun r => 1 ≤ r.slot ∧ shares.getD r.slot 0 = (s.inventory r.slot).toNat ∧ r.value = pool) s t)
      ∧ (f = .inject ∨ w.getD 0 0 = 0 ∧ pool = 0 → notRaised .capShortfall s t)
      ∧ ∀ bd, (bed = some bd → f = .withdraw → t.dryer.bed bd = { s.dryer.bed bd with
              passage := List.zipWith (· + ·) (s.dryer.bed bd).passage shares })
          ∧ (bed ≠ some bd ∨ f = .inject → t.dryer.bed bd = s.dryer.bed bd))
  ∧ (∀ s kind amount w, s.sized → s.mon.sized → w.length = 17 →
    let charges := apportion amount w
    let t := bookFuel kind amount w s
    let short (i : Nat) : Nat := charges.getD i 0 - (s.inventory i).toNat
    let shorts : Nat := ((List.range 16).map (fun i => short (i + 1))).sum
    (shorts = 0 → notRaised .fuelShortfall s t)
    ∧ (0 < shorts → raisedOnce .fuelShortfall s t ∧ recorded .fuelShortfall (fun r => 1 ≤ r.slot ∧ 0 < short r.slot
        ∧ (∀ i < r.slot, 1 ≤ i → short i = 0) ∧ r.value = shorts) s t)
    ∧ ∀ i < 17, let x := s.acct.slots.getD i {}; let y := t.acct.slots.getD i {}
      let paid := if i = 0 then charges.getD 0 0 + shorts else charges.getD i 0 - short i
      let missed := if i = 0 then shorts else short i
      y.inventory = x.inventory - paid
        ∧ (kind = .compressor → y.totals = { x.totals with
            compFuel := x.totals.compFuel + paid, shortfall := x.totals.shortfall + missed })
        ∧ (kind = .regeneration → y.totals = { x.totals with
            regenFuel := x.totals.regenFuel + paid, shortfall := x.totals.shortfall + missed }))
  ∧ (∀ s v h fuel, s.sized → s.mon.sized →
      let stray : Prop := s.train.mode ≠ .inject ∧ s.train.mode ≠ .withdraw ∧ 0 < v ∧ s.train.lastFlow = none
      (stray → raisedOnce .strayFlow s (bookInterval v h fuel s)
          ∧ recorded .strayFlow (fun r => r.slot = 0
              ∧ r.value = ((energyStage s.cfg.roundMode v h s.acct.carryInject).1 : Nat)) s (bookInterval v h fuel s)
          ∧ ∀ i < 17, 1 ≤ i → (bookInterval v h fuel s).acct.slots.getD i {} = s.acct.slots.getD i {})
      ∧ (¬ stray → notRaised .strayFlow s (bookInterval v h fuel s))
      ∧ (∀ f, (s.train.mode = flowMode f
            ∨ s.train.mode ≠ .inject ∧ s.train.mode ≠ .withdraw ∧ 0 < v ∧ s.train.lastFlow.getD .inject = f) →
          (bookInterval v h fuel s).inventories.sum
            = s.inventories.sum + signedEnergy f (energyStage s.cfg.roundMode v h (s.acct.carry f)).1 - fuel
          ∧ (bookInterval v h fuel s).acct.carry f = (energyStage s.cfg.roundMode v h (s.acct.carry f)).2
          ∧ (bookInterval v h fuel s).acct.carry (opposite f) = s.acct.carry (opposite f)
          ∧ (f = .inject ∨ (∀ bed, (s.dryer.bed bed).state ≠ .adsorbing) → (bookInterval v h fuel s).dryer = s.dryer)
          ∧ ∀ bed, (s.dryer.bed bed).state = .adsorbing → (s.dryer.bed (otherBed bed)).state ≠ .adsorbing →
              f = .withdraw → ((bookInterval v h fuel s).dryer.bed bed).passage
                = List.zipWith (· + ·) (s.dryer.bed bed).passage
                    (bookEnergy .withdraw v h (bookingWeights .withdraw s.nom.confirmed) (some bed) s).2.1)
      ∧ (s.train.mode ≠ .inject → s.train.mode ≠ .withdraw → v = 0 →
          (bookInterval v h fuel s).inventories.sum = s.inventories.sum - fuel))
  ∧ (∀ s bed g, s.sized → (bookRegeneration bed g s).inventories.sum = s.inventories.sum - g)
  ∧ (∀ s f bed r d, s.sized → s.train.mode ≠ .config → s.intake.suspense f = some r → r.due = some d →
      let e := energyStage s.cfg.roundMode d.book r.cv (s.acct.carry f)
      let b := bookEnergy f d.book r.cv (bookingWeights f r.snapshot) bed s
      let t := bookSuspense f bed s
      t.acct = b.2.2.acct ∧ t.dryer = b.2.2.dryer ∧ t.intake = s.intake.setSuspense f none ∧ t.acct.carry f = e.2
        ∧ t.inventories.sum = s.inventories.sum + signedEnergy f e.1
        ∧ (f = .inject → t.mon.sumInjected = s.mon.sumInjected + e.1)
        ∧ (f = .withdraw → t.mon.sumWithdrawn = s.mon.sumWithdrawn + e.1)
        ∧ (s.roomy → f = .withdraw ∨ s.cfg.escalates 6 = false → t.waits (.reply
            { console := d.console, command := d.command, arg := d.arg, litres := d.litres, outcome := .done }))
        ∧ t.nom = s.nom ∧ t.train = s.train ∧ t.comp = s.comp ∧ t.clock = s.clock ∧ t.peers = s.peers)
  ∧ (∀ s f bed, (∀ r, s.intake.suspense f = some r → r.due = none) → bookSuspense f bed s = s)
  ∧ ∀ (round : Bool) v h (c : Int), (if round then -5000000 ≤ c ∧ c ≤ 4999999 else 0 ≤ c ∧ c ≤ 9999999) →
      let r := energyStage round v h c
      (r.1 : Int) * 10000000 + r.2 = (v : Int) * h + c
        ∧ (if round then -5000000 ≤ r.2 ∧ r.2 ≤ 4999999 else 0 ≤ r.2 ∧ r.2 ≤ 9999999)

/-- The close of the gas day: the closed-day set takes the seventeen slots as they stand and the ending day, provisional when
a suspense record is open or totals were restored; the totals start from 0, the inventories stay, a space-over flag stays
only above the booked space, and the cursor starts anew. Reports left over are abandoned: those that wait are withdrawn, and
REPORT_LOST is raised once with the first abandoned slot and the number of them; a report on the line stays there, belongs to
no close and is not counted (R6, R7, R8, R9, R11). -/
def Obligations.DayCloses : Prop :=
  ∀ s endingDay, s.sized → s.mon.sized →
    let t := closeDay endingDay s
    t.acct.closedDay = some endingDay ∧ t.acct.closed = s.acct.slots ∧ t.acct.cursor = 0 ∧ t.acct.outstanding = false
      ∧ (t.acct.provisional = true ↔ s.intake.suspInject ≠ none ∨ s.intake.suspWithdraw ≠ none
          ∨ s.acct.restoredTotals = true)
      ∧ t.acct.restoredTotals = false
      ∧ (∀ i < 17, (t.acct.slots.getD i {}).totals = {} ∧ t.inventory i = s.inventory i
          ∧ ((t.acct.slots.getD i {}).spaceOver = true ↔ (s.acct.slots.getD i {}).spaceOver = true
              ∧ ((s.cfg.shipper i).space : Int) < s.siteInventory i))
      ∧ (nextReport s s.acct.cursor 17 → t.mon = s.mon)
      ∧ (∀ slot ≤ 16, nextReport s s.acct.cursor slot →
          let abandoned (first : Nat) : Prop := raisedOnce .reportLost s t ∧ recorded .reportLost (fun r => r.slot = first
            ∧ r.value = ((List.range 17).filter (fun i =>
                decide (first ≤ i) && (decide (i = 0) || s.cfg.configured i))).length) s t
          ((∀ e ∈ s.link.queue, e.owner = .dayCursor → e.onLine = false) → abandoned slot)
          ∧ ((∃ e ∈ s.link.queue, e.owner = .dayCursor ∧ e.onLine = true) →
              (nextReport s (slot + 1) 17 → t.mon = s.mon)
              ∧ ∀ next ≤ 16, nextReport s (slot + 1) next → abandoned next))
      ∧ (∀ e ∈ s.link.queue, e.owner = .dayCursor → e.onLine = true → { e with owner := .pastClose } ∈ t.link.queue)
      ∧ (∀ e ∈ s.link.queue, e.owner ≠ .dayCursor → e ∈ t.link.queue)
      ∧ ∀ e ∈ t.link.queue, e.owner ≠ .dayCursor
      ∧ t.train = s.train ∧ t.nom = s.nom ∧ t.dryer = s.dryer ∧ t.clock = s.clock

/-- The mode controller's minute work: the offer follows the hour direction and keeps to the station maximum, 0 without a
direction or in LISTEN, HOLD, SHUT_IN or a link out of service; the share keeps to the offer and the target; the demand
keeps to the offer along the hour direction and, with the lineup, to what the mode asks; SHUT_IN, HOLD and LISTEN stay
(R58, R68, R69, R73, R80). A flowing train against which the hour turns goes to REVERSING and ramps down, its dwell starting at
0; it returns during the ramp or the dwell when the hour turns back, and goes to IDLE when the dwell ends; a flowing train
steps toward its share, and goes to IDLE without a direction, or without a share at a demand of 0; a train in IDLE enters by
the entry test (R59 to R64, R69, R70). The offer is the least of its limits, the envelope, the pressure rate over the ring,
the path and the dryer's, each by its table, and the share divides the target (R73 to R77, R80); the OFFER is queued (R82). -/
def Obligations.MinuteRates : Prop :=
  (∀ s r, s.train.mode ≠ .config → s.train.lineupSound →
    let t := modeMinute r s
    t.train.offerDir = s.nom.hourDir ∧ t.train.offer ≤ s.cfg.stationMax ∧ t.train.share ≤ t.train.offer
      ∧ t.train.share ≤ s.nom.target
      ∧ (s.nom.hourDir = none ∨ s.train.mode = .listen ∨ s.train.mode = .hold ∨ s.train.mode = .shutIn
          ∨ s.link.state = .fault ∨ s.link.state = .silent → t.train.offer = 0 ∧ t.train.share = 0)
      ∧ (∀ f, s.nom.hourDir = some f → match f with
          | .inject => t.train.demand ≤ t.train.offer
          | .withdraw => -t.train.demand ≤ t.train.offer)
      ∧ (s.train.mode = .listen ∨ s.train.mode = .hold ∨ s.train.mode = .shutIn → t.train.mode = s.train.mode)
      ∧ t.train.lineupSound ∧ t.acct.slots = s.acct.slots ∧ t.nom = s.nom ∧ t.clock = s.clock
      ∧ (∀ f, (s.train.mode = flowMode f ∧ s.nom.hourDir = some (opposite f)
            ∨ s.train.mode = .reversing ∧ s.train.phase = some .ramp ∧ s.train.lastFlow = some f ∧ s.nom.hourDir ≠ some f) →
          rampsDown s t f)
      ∧ (∀ f, s.nom.hourDir = some f → s.train.mode = flowMode f
            ∨ s.train.mode = .reversing ∧ s.train.phase = some .ramp ∧ s.train.lastFlow = some f → flowsOn s t f false)
      ∧ (∀ f, s.nom.hourDir = some f → s.train.mode = .reversing → s.train.phase = some .dwell →
          s.train.lastFlow = some f → flowsOn s t f true)
      ∧ (∀ f, s.train.mode = flowMode f → s.nom.hourDir = none → rests s t)
      ∧ (s.train.mode = .reversing → s.train.phase = some .dwell → s.nom.hourDir ≠ s.train.lastFlow → dwellOver s = false →
          t.train = { s.train with offer := t.train.offer, share := t.train.share, offerDir := t.train.offerDir
                                   ring := t.train.ring })
      ∧ (s.train.mode = .idle ∨ (s.train.mode = .reversing ∧ s.train.phase = some .dwell
            ∧ s.nom.hourDir ≠ s.train.lastFlow ∧ dwellOver s = true) →
          (s.nom.hourDir = none → rests s t)
          ∧ ∀ f, s.nom.hourDir = some f → (mayEnterNow s t f → enters t f) ∧ (¬ mayEnterNow s t f → rests s t))
      ∧ (s.train.mode = .listen ∨ s.train.mode = .hold ∨ s.train.mode = .shutIn → t.train.dwell = dwellLeft s)
      ∧ t.train.ring = s.train.ring.take (freshNat r.held.wellhead)
      ∧ (∀ f, s.nom.hourDir = some f →
          let limits := [some s.cfg.stationMax, envelopeLimit s.cfg f (freshNat r.held.wellhead),
            pressureRateLimit s.cfg f t.train.ring s.train.demand, pathLimit s.cfg s.comp,
            if f = .withdraw then s.dryer.limit else none]
          (offersIn s f → some t.train.offer ∈ limits ∧ ∀ x, some x ∈ limits → t.train.offer ≤ x)
          ∧ (¬ offersIn s f → t.train.offer = 0))
      ∧ (let fresh := (s.peers.offers.filterMap (·.entry)).filter
            (fun o => decide (elapsed s o.heard ≤ 180 ∧ o.dir = s.nom.hourDir))
        let total := t.train.offer + (fresh.map (·.offer)).sum
        t.train.share = if total ≤ s.nom.target then t.train.offer else s.nom.target * t.train.offer / total)
      ∧ (s.roomy → t.waits (.offer t.train.offerDir t.train.offer t.train.share s.nom.target t.train.mode s.comp.unit))
      ∧ t.comp.unit = s.comp.unit ∧ t.comp.path = s.comp.path)
  ∧ (∀ m p, envelopeLimit m .withdraw (some p) = (if p ≤ m.pMin then some 0
        else if p < m.pMin + m.taper then some (m.stationMax * (p - m.pMin) / m.taper) else none)
      ∧ envelopeLimit m .inject (some p) = (if m.pMax ≤ p then some 0
        else if m.pMax < p + m.taper then some (m.stationMax * (m.pMax - p) / m.taper) else none)
      ∧ ∀ f, envelopeLimit m f none = some 0)
  ∧ (∀ g : Ring, g.take none = {} ∧ ∀ x, g.places.length = 61 → g.write < 61 →
      (g.take (some x)).places.getD g.write 0 = x
        ∧ (∀ i, i ≠ g.write → (g.take (some x)).places.getD i 0 = g.places.getD i 0)
        ∧ (g.take (some x)).write = (if g.write = 60 then 0 else g.write + 1)
        ∧ (g.take (some x)).count = min 61 (g.count + 1))
  ∧ (∀ m f demand, ∀ g : Ring,
      let newest : Int := g.places.getD ((g.write + 60) % 61) 0
      let oldest : Int := g.places.getD (if g.count = 61 then g.write else 0) 0
      let change : Int := if f = .inject then newest - oldest else oldest - newest
      pressureRateLimit m f g demand = if g.count < 2 ∨ change < ((m.dpMax * (g.count - 1) / 60 : Nat) : Int) then none
        else some (demand.natAbs * 9 / 10))
  ∧ ∀ m c, (c.path = .free → pathLimit m c = none)
      ∧ (c.path = .compressed → pathLimit m c = some (if c.unit = .running ∨ c.unit = .starting ∨ c.unit = .queued
          ∨ c.unit = .stopped ∧ m.minStop * 60 ≤ c.stopTimer ∧ (c.starts.filter (· < 3600)).length < 3
        then c.capacity else 0))

/-! ### Formats -/

/-- Decoding what encoding wrote: every well-formed telegram's bytes spell that command again, with or without the stuff
bits of the line, and so do the bytes of every well-formed SAMPLE; and what the part has on the line, read back bit for bit,
is its intact echo, while other bytes are none (R144, R145, R168, R169). The bits the formats leave unnamed and the one name
for misfits are the model's (assumptions 30 and 35), and so is which command a telegram under the part's own number is
(assumption 41). -/
def Obligations.FormatsAgree : Prop :=
  (∀ c bytes, c.wellFormed = true → encodeTelegram c = some bytes →
      decodeTelegram bytes = c ∧ decodeLine (lineOf bytes) = c)
    ∧ (∀ p, p.wellFormed = true → decodeField (encodeSample p) = .sample (some p))
    ∧ (∀ s l, lineBits s = some l → receivedLine s l = .echoIntact)
    ∧ (∀ s sent bs, sentBytes s = some sent → bs ≠ sent → receivedCommand s bs ≠ .echoIntact
        ∧ (wholeTelegram bs = true → fieldAt bs 0 1 % 32 = s.station →
            receivedCommand s bs = .dupStation (fieldAt bs 1 1)))
    ∧ ∀ s bs, sentBytes s = none → receivedCommand s bs = decodeTelegram bs

/-! ### What every step keeps -/

/-- What becomes of a telegram handed to the transmit queue: it replaces the content of a waiting OFFER, or of a waiting
INVT of its half, which keeps its place, its mismatch count and the occupancy; else it is refused in class 3 under the mark,
entered behind its class while there is room, else in place of the newest waiting entry of a higher class number, else
dropped; a refusal, an eviction and a drop raise TX_DROP, and the owner is told (R10, R90, R95, R146, R147, R148). That a
ticket tells the newest entry and that two waiting entries of one kind both take the new content are the model's choices
(assumptions 22 and 45). What raising a condition does: its flag is set and its counter grows; out of CONFIG, when its enable
is set, its record enters the list of eight or the lost count grows, its summary mark is set with ALERT cause 7, and its
CONDITION report is queued, or, where the queue takes none, TX_DROP is raised without one (R147, R156, R157). The cause pins
give the lowest pending cause, or 0 (R159). That a set enable is a 1 is the model's reading (assumption 62). -/
def Obligations.TransmitQueue : Prop :=
  (∀ s m o, s.train.mode ≠ .config → s.link.queueSound → s.mon.sized → (∀ e ∈ s.link.queue, replaces m e = false) →
    (∀ x ∈ s.link.queue, ∀ y ∈ s.link.queue, x.ticket = y.ticket → x = y) →
    let t := enqueue m o s
    let dropped := t.mon.sticky.getD 15 false = true
    let lower := s.link.queue.filter (fun x => telegramClass x.telegram ≤ telegramClass m)
    let higher := s.link.queue.filter (fun x => telegramClass m < telegramClass x.telegram)
    let new : Entry := { telegram := m, owner := o, ticket := s.link.nextTicket }
    (telegramClass m = 3 ∧ s.link.refusalMark = true → t.link.queue = s.link.queue ∧ dropped)
      ∧ (¬ (telegramClass m = 3 ∧ s.link.refusalMark = true) → s.link.queue.length < 12 →
          t.link.queue = lower ++ new :: higher ∧ t = { s with link := t.link })
      ∧ (s.link.queue.length = 12 → (∀ x ∈ higher, x.onLine = true) → t.link.queue = s.link.queue ∧ dropped)
      ∧ (∀ e ∈ higher, s.link.queue.length = 12 → e.onLine = false →
          (∀ x ∈ higher, x.onLine = false → x.ticket ≤ e.ticket) →
          t.link.queue = lower ++ new :: higher.filter (· != e) ∧ dropped ∧ toldUnsent e.owner e.telegram t)
      ∧ (telegramClass m = 3 ∧ s.link.refusalMark = true
          ∨ s.link.queue.length = 12 ∧ (∀ x ∈ higher, x.onLine = true) → toldUnsent o m t)
      ∧ t = { s with link := t.link, mon := t.mon
                     acct := { s.acct with outstanding := t.acct.outstanding }
                     comp := { s.comp with claimInFlight := t.comp.claimInFlight, cedePending := t.comp.cedePending } })
  ∧ (∀ m e, replaces m e = true ↔ e.onLine = false ∧ ((∃ d w x y z u d' w' x' y' z' u', m = .offer d w x y z u
          ∧ e.telegram = .offer d' w' x' y' z' u')
        ∨ ∃ half d h l d' h' l', m = .invt half d h l ∧ e.telegram = .invt half d' h' l'))
  ∧ (∀ s m o, s.train.mode ≠ .config → (∃ e ∈ s.link.queue, replaces m e = true) →
    enqueue m o s = { s with link := { s.link with
      queue := s.link.queue.map (fun e => if replaces m e = true then { e with telegram := m } else e) } })
  ∧ (∀ s c slot value, s.mon.sized → s.mon.summary.length = 31 →
    let t := raise c slot value s
    let r : ExceptionRecord :=
      { code := condCode c, day := s.clock.day, second := s.clock.second, slot := slot, value := value }
    let on : Prop := s.train.mode ≠ .config ∧ s.cfg.escalation.testBit (condCode c - 1) = true
    let kept : Bool := decide (s.mon.exceptions.length < 8)
    let lost : Nat := if kept = true then s.mon.lostCount else satAdd top16 s.mon.lostCount 1
    (c ≠ .txDrop ∨ ¬ on ∨ s.admits → raisedOnce c s t)
      ∧ (∀ d, d ≠ c → d ≠ .txDrop → notRaised d s t)
      ∧ (¬ on → t = { s with mon := { s.mon with sticky := t.mon.sticky, counters := t.mon.counters } })
      ∧ (on → t.mon.summary.getD (condCode c - 1) false = true ∧ 7 ∈ alertCauses t
          ∧ (kept = true → t.mon.exceptions.take (s.mon.exceptions.length + 1) = s.mon.exceptions ++ [r])
          ∧ (kept = false → t.mon.exceptions = s.mon.exceptions))
      ∧ (on → s.admits → t.mon.lostCount = lost ∧ (kept = true → t.mon.exceptions = s.mon.exceptions ++ [r])
          ∧ t.waits (.condition { record := r, counter := satAdd top16 (s.mon.counters.getD (condCode c - 1) 0) 1
                                  kept := kept, lostCount := lost }))
      ∧ (on → ¬ s.admits → t.link = s.link ∧ t.mon.sticky.getD 15 false = true)
      ∧ t = { s with mon := t.mon, link := t.link })
  ∧ ∀ s, let pending : Nat → Prop := fun k => match k with
        | 1 => s.train.mode = .config
        | 2 => s.train.mode = .shutIn
        | 3 => s.intake.fieldLost = true
        | 4 => s.link.state = .fault ∨ s.link.state = .silent
        | 5 => s.comp.unit = .lockout ∨ s.comp.unit = .tripped ∧ s.cfg.autoRestart ≠ 1
        | 6 => s.dryer.dryBlock = true
        | 7 => true ∈ s.mon.summary
        | _ => False
    (∀ k, k ∈ alertCauses s ↔ pending k) ∧ (∀ k, pending k → pending (causePins s) ∧ causePins s ≤ k)
      ∧ ((∀ k, ¬ pending k) → causePins s = 0) ∧ (alertAsserted s = true ↔ ∃ k, pending k)

/-- The second law of the inventories: no step but a power-on reset, which takes them from the memory, makes the
inventory of a shipper slot negative (R3, R43, R44, R48). That inventories are exact is the model's reading (assumption
16). -/
def Obligations.ShippersStayWhole : Prop :=
  ∀ s t, (∀ n u l, s.pending.head? ≠ some (.powerOnReset n u l)) → s.sized → s.shippersSound → step s = .next t →
    t.sized ∧ t.shippersSound

/-- Every step keeps the transmit queue within twelve entries in the order of their classes, the refusal mark as the
occupancy asks, and the start queue copy within eight stations, none twice (R91, R146, R147). -/
def Obligations.QueuesStaySound : Prop :=
  ∀ s t, s.link.queueSound → s.peers.copySound → step s = .next t → t.link.queueSound ∧ t.peers.copySound

/-- Every step keeps the lineup command as the mode asks, the compressor command as the unit state asks, and the SETPOINT
fields as their owners' states stand (R68, R71, R88, R106, R132). -/
def Obligations.CommandsStaySound : Prop :=
  ∀ s t, s.train.lineupSound → s.comp.commandSound → s.setpointSound → step s = .next t →
    t.train.lineupSound ∧ t.comp.commandSound ∧ t.setpointSound

/-- No step but a power-on reset puts both beds into ADSORBING, or both into HEATING (R111, R112, R117). -/
def Obligations.BedsStaySound : Prop :=
  ∀ s t, (∀ n u l, s.pending.head? ≠ some (.powerOnReset n u l)) → s.dryer.sound → step s = .next t → t.dryer.sound

/-- The state after reset is sound in each of these ways. The fields last handed and the unwritten memory are the
model's choice there (assumptions 2, 10 and 39). -/
def Obligations.ResetSound : Prop :=
  let s := State.reset
  s.sized ∧ s.shippersSound ∧ s.link.queueSound ∧ s.peers.copySound ∧ s.train.lineupSound ∧ s.comp.commandSound
    ∧ s.setpointSound ∧ s.dryer.sound ∧ s.mon.sized ∧ Memory.wf s.ext.cells ∧ s.pendingsSound
end

