-- ==== Sys2Proof/Laws/Bytes.lean ====
section
/-! SUPPORT. What stuffing and the line leave of a telegram's bytes: they read back as they were (R144, R168). -/

namespace Sys2Proof

open Sys2Proof.Machine

/-- Unstuffing takes out what stuffing put in, from any run shorter than five (R144). -/
theorem Machine.unstuffFrom_stuffFrom (l : List Bool) (last : Bool) (run : Nat) (h : run < 5) :
    unstuffFrom last run (stuffFrom last run l) = some l := by
  induction l generalizing last run with
  | nil => rfl
  | cons b rest ih =>
    have hr : run ≠ 5 := by omega
    by_cases hb : b = last
    · subst hb
      by_cases h4 : run = 4
      · subst h4
        simp [stuffFrom, unstuffFrom, ih (!b) 1 (by omega)]
      · simp [stuffFrom, unstuffFrom, h4, hr, ih b (run + 1) (by omega)]
    · simp [stuffFrom, unstuffFrom, hb, hr, ih b 1 (by omega)]

@[simp] theorem Machine.unstuff_stuff (l : List Bool) : unstuff (stuff l) = some l := unstuffFrom_stuffFrom l false 0 (by omega)

@[simp] theorem Machine.unline_lineOf (bs : List Byte) : unline (lineOf bs) = some (byteBits bs) := by
  unfold lineOf
  split
  · rename_i h
    simp [unline, h]
  · rename_i h
    simp [unline, h]

theorem Machine.length_byteBits (bs : List Byte) : (byteBits bs).length = 8 * bs.length := by
  induction bs with
  | nil => rfl
  | cons b rest ih => simp [byteBits, bitsOf] at ih ⊢; omega

theorem Machine.bitsBytes_byteBits (bs : List Byte) : bitsBytes (byteBits bs) = bs := by
  induction bs with
  | nil => rfl
  | cons b rest ih =>
    have hb : ∀ x : BitVec 8, BitVec.ofNat 8 (bitsNat (bitsOf 8 x.toNat)) = x := by decide
    have : byteBits (b :: rest) = bitsOf 8 b.toNat ++ byteBits rest := rfl
    rw [this]
    exact congrArg₂ List.cons (hb b) ih

@[simp] theorem wholeBytes_byteBits (bs : List Byte) : wholeBytes (byteBits bs) = some bs := by
  simp [wholeBytes, length_byteBits, bitsBytes_byteBits]

/-- The line carries a telegram's bytes to the decoder as they are (R144). -/
@[simp] theorem decodeLine_lineOf (bs : List Byte) : decodeLine (lineOf bs) = decodeTelegram bs := by simp [decodeLine]

/-- The same for a part that may be sending (R145). -/
@[simp] theorem receivedLine_lineOf (s : State) (bs : List Byte) : receivedLine s (lineOf bs) = receivedCommand s bs := by
  simp [receivedLine]

end Sys2Proof
end

