-- ==== Sys2Proof/Laws/State.lean ====
section
/-! SUPPORT. One lemma per field for each update of one block of State, and for the small updates of the sequencer, the
dryer and the transmit queue. -/

namespace Sys2Proof.Machine

variable (s : State)

/-! ### onClock -/

@[simp] theorem State.onClock_powered (f : Clock → Clock) : (s.onClock f).powered = s.powered := rfl
@[simp] theorem State.onClock_straps (f : Clock → Clock) : (s.onClock f).straps = s.straps := rfl
@[simp] theorem State.onClock_station (f : Clock → Clock) : (s.onClock f).station = s.station := rfl
@[simp] theorem State.onClock_clock (f : Clock → Clock) : (s.onClock f).clock = f s.clock := rfl
@[simp] theorem State.onClock_acct (f : Clock → Clock) : (s.onClock f).acct = s.acct := rfl
@[simp] theorem State.onClock_nom (f : Clock → Clock) : (s.onClock f).nom = s.nom := rfl
@[simp] theorem State.onClock_peers (f : Clock → Clock) : (s.onClock f).peers = s.peers := rfl
@[simp] theorem State.onClock_train (f : Clock → Clock) : (s.onClock f).train = s.train := rfl
@[simp] theorem State.onClock_comp (f : Clock → Clock) : (s.onClock f).comp = s.comp := rfl
@[simp] theorem State.onClock_dryer (f : Clock → Clock) : (s.onClock f).dryer = s.dryer := rfl
@[simp] theorem State.onClock_intake (f : Clock → Clock) : (s.onClock f).intake = s.intake := rfl
@[simp] theorem State.onClock_mon (f : Clock → Clock) : (s.onClock f).mon = s.mon := rfl
@[simp] theorem State.onClock_link (f : Clock → Clock) : (s.onClock f).link = s.link := rfl
@[simp] theorem State.onClock_port (f : Clock → Clock) : (s.onClock f).port = s.port := rfl
@[simp] theorem State.onClock_ext (f : Clock → Clock) : (s.onClock f).ext = s.ext := rfl
@[simp] theorem State.onClock_freeDraws (f : Clock → Clock) : (s.onClock f).freeDraws = s.freeDraws := rfl
@[simp] theorem State.onClock_pending (f : Clock → Clock) : (s.onClock f).pending = s.pending := rfl

/-! ### onAcct -/

@[simp] theorem State.onAcct_powered (f : Accounts → Accounts) : (s.onAcct f).powered = s.powered := rfl
@[simp] theorem State.onAcct_straps (f : Accounts → Accounts) : (s.onAcct f).straps = s.straps := rfl
@[simp] theorem State.onAcct_station (f : Accounts → Accounts) : (s.onAcct f).station = s.station := rfl
@[simp] theorem State.onAcct_clock (f : Accounts → Accounts) : (s.onAcct f).clock = s.clock := rfl
@[simp] theorem State.onAcct_acct (f : Accounts → Accounts) : (s.onAcct f).acct = f s.acct := rfl
@[simp] theorem State.onAcct_nom (f : Accounts → Accounts) : (s.onAcct f).nom = s.nom := rfl
@[simp] theorem State.onAcct_peers (f : Accounts → Accounts) : (s.onAcct f).peers = s.peers := rfl
@[simp] theorem State.onAcct_train (f : Accounts → Accounts) : (s.onAcct f).train = s.train := rfl
@[simp] theorem State.onAcct_comp (f : Accounts → Accounts) : (s.onAcct f).comp = s.comp := rfl
@[simp] theorem State.onAcct_dryer (f : Accounts → Accounts) : (s.onAcct f).dryer = s.dryer := rfl
@[simp] theorem State.onAcct_intake (f : Accounts → Accounts) : (s.onAcct f).intake = s.intake := rfl
@[simp] theorem State.onAcct_mon (f : Accounts → Accounts) : (s.onAcct f).mon = s.mon := rfl
@[simp] theorem State.onAcct_link (f : Accounts → Accounts) : (s.onAcct f).link = s.link := rfl
@[simp] theorem State.onAcct_port (f : Accounts → Accounts) : (s.onAcct f).port = s.port := rfl
@[simp] theorem State.onAcct_ext (f : Accounts → Accounts) : (s.onAcct f).ext = s.ext := rfl
@[simp] theorem State.onAcct_freeDraws (f : Accounts → Accounts) : (s.onAcct f).freeDraws = s.freeDraws := rfl
@[simp] theorem State.onAcct_pending (f : Accounts → Accounts) : (s.onAcct f).pending = s.pending := rfl

/-! ### onNom -/

@[simp] theorem State.onNom_powered (f : Nominations → Nominations) : (s.onNom f).powered = s.powered := rfl
@[simp] theorem State.onNom_straps (f : Nominations → Nominations) : (s.onNom f).straps = s.straps := rfl
@[simp] theorem State.onNom_station (f : Nominations → Nominations) : (s.onNom f).station = s.station := rfl
@[simp] theorem State.onNom_clock (f : Nominations → Nominations) : (s.onNom f).clock = s.clock := rfl
@[simp] theorem State.onNom_acct (f : Nominations → Nominations) : (s.onNom f).acct = s.acct := rfl
@[simp] theorem State.onNom_nom (f : Nominations → Nominations) : (s.onNom f).nom = f s.nom := rfl
@[simp] theorem State.onNom_peers (f : Nominations → Nominations) : (s.onNom f).peers = s.peers := rfl
@[simp] theorem State.onNom_train (f : Nominations → Nominations) : (s.onNom f).train = s.train := rfl
@[simp] theorem State.onNom_comp (f : Nominations → Nominations) : (s.onNom f).comp = s.comp := rfl
@[simp] theorem State.onNom_dryer (f : Nominations → Nominations) : (s.onNom f).dryer = s.dryer := rfl
@[simp] theorem State.onNom_intake (f : Nominations → Nominations) : (s.onNom f).intake = s.intake := rfl
@[simp] theorem State.onNom_mon (f : Nominations → Nominations) : (s.onNom f).mon = s.mon := rfl
@[simp] theorem State.onNom_link (f : Nominations → Nominations) : (s.onNom f).link = s.link := rfl
@[simp] theorem State.onNom_port (f : Nominations → Nominations) : (s.onNom f).port = s.port := rfl
@[simp] theorem State.onNom_ext (f : Nominations → Nominations) : (s.onNom f).ext = s.ext := rfl
@[simp] theorem State.onNom_freeDraws (f : Nominations → Nominations) : (s.onNom f).freeDraws = s.freeDraws := rfl
@[simp] theorem State.onNom_pending (f : Nominations → Nominations) : (s.onNom f).pending = s.pending := rfl

/-! ### onPeers -/

@[simp] theorem State.onPeers_powered (f : Peers → Peers) : (s.onPeers f).powered = s.powered := rfl
@[simp] theorem State.onPeers_straps (f : Peers → Peers) : (s.onPeers f).straps = s.straps := rfl
@[simp] theorem State.onPeers_station (f : Peers → Peers) : (s.onPeers f).station = s.station := rfl
@[simp] theorem State.onPeers_clock (f : Peers → Peers) : (s.onPeers f).clock = s.clock := rfl
@[simp] theorem State.onPeers_acct (f : Peers → Peers) : (s.onPeers f).acct = s.acct := rfl
@[simp] theorem State.onPeers_nom (f : Peers → Peers) : (s.onPeers f).nom = s.nom := rfl
@[simp] theorem State.onPeers_peers (f : Peers → Peers) : (s.onPeers f).peers = f s.peers := rfl
@[simp] theorem State.onPeers_train (f : Peers → Peers) : (s.onPeers f).train = s.train := rfl
@[simp] theorem State.onPeers_comp (f : Peers → Peers) : (s.onPeers f).comp = s.comp := rfl
@[simp] theorem State.onPeers_dryer (f : Peers → Peers) : (s.onPeers f).dryer = s.dryer := rfl
@[simp] theorem State.onPeers_intake (f : Peers → Peers) : (s.onPeers f).intake = s.intake := rfl
@[simp] theorem State.onPeers_mon (f : Peers → Peers) : (s.onPeers f).mon = s.mon := rfl
@[simp] theorem State.onPeers_link (f : Peers → Peers) : (s.onPeers f).link = s.link := rfl
@[simp] theorem State.onPeers_port (f : Peers → Peers) : (s.onPeers f).port = s.port := rfl
@[simp] theorem State.onPeers_ext (f : Peers → Peers) : (s.onPeers f).ext = s.ext := rfl
@[simp] theorem State.onPeers_freeDraws (f : Peers → Peers) : (s.onPeers f).freeDraws = s.freeDraws := rfl
@[simp] theorem State.onPeers_pending (f : Peers → Peers) : (s.onPeers f).pending = s.pending := rfl

/-! ### onTrain -/

@[simp] theorem State.onTrain_powered (f : Train → Train) : (s.onTrain f).powered = s.powered := rfl
@[simp] theorem State.onTrain_straps (f : Train → Train) : (s.onTrain f).straps = s.straps := rfl
@[simp] theorem State.onTrain_station (f : Train → Train) : (s.onTrain f).station = s.station := rfl
@[simp] theorem State.onTrain_clock (f : Train → Train) : (s.onTrain f).clock = s.clock := rfl
@[simp] theorem State.onTrain_acct (f : Train → Train) : (s.onTrain f).acct = s.acct := rfl
@[simp] theorem State.onTrain_nom (f : Train → Train) : (s.onTrain f).nom = s.nom := rfl
@[simp] theorem State.onTrain_peers (f : Train → Train) : (s.onTrain f).peers = s.peers := rfl
@[simp] theorem State.onTrain_train (f : Train → Train) : (s.onTrain f).train = f s.train := rfl
@[simp] theorem State.onTrain_comp (f : Train → Train) : (s.onTrain f).comp = s.comp := rfl
@[simp] theorem State.onTrain_dryer (f : Train → Train) : (s.onTrain f).dryer = s.dryer := rfl
@[simp] theorem State.onTrain_intake (f : Train → Train) : (s.onTrain f).intake = s.intake := rfl
@[simp] theorem State.onTrain_mon (f : Train → Train) : (s.onTrain f).mon = s.mon := rfl
@[simp] theorem State.onTrain_link (f : Train → Train) : (s.onTrain f).link = s.link := rfl
@[simp] theorem State.onTrain_port (f : Train → Train) : (s.onTrain f).port = s.port := rfl
@[simp] theorem State.onTrain_ext (f : Train → Train) : (s.onTrain f).ext = s.ext := rfl
@[simp] theorem State.onTrain_freeDraws (f : Train → Train) : (s.onTrain f).freeDraws = s.freeDraws := rfl
@[simp] theorem State.onTrain_pending (f : Train → Train) : (s.onTrain f).pending = s.pending := rfl

/-! ### onComp -/

@[simp] theorem State.onComp_powered (f : Compressor → Compressor) : (s.onComp f).powered = s.powered := rfl
@[simp] theorem State.onComp_straps (f : Compressor → Compressor) : (s.onComp f).straps = s.straps := rfl
@[simp] theorem State.onComp_station (f : Compressor → Compressor) : (s.onComp f).station = s.station := rfl
@[simp] theorem State.onComp_clock (f : Compressor → Compressor) : (s.onComp f).clock = s.clock := rfl
@[simp] theorem State.onComp_acct (f : Compressor → Compressor) : (s.onComp f).acct = s.acct := rfl
@[simp] theorem State.onComp_nom (f : Compressor → Compressor) : (s.onComp f).nom = s.nom := rfl
@[simp] theorem State.onComp_peers (f : Compressor → Compressor) : (s.onComp f).peers = s.peers := rfl
@[simp] theorem State.onComp_train (f : Compressor → Compressor) : (s.onComp f).train = s.train := rfl
@[simp] theorem State.onComp_comp (f : Compressor → Compressor) : (s.onComp f).comp = f s.comp := rfl
@[simp] theorem State.onComp_dryer (f : Compressor → Compressor) : (s.onComp f).dryer = s.dryer := rfl
@[simp] theorem State.onComp_intake (f : Compressor → Compressor) : (s.onComp f).intake = s.intake := rfl
@[simp] theorem State.onComp_mon (f : Compressor → Compressor) : (s.onComp f).mon = s.mon := rfl
@[simp] theorem State.onComp_link (f : Compressor → Compressor) : (s.onComp f).link = s.link := rfl
@[simp] theorem State.onComp_port (f : Compressor → Compressor) : (s.onComp f).port = s.port := rfl
@[simp] theorem State.onComp_ext (f : Compressor → Compressor) : (s.onComp f).ext = s.ext := rfl
@[simp] theorem State.onComp_freeDraws (f : Compressor → Compressor) : (s.onComp f).freeDraws = s.freeDraws := rfl
@[simp] theorem State.onComp_pending (f : Compressor → Compressor) : (s.onComp f).pending = s.pending := rfl

/-! ### onDryer -/

@[simp] theorem State.onDryer_powered (f : Dryer → Dryer) : (s.onDryer f).powered = s.powered := rfl
@[simp] theorem State.onDryer_straps (f : Dryer → Dryer) : (s.onDryer f).straps = s.straps := rfl
@[simp] theorem State.onDryer_station (f : Dryer → Dryer) : (s.onDryer f).station = s.station := rfl
@[simp] theorem State.onDryer_clock (f : Dryer → Dryer) : (s.onDryer f).clock = s.clock := rfl
@[simp] theorem State.onDryer_acct (f : Dryer → Dryer) : (s.onDryer f).acct = s.acct := rfl
@[simp] theorem State.onDryer_nom (f : Dryer → Dryer) : (s.onDryer f).nom = s.nom := rfl
@[simp] theorem State.onDryer_peers (f : Dryer → Dryer) : (s.onDryer f).peers = s.peers := rfl
@[simp] theorem State.onDryer_train (f : Dryer → Dryer) : (s.onDryer f).train = s.train := rfl
@[simp] theorem State.onDryer_comp (f : Dryer → Dryer) : (s.onDryer f).comp = s.comp := rfl
@[simp] theorem State.onDryer_dryer (f : Dryer → Dryer) : (s.onDryer f).dryer = f s.dryer := rfl
@[simp] theorem State.onDryer_intake (f : Dryer → Dryer) : (s.onDryer f).intake = s.intake := rfl
@[simp] theorem State.onDryer_mon (f : Dryer → Dryer) : (s.onDryer f).mon = s.mon := rfl
@[simp] theorem State.onDryer_link (f : Dryer → Dryer) : (s.onDryer f).link = s.link := rfl
@[simp] theorem State.onDryer_port (f : Dryer → Dryer) : (s.onDryer f).port = s.port := rfl
@[simp] theorem State.onDryer_ext (f : Dryer → Dryer) : (s.onDryer f).ext = s.ext := rfl
@[simp] theorem State.onDryer_freeDraws (f : Dryer → Dryer) : (s.onDryer f).freeDraws = s.freeDraws := rfl
@[simp] theorem State.onDryer_pending (f : Dryer → Dryer) : (s.onDryer f).pending = s.pending := rfl

/-! ### onIntake -/

@[simp] theorem State.onIntake_powered (f : Intake → Intake) : (s.onIntake f).powered = s.powered := rfl
@[simp] theorem State.onIntake_straps (f : Intake → Intake) : (s.onIntake f).straps = s.straps := rfl
@[simp] theorem State.onIntake_station (f : Intake → Intake) : (s.onIntake f).station = s.station := rfl
@[simp] theorem State.onIntake_clock (f : Intake → Intake) : (s.onIntake f).clock = s.clock := rfl
@[simp] theorem State.onIntake_acct (f : Intake → Intake) : (s.onIntake f).acct = s.acct := rfl
@[simp] theorem State.onIntake_nom (f : Intake → Intake) : (s.onIntake f).nom = s.nom := rfl
@[simp] theorem State.onIntake_peers (f : Intake → Intake) : (s.onIntake f).peers = s.peers := rfl
@[simp] theorem State.onIntake_train (f : Intake → Intake) : (s.onIntake f).train = s.train := rfl
@[simp] theorem State.onIntake_comp (f : Intake → Intake) : (s.onIntake f).comp = s.comp := rfl
@[simp] theorem State.onIntake_dryer (f : Intake → Intake) : (s.onIntake f).dryer = s.dryer := rfl
@[simp] theorem State.onIntake_intake (f : Intake → Intake) : (s.onIntake f).intake = f s.intake := rfl
@[simp] theorem State.onIntake_mon (f : Intake → Intake) : (s.onIntake f).mon = s.mon := rfl
@[simp] theorem State.onIntake_link (f : Intake → Intake) : (s.onIntake f).link = s.link := rfl
@[simp] theorem State.onIntake_port (f : Intake → Intake) : (s.onIntake f).port = s.port := rfl
@[simp] theorem State.onIntake_ext (f : Intake → Intake) : (s.onIntake f).ext = s.ext := rfl
@[simp] theorem State.onIntake_freeDraws (f : Intake → Intake) : (s.onIntake f).freeDraws = s.freeDraws := rfl
@[simp] theorem State.onIntake_pending (f : Intake → Intake) : (s.onIntake f).pending = s.pending := rfl

/-! ### onMon -/

@[simp] theorem State.onMon_powered (f : Monitor → Monitor) : (s.onMon f).powered = s.powered := rfl
@[simp] theorem State.onMon_straps (f : Monitor → Monitor) : (s.onMon f).straps = s.straps := rfl
@[simp] theorem State.onMon_station (f : Monitor → Monitor) : (s.onMon f).station = s.station := rfl
@[simp] theorem State.onMon_clock (f : Monitor → Monitor) : (s.onMon f).clock = s.clock := rfl
@[simp] theorem State.onMon_acct (f : Monitor → Monitor) : (s.onMon f).acct = s.acct := rfl
@[simp] theorem State.onMon_nom (f : Monitor → Monitor) : (s.onMon f).nom = s.nom := rfl
@[simp] theorem State.onMon_peers (f : Monitor → Monitor) : (s.onMon f).peers = s.peers := rfl
@[simp] theorem State.onMon_train (f : Monitor → Monitor) : (s.onMon f).train = s.train := rfl
@[simp] theorem State.onMon_comp (f : Monitor → Monitor) : (s.onMon f).comp = s.comp := rfl
@[simp] theorem State.onMon_dryer (f : Monitor → Monitor) : (s.onMon f).dryer = s.dryer := rfl
@[simp] theorem State.onMon_intake (f : Monitor → Monitor) : (s.onMon f).intake = s.intake := rfl
@[simp] theorem State.onMon_mon (f : Monitor → Monitor) : (s.onMon f).mon = f s.mon := rfl
@[simp] theorem State.onMon_link (f : Monitor → Monitor) : (s.onMon f).link = s.link := rfl
@[simp] theorem State.onMon_port (f : Monitor → Monitor) : (s.onMon f).port = s.port := rfl
@[simp] theorem State.onMon_ext (f : Monitor → Monitor) : (s.onMon f).ext = s.ext := rfl
@[simp] theorem State.onMon_freeDraws (f : Monitor → Monitor) : (s.onMon f).freeDraws = s.freeDraws := rfl
@[simp] theorem State.onMon_pending (f : Monitor → Monitor) : (s.onMon f).pending = s.pending := rfl

/-! ### onLink -/

@[simp] theorem State.onLink_powered (f : Link → Link) : (s.onLink f).powered = s.powered := rfl
@[simp] theorem State.onLink_straps (f : Link → Link) : (s.onLink f).straps = s.straps := rfl
@[simp] theorem State.onLink_station (f : Link → Link) : (s.onLink f).station = s.station := rfl
@[simp] theorem State.onLink_clock (f : Link → Link) : (s.onLink f).clock = s.clock := rfl
@[simp] theorem State.onLink_acct (f : Link → Link) : (s.onLink f).acct = s.acct := rfl
@[simp] theorem State.onLink_nom (f : Link → Link) : (s.onLink f).nom = s.nom := rfl
@[simp] theorem State.onLink_peers (f : Link → Link) : (s.onLink f).peers = s.peers := rfl
@[simp] theorem State.onLink_train (f : Link → Link) : (s.onLink f).train = s.train := rfl
@[simp] theorem State.onLink_comp (f : Link → Link) : (s.onLink f).comp = s.comp := rfl
@[simp] theorem State.onLink_dryer (f : Link → Link) : (s.onLink f).dryer = s.dryer := rfl
@[simp] theorem State.onLink_intake (f : Link → Link) : (s.onLink f).intake = s.intake := rfl
@[simp] theorem State.onLink_mon (f : Link → Link) : (s.onLink f).mon = s.mon := rfl
@[simp] theorem State.onLink_link (f : Link → Link) : (s.onLink f).link = f s.link := rfl
@[simp] theorem State.onLink_port (f : Link → Link) : (s.onLink f).port = s.port := rfl
@[simp] theorem State.onLink_ext (f : Link → Link) : (s.onLink f).ext = s.ext := rfl
@[simp] theorem State.onLink_freeDraws (f : Link → Link) : (s.onLink f).freeDraws = s.freeDraws := rfl
@[simp] theorem State.onLink_pending (f : Link → Link) : (s.onLink f).pending = s.pending := rfl

/-! ### onPort -/

@[simp] theorem State.onPort_powered (f : MemoryPort → MemoryPort) : (s.onPort f).powered = s.powered := rfl
@[simp] theorem State.onPort_straps (f : MemoryPort → MemoryPort) : (s.onPort f).straps = s.straps := rfl
@[simp] theorem State.onPort_station (f : MemoryPort → MemoryPort) : (s.onPort f).station = s.station := rfl
@[simp] theorem State.onPort_clock (f : MemoryPort → MemoryPort) : (s.onPort f).clock = s.clock := rfl
@[simp] theorem State.onPort_acct (f : MemoryPort → MemoryPort) : (s.onPort f).acct = s.acct := rfl
@[simp] theorem State.onPort_nom (f : MemoryPort → MemoryPort) : (s.onPort f).nom = s.nom := rfl
@[simp] theorem State.onPort_peers (f : MemoryPort → MemoryPort) : (s.onPort f).peers = s.peers := rfl
@[simp] theorem State.onPort_train (f : MemoryPort → MemoryPort) : (s.onPort f).train = s.train := rfl
@[simp] theorem State.onPort_comp (f : MemoryPort → MemoryPort) : (s.onPort f).comp = s.comp := rfl
@[simp] theorem State.onPort_dryer (f : MemoryPort → MemoryPort) : (s.onPort f).dryer = s.dryer := rfl
@[simp] theorem State.onPort_intake (f : MemoryPort → MemoryPort) : (s.onPort f).intake = s.intake := rfl
@[simp] theorem State.onPort_mon (f : MemoryPort → MemoryPort) : (s.onPort f).mon = s.mon := rfl
@[simp] theorem State.onPort_link (f : MemoryPort → MemoryPort) : (s.onPort f).link = s.link := rfl
@[simp] theorem State.onPort_port (f : MemoryPort → MemoryPort) : (s.onPort f).port = f s.port := rfl
@[simp] theorem State.onPort_ext (f : MemoryPort → MemoryPort) : (s.onPort f).ext = s.ext := rfl
@[simp] theorem State.onPort_freeDraws (f : MemoryPort → MemoryPort) : (s.onPort f).freeDraws = s.freeDraws := rfl
@[simp] theorem State.onPort_pending (f : MemoryPort → MemoryPort) : (s.onPort f).pending = s.pending := rfl

/-! ### onExt -/

@[simp] theorem State.onExt_powered (f : ExternalMemory → ExternalMemory) : (s.onExt f).powered = s.powered := rfl
@[simp] theorem State.onExt_straps (f : ExternalMemory → ExternalMemory) : (s.onExt f).straps = s.straps := rfl
@[simp] theorem State.onExt_station (f : ExternalMemory → ExternalMemory) : (s.onExt f).station = s.station := rfl
@[simp] theorem State.onExt_clock (f : ExternalMemory → ExternalMemory) : (s.onExt f).clock = s.clock := rfl
@[simp] theorem State.onExt_acct (f : ExternalMemory → ExternalMemory) : (s.onExt f).acct = s.acct := rfl
@[simp] theorem State.onExt_nom (f : ExternalMemory → ExternalMemory) : (s.onExt f).nom = s.nom := rfl
@[simp] theorem State.onExt_peers (f : ExternalMemory → ExternalMemory) : (s.onExt f).peers = s.peers := rfl
@[simp] theorem State.onExt_train (f : ExternalMemory → ExternalMemory) : (s.onExt f).train = s.train := rfl
@[simp] theorem State.onExt_comp (f : ExternalMemory → ExternalMemory) : (s.onExt f).comp = s.comp := rfl
@[simp] theorem State.onExt_dryer (f : ExternalMemory → ExternalMemory) : (s.onExt f).dryer = s.dryer := rfl
@[simp] theorem State.onExt_intake (f : ExternalMemory → ExternalMemory) : (s.onExt f).intake = s.intake := rfl
@[simp] theorem State.onExt_mon (f : ExternalMemory → ExternalMemory) : (s.onExt f).mon = s.mon := rfl
@[simp] theorem State.onExt_link (f : ExternalMemory → ExternalMemory) : (s.onExt f).link = s.link := rfl
@[simp] theorem State.onExt_port (f : ExternalMemory → ExternalMemory) : (s.onExt f).port = s.port := rfl
@[simp] theorem State.onExt_ext (f : ExternalMemory → ExternalMemory) : (s.onExt f).ext = f s.ext := rfl
@[simp] theorem State.onExt_freeDraws (f : ExternalMemory → ExternalMemory) : (s.onExt f).freeDraws = s.freeDraws := rfl
@[simp] theorem State.onExt_pending (f : ExternalMemory → ExternalMemory) : (s.onExt f).pending = s.pending := rfl

/-! ### Equality -/

/-- States with equal blocks are equal. -/
theorem State.eq_of_blocks {s t : State}
    (h0 : s.powered = t.powered) (h1 : s.straps = t.straps) (h2 : s.station = t.station) (h3 : s.clock =
    t.clock) (h4 : s.acct = t.acct) (h5 : s.nom = t.nom) (h6 : s.peers = t.peers) (h7 : s.train = t.train) (h8
    : s.comp = t.comp) (h9 : s.dryer = t.dryer) (h10 : s.intake = t.intake) (h11 : s.mon = t.mon) (h12 :
    s.link = t.link) (h13 : s.port = t.port) (h14 : s.ext = t.ext) (h15 : s.freeDraws = t.freeDraws) (h16 :
    s.pending = t.pending) :
    s = t := by
  cases s; cases t; simp_all

/-! ### Small updates -/

@[simp] theorem State.cfg_onTrain (f : Train → Train) : (s.onTrain f).cfg = s.cfg := rfl

@[simp] theorem Compressor.setUnit_unit (c : Compressor) (u : Sys2Proof.UnitState) :
    (c.setUnit u).unit = u := rfl
@[simp] theorem Compressor.setUnit_command (c : Compressor) (u : Sys2Proof.UnitState) :
    (c.setUnit u).command = commandOf u := rfl
@[simp] theorem Compressor.setUnit_path (c : Compressor) (u : Sys2Proof.UnitState) :
    (c.setUnit u).path = c.path := rfl
@[simp] theorem Compressor.setUnit_capacity (c : Compressor) (u : Sys2Proof.UnitState) :
    (c.setUnit u).capacity = c.capacity := rfl
@[simp] theorem Compressor.setUnit_claimInFlight (c : Compressor) (u : Sys2Proof.UnitState) :
    (c.setUnit u).claimInFlight = c.claimInFlight := rfl
@[simp] theorem Compressor.setUnit_cedePending (c : Compressor) (u : Sys2Proof.UnitState) :
    (c.setUnit u).cedePending = c.cedePending := rfl
@[simp] theorem Compressor.setUnit_starts (c : Compressor) (u : Sys2Proof.UnitState) :
    (c.setUnit u).starts = c.starts := rfl
@[simp] theorem Compressor.setUnit_trips (c : Compressor) (u : Sys2Proof.UnitState) :
    (c.setUnit u).trips = c.trips := rfl
@[simp] theorem Compressor.setUnit_runTimer (c : Compressor) (u : Sys2Proof.UnitState) :
    (c.setUnit u).runTimer = c.runTimer := rfl
@[simp] theorem Compressor.setUnit_stopTimer (c : Compressor) (u : Sys2Proof.UnitState) :
    (c.setUnit u).stopTimer = c.stopTimer := rfl
@[simp] theorem Compressor.setUnit_startTimer (c : Compressor) (u : Sys2Proof.UnitState) :
    (c.setUnit u).startTimer = c.startTimer := rfl
@[simp] theorem Compressor.setUnit_zeroDemand (c : Compressor) (u : Sys2Proof.UnitState) :
    (c.setUnit u).zeroDemand = c.zeroDemand := rfl
@[simp] theorem Compressor.setUnit_feedback (c : Compressor) (u : Sys2Proof.UnitState) :
    (c.setUnit u).feedback = c.feedback := rfl
@[simp] theorem Compressor.setUnit_awaiting (c : Compressor) (u : Sys2Proof.UnitState) :
    (c.setUnit u).awaiting = c.awaiting := rfl
@[simp] theorem Compressor.setUnit_startLimit (c : Compressor) (u : Sys2Proof.UnitState) :
    (c.setUnit u).startLimit = c.startLimit := rfl
@[simp] theorem Compressor.setUnit_fuelCarry (c : Compressor) (u : Sys2Proof.UnitState) :
    (c.setUnit u).fuelCarry = c.fuelCarry := rfl

@[simp] theorem Monitor.count_sums (m : Monitor) (n : Nat) :
    (m.count n).sumInjected = m.sumInjected ∧ (m.count n).sumWithdrawn = m.sumWithdrawn ∧
    (m.count n).sumCompFuel = m.sumCompFuel ∧ (m.count n).sumHeater = m.sumHeater := by simp [Monitor.count]

@[simp] theorem Monitor.escalate_sums (m : Monitor) (r : ExceptionRecord) :
    (m.escalate r).sumInjected = m.sumInjected ∧ (m.escalate r).sumWithdrawn = m.sumWithdrawn ∧
    (m.escalate r).sumCompFuel = m.sumCompFuel ∧ (m.escalate r).sumHeater = m.sumHeater := by
  unfold Monitor.escalate; dsimp only; split <;> simp

@[simp] theorem Link.withQueue_queue (l : Link) (q : List Entry) : (l.withQueue q).queue = q := rfl
@[simp] theorem Link.withQueue_mark (l : Link) (q : List Entry) :
    (l.withQueue q).refusalMark = refusalMarkAfter l.refusalMark q.length := rfl

end Sys2Proof.Machine
end

