-- ==== Sys2Proof/Laws/Frames.lean ====
section
/-! SUPPORT. What each shared operation leaves as it was: one frame lemma for each operation, a conjunction over the
blocks (and the fields of a block it writes in part) that it does not touch, which simp uses field by field. A proof
about a command cites these and never unfolds the operation. -/

namespace Sys2Proof.Machine

variable (s : State)

@[simp] theorem raiseQuiet_frame (c : Cond) (slot : Nat) (v : Int) :
    (raiseQuiet c slot v s).powered = s.powered ∧ (raiseQuiet c slot v s).straps = s.straps ∧
    (raiseQuiet c slot v s).station = s.station ∧ (raiseQuiet c slot v s).clock = s.clock ∧
    (raiseQuiet c slot v s).acct = s.acct ∧ (raiseQuiet c slot v s).nom = s.nom ∧
    (raiseQuiet c slot v s).peers = s.peers ∧ (raiseQuiet c slot v s).train = s.train ∧
    (raiseQuiet c slot v s).comp = s.comp ∧ (raiseQuiet c slot v s).dryer = s.dryer ∧
    (raiseQuiet c slot v s).intake = s.intake ∧ (raiseQuiet c slot v s).link = s.link ∧
    (raiseQuiet c slot v s).port = s.port ∧ (raiseQuiet c slot v s).ext = s.ext ∧
    (raiseQuiet c slot v s).freeDraws = s.freeDraws ∧ (raiseQuiet c slot v s).pending = s.pending ∧
    (raiseQuiet c slot v s).mon.sumInjected = s.mon.sumInjected ∧
    (raiseQuiet c slot v s).mon.sumWithdrawn = s.mon.sumWithdrawn ∧
    (raiseQuiet c slot v s).mon.sumCompFuel = s.mon.sumCompFuel ∧
    (raiseQuiet c slot v s).mon.sumHeater = s.mon.sumHeater := by
  unfold raiseQuiet; split <;> simp

@[simp] theorem queueConditionReport_frame (r : ConditionReport) :
    (queueConditionReport r s).powered = s.powered ∧ (queueConditionReport r s).straps = s.straps ∧
    (queueConditionReport r s).station = s.station ∧ (queueConditionReport r s).clock = s.clock ∧
    (queueConditionReport r s).acct = s.acct ∧ (queueConditionReport r s).nom = s.nom ∧
    (queueConditionReport r s).peers = s.peers ∧ (queueConditionReport r s).train = s.train ∧
    (queueConditionReport r s).comp = s.comp ∧ (queueConditionReport r s).dryer = s.dryer ∧
    (queueConditionReport r s).intake = s.intake ∧ (queueConditionReport r s).port = s.port ∧
    (queueConditionReport r s).ext = s.ext ∧ (queueConditionReport r s).freeDraws = s.freeDraws ∧
    (queueConditionReport r s).pending = s.pending ∧ (queueConditionReport r s).link.state = s.link.state ∧
    (queueConditionReport r s).link.join = s.link.join ∧
    (queueConditionReport r s).link.joinFailures = s.link.joinFailures ∧
    (queueConditionReport r s).link.haltSet = s.link.haltSet ∧
    (queueConditionReport r s).link.receiveErrors = s.link.receiveErrors ∧
    (queueConditionReport r s).link.discards = s.link.discards ∧
    (queueConditionReport r s).link.restartPending = s.link.restartPending ∧
    (queueConditionReport r s).mon.sumInjected = s.mon.sumInjected ∧
    (queueConditionReport r s).mon.sumWithdrawn = s.mon.sumWithdrawn ∧
    (queueConditionReport r s).mon.sumCompFuel = s.mon.sumCompFuel ∧
    (queueConditionReport r s).mon.sumHeater = s.mon.sumHeater := by
  unfold queueConditionReport; split <;> simp [Link.enter, Link.withQueue]

@[simp] theorem raise_frame (c : Cond) (slot : Nat) (v : Int) :
    (raise c slot v s).powered = s.powered ∧ (raise c slot v s).straps = s.straps ∧
    (raise c slot v s).station = s.station ∧ (raise c slot v s).clock = s.clock ∧ (raise c slot v s).acct = s.acct ∧
    (raise c slot v s).nom = s.nom ∧ (raise c slot v s).peers = s.peers ∧ (raise c slot v s).train = s.train ∧
    (raise c slot v s).comp = s.comp ∧ (raise c slot v s).dryer = s.dryer ∧ (raise c slot v s).intake = s.intake ∧
    (raise c slot v s).port = s.port ∧ (raise c slot v s).ext = s.ext ∧ (raise c slot v s).freeDraws = s.freeDraws ∧
    (raise c slot v s).pending = s.pending ∧ (raise c slot v s).link.state = s.link.state ∧
    (raise c slot v s).link.join = s.link.join ∧ (raise c slot v s).link.joinFailures = s.link.joinFailures ∧
    (raise c slot v s).link.haltSet = s.link.haltSet ∧ (raise c slot v s).link.receiveErrors = s.link.receiveErrors ∧
    (raise c slot v s).link.discards = s.link.discards ∧
    (raise c slot v s).link.restartPending = s.link.restartPending ∧
    (raise c slot v s).mon.sumInjected = s.mon.sumInjected ∧
    (raise c slot v s).mon.sumWithdrawn = s.mon.sumWithdrawn ∧
    (raise c slot v s).mon.sumCompFuel = s.mon.sumCompFuel ∧ (raise c slot v s).mon.sumHeater = s.mon.sumHeater := by
  unfold raise; dsimp only; split <;> simp

@[simp] theorem tellUnsent_frame (o : Owner) (t : Telegram) :
    (tellUnsent o t s).powered = s.powered ∧ (tellUnsent o t s).straps = s.straps ∧
    (tellUnsent o t s).station = s.station ∧ (tellUnsent o t s).clock = s.clock ∧ (tellUnsent o t s).nom = s.nom ∧
    (tellUnsent o t s).peers = s.peers ∧ (tellUnsent o t s).train = s.train ∧ (tellUnsent o t s).dryer = s.dryer ∧
    (tellUnsent o t s).intake = s.intake ∧ (tellUnsent o t s).mon = s.mon ∧ (tellUnsent o t s).link = s.link ∧
    (tellUnsent o t s).port = s.port ∧ (tellUnsent o t s).ext = s.ext ∧ (tellUnsent o t s).freeDraws = s.freeDraws ∧
    (tellUnsent o t s).pending = s.pending ∧ (tellUnsent o t s).acct.slots = s.acct.slots ∧
    (tellUnsent o t s).acct.carryInject = s.acct.carryInject ∧
    (tellUnsent o t s).acct.carryWithdraw = s.acct.carryWithdraw ∧
    (tellUnsent o t s).acct.closedDay = s.acct.closedDay ∧ (tellUnsent o t s).acct.closed = s.acct.closed ∧
    (tellUnsent o t s).acct.provisional = s.acct.provisional ∧ (tellUnsent o t s).acct.cursor = s.acct.cursor ∧
    (tellUnsent o t s).acct.restoredTotals = s.acct.restoredTotals ∧ (tellUnsent o t s).comp.path = s.comp.path ∧
    (tellUnsent o t s).comp.capacity = s.comp.capacity ∧ (tellUnsent o t s).comp.unit = s.comp.unit ∧
    (tellUnsent o t s).comp.command = s.comp.command ∧ (tellUnsent o t s).comp.starts = s.comp.starts ∧
    (tellUnsent o t s).comp.trips = s.comp.trips ∧ (tellUnsent o t s).comp.runTimer = s.comp.runTimer ∧
    (tellUnsent o t s).comp.stopTimer = s.comp.stopTimer ∧ (tellUnsent o t s).comp.startTimer = s.comp.startTimer ∧
    (tellUnsent o t s).comp.zeroDemand = s.comp.zeroDemand ∧ (tellUnsent o t s).comp.feedback = s.comp.feedback := by
  unfold tellUnsent; split <;> simp

@[simp] theorem raiseDrop_frame (t : Telegram) :
    (raiseDrop t s).powered = s.powered ∧ (raiseDrop t s).straps = s.straps ∧ (raiseDrop t s).station = s.station ∧
    (raiseDrop t s).clock = s.clock ∧ (raiseDrop t s).acct = s.acct ∧ (raiseDrop t s).nom = s.nom ∧
    (raiseDrop t s).peers = s.peers ∧ (raiseDrop t s).train = s.train ∧ (raiseDrop t s).comp = s.comp ∧
    (raiseDrop t s).dryer = s.dryer ∧ (raiseDrop t s).intake = s.intake ∧ (raiseDrop t s).port = s.port ∧
    (raiseDrop t s).ext = s.ext ∧ (raiseDrop t s).freeDraws = s.freeDraws ∧ (raiseDrop t s).pending = s.pending ∧
    (raiseDrop t s).link.state = s.link.state ∧ (raiseDrop t s).link.join = s.link.join ∧
    (raiseDrop t s).link.joinFailures = s.link.joinFailures ∧ (raiseDrop t s).link.haltSet = s.link.haltSet ∧
    (raiseDrop t s).link.receiveErrors = s.link.receiveErrors ∧ (raiseDrop t s).link.discards = s.link.discards ∧
    (raiseDrop t s).link.restartPending = s.link.restartPending ∧
    (raiseDrop t s).mon.sumInjected = s.mon.sumInjected ∧ (raiseDrop t s).mon.sumWithdrawn = s.mon.sumWithdrawn ∧
    (raiseDrop t s).mon.sumCompFuel = s.mon.sumCompFuel ∧ (raiseDrop t s).mon.sumHeater = s.mon.sumHeater := by
  unfold raiseDrop; split <;> simp

@[simp] theorem enqueue_frame (t : Telegram) (o : Owner) :
    (enqueue t o s).powered = s.powered ∧ (enqueue t o s).straps = s.straps ∧ (enqueue t o s).station = s.station ∧
    (enqueue t o s).clock = s.clock ∧ (enqueue t o s).nom = s.nom ∧ (enqueue t o s).peers = s.peers ∧
    (enqueue t o s).train = s.train ∧ (enqueue t o s).dryer = s.dryer ∧ (enqueue t o s).intake = s.intake ∧
    (enqueue t o s).port = s.port ∧ (enqueue t o s).ext = s.ext ∧ (enqueue t o s).freeDraws = s.freeDraws ∧
    (enqueue t o s).pending = s.pending ∧ (enqueue t o s).link.state = s.link.state ∧
    (enqueue t o s).link.join = s.link.join ∧ (enqueue t o s).link.joinFailures = s.link.joinFailures ∧
    (enqueue t o s).link.haltSet = s.link.haltSet ∧ (enqueue t o s).link.receiveErrors = s.link.receiveErrors ∧
    (enqueue t o s).link.discards = s.link.discards ∧ (enqueue t o s).link.restartPending = s.link.restartPending ∧
    (enqueue t o s).acct.slots = s.acct.slots ∧ (enqueue t o s).acct.carryInject = s.acct.carryInject ∧
    (enqueue t o s).acct.carryWithdraw = s.acct.carryWithdraw ∧ (enqueue t o s).acct.closedDay = s.acct.closedDay ∧
    (enqueue t o s).acct.closed = s.acct.closed ∧ (enqueue t o s).acct.provisional = s.acct.provisional ∧
    (enqueue t o s).acct.cursor = s.acct.cursor ∧ (enqueue t o s).acct.restoredTotals = s.acct.restoredTotals ∧
    (enqueue t o s).comp.path = s.comp.path ∧ (enqueue t o s).comp.capacity = s.comp.capacity ∧
    (enqueue t o s).comp.unit = s.comp.unit ∧ (enqueue t o s).comp.command = s.comp.command ∧
    (enqueue t o s).comp.starts = s.comp.starts ∧ (enqueue t o s).comp.trips = s.comp.trips ∧
    (enqueue t o s).comp.runTimer = s.comp.runTimer ∧ (enqueue t o s).comp.stopTimer = s.comp.stopTimer ∧
    (enqueue t o s).comp.startTimer = s.comp.startTimer ∧ (enqueue t o s).comp.zeroDemand = s.comp.zeroDemand ∧
    (enqueue t o s).comp.feedback = s.comp.feedback ∧ (enqueue t o s).mon.sumInjected = s.mon.sumInjected ∧
    (enqueue t o s).mon.sumWithdrawn = s.mon.sumWithdrawn ∧ (enqueue t o s).mon.sumCompFuel = s.mon.sumCompFuel ∧
    (enqueue t o s).mon.sumHeater = s.mon.sumHeater := by
  unfold enqueue; split <;> (try split) <;> simp [Link.enter, Link.withQueue, Link.replace, Link.remove]

@[simp] theorem requestSetpoint_frame :
    (requestSetpoint s).powered = s.powered ∧ (requestSetpoint s).straps = s.straps ∧
    (requestSetpoint s).station = s.station ∧ (requestSetpoint s).clock = s.clock ∧
    (requestSetpoint s).acct = s.acct ∧ (requestSetpoint s).nom = s.nom ∧ (requestSetpoint s).peers = s.peers ∧
    (requestSetpoint s).train = s.train ∧ (requestSetpoint s).comp = s.comp ∧ (requestSetpoint s).dryer = s.dryer ∧
    (requestSetpoint s).mon = s.mon ∧ (requestSetpoint s).link = s.link ∧ (requestSetpoint s).port = s.port ∧
    (requestSetpoint s).ext = s.ext ∧ (requestSetpoint s).freeDraws = s.freeDraws ∧
    (requestSetpoint s).pending = s.pending ∧ (requestSetpoint s).intake.held = s.intake.held ∧
    (requestSetpoint s).intake.latestCv = s.intake.latestCv ∧
    (requestSetpoint s).intake.lastSequence = s.intake.lastSequence ∧
    (requestSetpoint s).intake.fieldTimer = s.intake.fieldTimer ∧
    (requestSetpoint s).intake.lateRaised = s.intake.lateRaised ∧
    (requestSetpoint s).intake.fieldLost = s.intake.fieldLost ∧
    (requestSetpoint s).intake.checkFailures = s.intake.checkFailures ∧
    (requestSetpoint s).intake.sequenceGaps = s.intake.sequenceGaps ∧
    (requestSetpoint s).intake.hourSamples = s.intake.hourSamples ∧
    (requestSetpoint s).intake.lineup = s.intake.lineup ∧ (requestSetpoint s).intake.meter = s.intake.meter ∧
    (requestSetpoint s).intake.meterSpan = s.intake.meterSpan ∧
    (requestSetpoint s).intake.compFuel = s.intake.compFuel ∧
    (requestSetpoint s).intake.heaterFuel = s.intake.heaterFuel ∧
    (requestSetpoint s).intake.volume = s.intake.volume ∧ (requestSetpoint s).intake.compWh = s.intake.compWh ∧
    (requestSetpoint s).intake.heaterWh = s.intake.heaterWh ∧ (requestSetpoint s).intake.samples = s.intake.samples ∧
    (requestSetpoint s).intake.suspInject = s.intake.suspInject ∧
    (requestSetpoint s).intake.suspWithdraw = s.intake.suspWithdraw ∧
    (requestSetpoint s).intake.handed = s.intake.handed := by
  unfold requestSetpoint; split
  · simp
  · cases h : s.intake.sending <;> simp [h]

@[simp] theorem handFields_frame (f : Setpoint → Setpoint) :
    (handFields f s).powered = s.powered ∧ (handFields f s).straps = s.straps ∧ (handFields f s).station = s.station ∧
    (handFields f s).clock = s.clock ∧ (handFields f s).acct = s.acct ∧ (handFields f s).nom = s.nom ∧
    (handFields f s).peers = s.peers ∧ (handFields f s).train = s.train ∧ (handFields f s).comp = s.comp ∧
    (handFields f s).dryer = s.dryer ∧ (handFields f s).mon = s.mon ∧ (handFields f s).link = s.link ∧
    (handFields f s).port = s.port ∧ (handFields f s).ext = s.ext ∧ (handFields f s).freeDraws = s.freeDraws ∧
    (handFields f s).pending = s.pending ∧ (handFields f s).intake.held = s.intake.held ∧
    (handFields f s).intake.latestCv = s.intake.latestCv ∧
    (handFields f s).intake.lastSequence = s.intake.lastSequence ∧
    (handFields f s).intake.fieldTimer = s.intake.fieldTimer ∧
    (handFields f s).intake.lateRaised = s.intake.lateRaised ∧
    (handFields f s).intake.fieldLost = s.intake.fieldLost ∧
    (handFields f s).intake.checkFailures = s.intake.checkFailures ∧
    (handFields f s).intake.sequenceGaps = s.intake.sequenceGaps ∧
    (handFields f s).intake.hourSamples = s.intake.hourSamples ∧ (handFields f s).intake.lineup = s.intake.lineup ∧
    (handFields f s).intake.meter = s.intake.meter ∧ (handFields f s).intake.meterSpan = s.intake.meterSpan ∧
    (handFields f s).intake.compFuel = s.intake.compFuel ∧ (handFields f s).intake.heaterFuel = s.intake.heaterFuel ∧
    (handFields f s).intake.volume = s.intake.volume ∧ (handFields f s).intake.compWh = s.intake.compWh ∧
    (handFields f s).intake.heaterWh = s.intake.heaterWh ∧ (handFields f s).intake.samples = s.intake.samples ∧
    (handFields f s).intake.suspInject = s.intake.suspInject ∧
    (handFields f s).intake.suspWithdraw = s.intake.suspWithdraw := by
  unfold handFields; split <;> simp

@[simp] theorem handCommand_frame :
    (handCommand s).powered = s.powered ∧ (handCommand s).straps = s.straps ∧ (handCommand s).station = s.station ∧
    (handCommand s).clock = s.clock ∧ (handCommand s).acct = s.acct ∧ (handCommand s).nom = s.nom ∧
    (handCommand s).peers = s.peers ∧ (handCommand s).train = s.train ∧ (handCommand s).comp = s.comp ∧
    (handCommand s).dryer = s.dryer ∧ (handCommand s).mon = s.mon ∧ (handCommand s).link = s.link ∧
    (handCommand s).port = s.port ∧ (handCommand s).ext = s.ext ∧ (handCommand s).freeDraws = s.freeDraws ∧
    (handCommand s).pending = s.pending ∧ (handCommand s).intake.held = s.intake.held ∧
    (handCommand s).intake.latestCv = s.intake.latestCv ∧
    (handCommand s).intake.lastSequence = s.intake.lastSequence ∧
    (handCommand s).intake.fieldTimer = s.intake.fieldTimer ∧
    (handCommand s).intake.lateRaised = s.intake.lateRaised ∧ (handCommand s).intake.fieldLost = s.intake.fieldLost ∧
    (handCommand s).intake.checkFailures = s.intake.checkFailures ∧
    (handCommand s).intake.sequenceGaps = s.intake.sequenceGaps ∧
    (handCommand s).intake.hourSamples = s.intake.hourSamples ∧ (handCommand s).intake.lineup = s.intake.lineup ∧
    (handCommand s).intake.meter = s.intake.meter ∧ (handCommand s).intake.meterSpan = s.intake.meterSpan ∧
    (handCommand s).intake.compFuel = s.intake.compFuel ∧ (handCommand s).intake.heaterFuel = s.intake.heaterFuel ∧
    (handCommand s).intake.volume = s.intake.volume ∧ (handCommand s).intake.compWh = s.intake.compWh ∧
    (handCommand s).intake.heaterWh = s.intake.heaterWh ∧ (handCommand s).intake.samples = s.intake.samples ∧
    (handCommand s).intake.suspInject = s.intake.suspInject ∧
    (handCommand s).intake.suspWithdraw = s.intake.suspWithdraw :=
  handFields_frame s _

@[simp] theorem handDryer_frame :
    (handDryer s).powered = s.powered ∧ (handDryer s).straps = s.straps ∧ (handDryer s).station = s.station ∧
    (handDryer s).clock = s.clock ∧ (handDryer s).acct = s.acct ∧ (handDryer s).nom = s.nom ∧
    (handDryer s).peers = s.peers ∧ (handDryer s).train = s.train ∧ (handDryer s).comp = s.comp ∧
    (handDryer s).dryer = s.dryer ∧ (handDryer s).mon = s.mon ∧ (handDryer s).link = s.link ∧
    (handDryer s).port = s.port ∧ (handDryer s).ext = s.ext ∧ (handDryer s).freeDraws = s.freeDraws ∧
    (handDryer s).pending = s.pending ∧ (handDryer s).intake.held = s.intake.held ∧
    (handDryer s).intake.latestCv = s.intake.latestCv ∧
    (handDryer s).intake.lastSequence = s.intake.lastSequence ∧
    (handDryer s).intake.fieldTimer = s.intake.fieldTimer ∧
    (handDryer s).intake.lateRaised = s.intake.lateRaised ∧ (handDryer s).intake.fieldLost = s.intake.fieldLost ∧
    (handDryer s).intake.checkFailures = s.intake.checkFailures ∧
    (handDryer s).intake.sequenceGaps = s.intake.sequenceGaps ∧
    (handDryer s).intake.hourSamples = s.intake.hourSamples ∧ (handDryer s).intake.lineup = s.intake.lineup ∧
    (handDryer s).intake.meter = s.intake.meter ∧ (handDryer s).intake.meterSpan = s.intake.meterSpan ∧
    (handDryer s).intake.compFuel = s.intake.compFuel ∧ (handDryer s).intake.heaterFuel = s.intake.heaterFuel ∧
    (handDryer s).intake.volume = s.intake.volume ∧ (handDryer s).intake.compWh = s.intake.compWh ∧
    (handDryer s).intake.heaterWh = s.intake.heaterWh ∧ (handDryer s).intake.samples = s.intake.samples ∧
    (handDryer s).intake.suspInject = s.intake.suspInject ∧
    (handDryer s).intake.suspWithdraw = s.intake.suspWithdraw :=
  handFields_frame s _

@[simp] theorem handMode_frame :
    (handMode s).powered = s.powered ∧ (handMode s).straps = s.straps ∧ (handMode s).station = s.station ∧
    (handMode s).clock = s.clock ∧ (handMode s).acct = s.acct ∧ (handMode s).nom = s.nom ∧
    (handMode s).peers = s.peers ∧ (handMode s).train = s.train ∧ (handMode s).comp = s.comp ∧
    (handMode s).dryer = s.dryer ∧ (handMode s).mon = s.mon ∧ (handMode s).link = s.link ∧
    (handMode s).port = s.port ∧ (handMode s).ext = s.ext ∧ (handMode s).freeDraws = s.freeDraws ∧
    (handMode s).pending = s.pending ∧ (handMode s).intake.held = s.intake.held ∧
    (handMode s).intake.latestCv = s.intake.latestCv ∧
    (handMode s).intake.lastSequence = s.intake.lastSequence ∧
    (handMode s).intake.fieldTimer = s.intake.fieldTimer ∧
    (handMode s).intake.lateRaised = s.intake.lateRaised ∧ (handMode s).intake.fieldLost = s.intake.fieldLost ∧
    (handMode s).intake.checkFailures = s.intake.checkFailures ∧
    (handMode s).intake.sequenceGaps = s.intake.sequenceGaps ∧
    (handMode s).intake.hourSamples = s.intake.hourSamples ∧ (handMode s).intake.lineup = s.intake.lineup ∧
    (handMode s).intake.meter = s.intake.meter ∧ (handMode s).intake.meterSpan = s.intake.meterSpan ∧
    (handMode s).intake.compFuel = s.intake.compFuel ∧ (handMode s).intake.heaterFuel = s.intake.heaterFuel ∧
    (handMode s).intake.volume = s.intake.volume ∧ (handMode s).intake.compWh = s.intake.compWh ∧
    (handMode s).intake.heaterWh = s.intake.heaterWh ∧ (handMode s).intake.samples = s.intake.samples ∧
    (handMode s).intake.suspInject = s.intake.suspInject ∧
    (handMode s).intake.suspWithdraw = s.intake.suspWithdraw :=
  handFields_frame s _

@[simp] theorem handAll_frame :
    (handAll s).powered = s.powered ∧ (handAll s).straps = s.straps ∧ (handAll s).station = s.station ∧
    (handAll s).clock = s.clock ∧ (handAll s).acct = s.acct ∧ (handAll s).nom = s.nom ∧ (handAll s).peers = s.peers ∧
    (handAll s).train = s.train ∧ (handAll s).comp = s.comp ∧ (handAll s).dryer = s.dryer ∧ (handAll s).mon = s.mon ∧
    (handAll s).link = s.link ∧ (handAll s).port = s.port ∧ (handAll s).ext = s.ext ∧
    (handAll s).freeDraws = s.freeDraws ∧ (handAll s).pending = s.pending ∧ (handAll s).intake.held = s.intake.held ∧
    (handAll s).intake.latestCv = s.intake.latestCv ∧ (handAll s).intake.lastSequence = s.intake.lastSequence ∧
    (handAll s).intake.fieldTimer = s.intake.fieldTimer ∧ (handAll s).intake.lateRaised = s.intake.lateRaised ∧
    (handAll s).intake.fieldLost = s.intake.fieldLost ∧ (handAll s).intake.checkFailures = s.intake.checkFailures ∧
    (handAll s).intake.sequenceGaps = s.intake.sequenceGaps ∧ (handAll s).intake.hourSamples = s.intake.hourSamples ∧
    (handAll s).intake.lineup = s.intake.lineup ∧ (handAll s).intake.meter = s.intake.meter ∧
    (handAll s).intake.meterSpan = s.intake.meterSpan ∧ (handAll s).intake.compFuel = s.intake.compFuel ∧
    (handAll s).intake.heaterFuel = s.intake.heaterFuel ∧ (handAll s).intake.volume = s.intake.volume ∧
    (handAll s).intake.compWh = s.intake.compWh ∧ (handAll s).intake.heaterWh = s.intake.heaterWh ∧
    (handAll s).intake.samples = s.intake.samples ∧ (handAll s).intake.suspInject = s.intake.suspInject ∧
    (handAll s).intake.suspWithdraw = s.intake.suspWithdraw := by
  unfold handAll; simp

@[simp] theorem queueCede_frame :
    (queueCede s).powered = s.powered ∧ (queueCede s).straps = s.straps ∧ (queueCede s).station = s.station ∧
    (queueCede s).clock = s.clock ∧ (queueCede s).nom = s.nom ∧ (queueCede s).peers = s.peers ∧
    (queueCede s).train = s.train ∧ (queueCede s).dryer = s.dryer ∧ (queueCede s).intake = s.intake ∧
    (queueCede s).port = s.port ∧ (queueCede s).ext = s.ext ∧ (queueCede s).freeDraws = s.freeDraws ∧
    (queueCede s).pending = s.pending ∧ (queueCede s).link.state = s.link.state ∧
    (queueCede s).link.join = s.link.join ∧ (queueCede s).link.joinFailures = s.link.joinFailures ∧
    (queueCede s).link.haltSet = s.link.haltSet ∧ (queueCede s).link.receiveErrors = s.link.receiveErrors ∧
    (queueCede s).link.discards = s.link.discards ∧ (queueCede s).link.restartPending = s.link.restartPending ∧
    (queueCede s).acct.slots = s.acct.slots ∧ (queueCede s).acct.carryInject = s.acct.carryInject ∧
    (queueCede s).acct.carryWithdraw = s.acct.carryWithdraw ∧ (queueCede s).acct.closedDay = s.acct.closedDay ∧
    (queueCede s).acct.closed = s.acct.closed ∧ (queueCede s).acct.provisional = s.acct.provisional ∧
    (queueCede s).acct.cursor = s.acct.cursor ∧ (queueCede s).acct.restoredTotals = s.acct.restoredTotals ∧
    (queueCede s).comp.path = s.comp.path ∧ (queueCede s).comp.capacity = s.comp.capacity ∧
    (queueCede s).comp.unit = s.comp.unit ∧ (queueCede s).comp.command = s.comp.command ∧
    (queueCede s).comp.starts = s.comp.starts ∧ (queueCede s).comp.trips = s.comp.trips ∧
    (queueCede s).comp.runTimer = s.comp.runTimer ∧ (queueCede s).comp.stopTimer = s.comp.stopTimer ∧
    (queueCede s).comp.startTimer = s.comp.startTimer ∧ (queueCede s).comp.zeroDemand = s.comp.zeroDemand ∧
    (queueCede s).comp.feedback = s.comp.feedback ∧ (queueCede s).mon.sumInjected = s.mon.sumInjected ∧
    (queueCede s).mon.sumWithdrawn = s.mon.sumWithdrawn ∧ (queueCede s).mon.sumCompFuel = s.mon.sumCompFuel ∧
    (queueCede s).mon.sumHeater = s.mon.sumHeater := by
  unfold queueCede; split <;> simp

@[simp] theorem queueClaim_frame :
    (queueClaim s).powered = s.powered ∧ (queueClaim s).straps = s.straps ∧ (queueClaim s).station = s.station ∧
    (queueClaim s).clock = s.clock ∧ (queueClaim s).nom = s.nom ∧ (queueClaim s).peers = s.peers ∧
    (queueClaim s).train = s.train ∧ (queueClaim s).dryer = s.dryer ∧ (queueClaim s).intake = s.intake ∧
    (queueClaim s).port = s.port ∧ (queueClaim s).ext = s.ext ∧ (queueClaim s).freeDraws = s.freeDraws ∧
    (queueClaim s).pending = s.pending ∧ (queueClaim s).link.state = s.link.state ∧
    (queueClaim s).link.join = s.link.join ∧ (queueClaim s).link.joinFailures = s.link.joinFailures ∧
    (queueClaim s).link.haltSet = s.link.haltSet ∧ (queueClaim s).link.receiveErrors = s.link.receiveErrors ∧
    (queueClaim s).link.discards = s.link.discards ∧ (queueClaim s).link.restartPending = s.link.restartPending ∧
    (queueClaim s).acct.slots = s.acct.slots ∧ (queueClaim s).acct.carryInject = s.acct.carryInject ∧
    (queueClaim s).acct.carryWithdraw = s.acct.carryWithdraw ∧ (queueClaim s).acct.closedDay = s.acct.closedDay ∧
    (queueClaim s).acct.closed = s.acct.closed ∧ (queueClaim s).acct.provisional = s.acct.provisional ∧
    (queueClaim s).acct.cursor = s.acct.cursor ∧ (queueClaim s).acct.restoredTotals = s.acct.restoredTotals ∧
    (queueClaim s).comp.path = s.comp.path ∧ (queueClaim s).comp.capacity = s.comp.capacity ∧
    (queueClaim s).comp.unit = s.comp.unit ∧ (queueClaim s).comp.command = s.comp.command ∧
    (queueClaim s).comp.starts = s.comp.starts ∧ (queueClaim s).comp.trips = s.comp.trips ∧
    (queueClaim s).comp.runTimer = s.comp.runTimer ∧ (queueClaim s).comp.stopTimer = s.comp.stopTimer ∧
    (queueClaim s).comp.startTimer = s.comp.startTimer ∧ (queueClaim s).comp.zeroDemand = s.comp.zeroDemand ∧
    (queueClaim s).comp.feedback = s.comp.feedback ∧ (queueClaim s).mon.sumInjected = s.mon.sumInjected ∧
    (queueClaim s).mon.sumWithdrawn = s.mon.sumWithdrawn ∧ (queueClaim s).mon.sumCompFuel = s.mon.sumCompFuel ∧
    (queueClaim s).mon.sumHeater = s.mon.sumHeater := by
  unfold queueClaim; simp

@[simp] theorem withdrawClaim_frame :
    (withdrawClaim s).powered = s.powered ∧ (withdrawClaim s).straps = s.straps ∧
    (withdrawClaim s).station = s.station ∧ (withdrawClaim s).clock = s.clock ∧ (withdrawClaim s).acct = s.acct ∧
    (withdrawClaim s).nom = s.nom ∧ (withdrawClaim s).peers = s.peers ∧ (withdrawClaim s).train = s.train ∧
    (withdrawClaim s).dryer = s.dryer ∧ (withdrawClaim s).intake = s.intake ∧ (withdrawClaim s).mon = s.mon ∧
    (withdrawClaim s).port = s.port ∧ (withdrawClaim s).ext = s.ext ∧ (withdrawClaim s).freeDraws = s.freeDraws ∧
    (withdrawClaim s).pending = s.pending ∧ (withdrawClaim s).link.state = s.link.state ∧
    (withdrawClaim s).link.join = s.link.join ∧ (withdrawClaim s).link.joinFailures = s.link.joinFailures ∧
    (withdrawClaim s).link.haltSet = s.link.haltSet ∧ (withdrawClaim s).link.receiveErrors = s.link.receiveErrors ∧
    (withdrawClaim s).link.discards = s.link.discards ∧
    (withdrawClaim s).link.restartPending = s.link.restartPending ∧ (withdrawClaim s).comp.path = s.comp.path ∧
    (withdrawClaim s).comp.capacity = s.comp.capacity ∧ (withdrawClaim s).comp.unit = s.comp.unit ∧
    (withdrawClaim s).comp.command = s.comp.command ∧ (withdrawClaim s).comp.starts = s.comp.starts ∧
    (withdrawClaim s).comp.trips = s.comp.trips ∧ (withdrawClaim s).comp.runTimer = s.comp.runTimer ∧
    (withdrawClaim s).comp.stopTimer = s.comp.stopTimer ∧ (withdrawClaim s).comp.startTimer = s.comp.startTimer ∧
    (withdrawClaim s).comp.zeroDemand = s.comp.zeroDemand ∧ (withdrawClaim s).comp.feedback = s.comp.feedback := by
  unfold withdrawClaim; split <;> simp [Link.withdraw, Link.withQueue]

@[simp] theorem cancelTests_frame :
    (cancelTests s).powered = s.powered ∧ (cancelTests s).straps = s.straps ∧ (cancelTests s).station = s.station ∧
    (cancelTests s).clock = s.clock ∧ (cancelTests s).nom = s.nom ∧ (cancelTests s).peers = s.peers ∧
    (cancelTests s).train = s.train ∧ (cancelTests s).dryer = s.dryer ∧ (cancelTests s).intake = s.intake ∧
    (cancelTests s).port = s.port ∧ (cancelTests s).ext = s.ext ∧ (cancelTests s).freeDraws = s.freeDraws ∧
    (cancelTests s).pending = s.pending ∧ (cancelTests s).link.state = s.link.state ∧
    (cancelTests s).link.join = s.link.join ∧ (cancelTests s).link.joinFailures = s.link.joinFailures ∧
    (cancelTests s).link.haltSet = s.link.haltSet ∧ (cancelTests s).link.receiveErrors = s.link.receiveErrors ∧
    (cancelTests s).link.discards = s.link.discards ∧ (cancelTests s).link.restartPending = s.link.restartPending ∧
    (cancelTests s).acct.slots = s.acct.slots ∧ (cancelTests s).acct.carryInject = s.acct.carryInject ∧
    (cancelTests s).acct.carryWithdraw = s.acct.carryWithdraw ∧ (cancelTests s).acct.closedDay = s.acct.closedDay ∧
    (cancelTests s).acct.closed = s.acct.closed ∧ (cancelTests s).acct.provisional = s.acct.provisional ∧
    (cancelTests s).acct.cursor = s.acct.cursor ∧ (cancelTests s).acct.restoredTotals = s.acct.restoredTotals ∧
    (cancelTests s).mon.sumInjected = s.mon.sumInjected ∧ (cancelTests s).mon.sumWithdrawn = s.mon.sumWithdrawn ∧
    (cancelTests s).mon.sumCompFuel = s.mon.sumCompFuel ∧ (cancelTests s).mon.sumHeater = s.mon.sumHeater ∧
    (cancelTests s).comp.path = s.comp.path ∧ (cancelTests s).comp.capacity = s.comp.capacity ∧
    (cancelTests s).comp.starts = s.comp.starts ∧ (cancelTests s).comp.trips = s.comp.trips ∧
    (cancelTests s).comp.runTimer = s.comp.runTimer ∧ (cancelTests s).comp.stopTimer = s.comp.stopTimer ∧
    (cancelTests s).comp.startTimer = s.comp.startTimer ∧ (cancelTests s).comp.zeroDemand = s.comp.zeroDemand ∧
    (cancelTests s).comp.feedback = s.comp.feedback := by
  unfold cancelTests; split <;> (try split) <;> simp

@[simp] theorem stopTests_frame :
    (stopTests s).powered = s.powered ∧ (stopTests s).straps = s.straps ∧ (stopTests s).station = s.station ∧
    (stopTests s).clock = s.clock ∧ (stopTests s).nom = s.nom ∧ (stopTests s).peers = s.peers ∧
    (stopTests s).train = s.train ∧ (stopTests s).dryer = s.dryer ∧ (stopTests s).intake = s.intake ∧
    (stopTests s).port = s.port ∧ (stopTests s).ext = s.ext ∧ (stopTests s).freeDraws = s.freeDraws ∧
    (stopTests s).pending = s.pending ∧ (stopTests s).link.state = s.link.state ∧
    (stopTests s).link.join = s.link.join ∧ (stopTests s).link.joinFailures = s.link.joinFailures ∧
    (stopTests s).link.haltSet = s.link.haltSet ∧ (stopTests s).link.receiveErrors = s.link.receiveErrors ∧
    (stopTests s).link.discards = s.link.discards ∧ (stopTests s).link.restartPending = s.link.restartPending ∧
    (stopTests s).acct.slots = s.acct.slots ∧ (stopTests s).acct.carryInject = s.acct.carryInject ∧
    (stopTests s).acct.carryWithdraw = s.acct.carryWithdraw ∧ (stopTests s).acct.closedDay = s.acct.closedDay ∧
    (stopTests s).acct.closed = s.acct.closed ∧ (stopTests s).acct.provisional = s.acct.provisional ∧
    (stopTests s).acct.cursor = s.acct.cursor ∧ (stopTests s).acct.restoredTotals = s.acct.restoredTotals ∧
    (stopTests s).mon.sumInjected = s.mon.sumInjected ∧ (stopTests s).mon.sumWithdrawn = s.mon.sumWithdrawn ∧
    (stopTests s).mon.sumCompFuel = s.mon.sumCompFuel ∧ (stopTests s).mon.sumHeater = s.mon.sumHeater ∧
    (stopTests s).comp.path = s.comp.path ∧ (stopTests s).comp.capacity = s.comp.capacity ∧
    (stopTests s).comp.starts = s.comp.starts ∧ (stopTests s).comp.trips = s.comp.trips ∧
    (stopTests s).comp.runTimer = s.comp.runTimer ∧ (stopTests s).comp.zeroDemand = s.comp.zeroDemand ∧
    (stopTests s).comp.feedback = s.comp.feedback := by
  unfold stopTests; split <;> (try split) <;> simp [Compressor.toStopping, Compressor.setUnit]

@[simp] theorem claimTest_frame :
    (claimTest s).powered = s.powered ∧ (claimTest s).straps = s.straps ∧ (claimTest s).station = s.station ∧
    (claimTest s).clock = s.clock ∧ (claimTest s).nom = s.nom ∧ (claimTest s).peers = s.peers ∧
    (claimTest s).train = s.train ∧ (claimTest s).dryer = s.dryer ∧ (claimTest s).intake = s.intake ∧
    (claimTest s).port = s.port ∧ (claimTest s).ext = s.ext ∧ (claimTest s).freeDraws = s.freeDraws ∧
    (claimTest s).pending = s.pending ∧ (claimTest s).link.state = s.link.state ∧
    (claimTest s).link.join = s.link.join ∧ (claimTest s).link.joinFailures = s.link.joinFailures ∧
    (claimTest s).link.haltSet = s.link.haltSet ∧ (claimTest s).link.receiveErrors = s.link.receiveErrors ∧
    (claimTest s).link.discards = s.link.discards ∧ (claimTest s).link.restartPending = s.link.restartPending ∧
    (claimTest s).acct.slots = s.acct.slots ∧ (claimTest s).acct.carryInject = s.acct.carryInject ∧
    (claimTest s).acct.carryWithdraw = s.acct.carryWithdraw ∧ (claimTest s).acct.closedDay = s.acct.closedDay ∧
    (claimTest s).acct.closed = s.acct.closed ∧ (claimTest s).acct.provisional = s.acct.provisional ∧
    (claimTest s).acct.cursor = s.acct.cursor ∧ (claimTest s).acct.restoredTotals = s.acct.restoredTotals ∧
    (claimTest s).comp.path = s.comp.path ∧ (claimTest s).comp.capacity = s.comp.capacity ∧
    (claimTest s).comp.unit = s.comp.unit ∧ (claimTest s).comp.command = s.comp.command ∧
    (claimTest s).comp.starts = s.comp.starts ∧ (claimTest s).comp.trips = s.comp.trips ∧
    (claimTest s).comp.runTimer = s.comp.runTimer ∧ (claimTest s).comp.stopTimer = s.comp.stopTimer ∧
    (claimTest s).comp.startTimer = s.comp.startTimer ∧ (claimTest s).comp.zeroDemand = s.comp.zeroDemand ∧
    (claimTest s).comp.feedback = s.comp.feedback ∧ (claimTest s).mon.sumInjected = s.mon.sumInjected ∧
    (claimTest s).mon.sumWithdrawn = s.mon.sumWithdrawn ∧ (claimTest s).mon.sumCompFuel = s.mon.sumCompFuel ∧
    (claimTest s).mon.sumHeater = s.mon.sumHeater := by
  unfold claimTest; split <;> simp

@[simp] theorem sequencerReact_frame :
    (sequencerReact s).powered = s.powered ∧ (sequencerReact s).straps = s.straps ∧
    (sequencerReact s).station = s.station ∧ (sequencerReact s).clock = s.clock ∧ (sequencerReact s).nom = s.nom ∧
    (sequencerReact s).peers = s.peers ∧ (sequencerReact s).train = s.train ∧ (sequencerReact s).dryer = s.dryer ∧
    (sequencerReact s).intake = s.intake ∧ (sequencerReact s).port = s.port ∧ (sequencerReact s).ext = s.ext ∧
    (sequencerReact s).freeDraws = s.freeDraws ∧ (sequencerReact s).pending = s.pending ∧
    (sequencerReact s).link.state = s.link.state ∧ (sequencerReact s).link.join = s.link.join ∧
    (sequencerReact s).link.joinFailures = s.link.joinFailures ∧ (sequencerReact s).link.haltSet = s.link.haltSet ∧
    (sequencerReact s).link.receiveErrors = s.link.receiveErrors ∧
    (sequencerReact s).link.discards = s.link.discards ∧
    (sequencerReact s).link.restartPending = s.link.restartPending ∧ (sequencerReact s).acct.slots = s.acct.slots ∧
    (sequencerReact s).acct.carryInject = s.acct.carryInject ∧
    (sequencerReact s).acct.carryWithdraw = s.acct.carryWithdraw ∧
    (sequencerReact s).acct.closedDay = s.acct.closedDay ∧ (sequencerReact s).acct.closed = s.acct.closed ∧
    (sequencerReact s).acct.provisional = s.acct.provisional ∧ (sequencerReact s).acct.cursor = s.acct.cursor ∧
    (sequencerReact s).acct.restoredTotals = s.acct.restoredTotals ∧
    (sequencerReact s).mon.sumInjected = s.mon.sumInjected ∧
    (sequencerReact s).mon.sumWithdrawn = s.mon.sumWithdrawn ∧
    (sequencerReact s).mon.sumCompFuel = s.mon.sumCompFuel ∧ (sequencerReact s).mon.sumHeater = s.mon.sumHeater ∧
    (sequencerReact s).comp.path = s.comp.path ∧ (sequencerReact s).comp.capacity = s.comp.capacity ∧
    (sequencerReact s).comp.starts = s.comp.starts ∧ (sequencerReact s).comp.trips = s.comp.trips ∧
    (sequencerReact s).comp.runTimer = s.comp.runTimer ∧ (sequencerReact s).comp.zeroDemand = s.comp.zeroDemand ∧
    (sequencerReact s).comp.feedback = s.comp.feedback := by
  unfold sequencerReact; simp

@[simp] theorem setDemand_frame (d : Int) :
    (setDemand d s).powered = s.powered ∧ (setDemand d s).straps = s.straps ∧ (setDemand d s).station = s.station ∧
    (setDemand d s).clock = s.clock ∧ (setDemand d s).acct = s.acct ∧ (setDemand d s).nom = s.nom ∧
    (setDemand d s).peers = s.peers ∧ (setDemand d s).dryer = s.dryer ∧ (setDemand d s).intake = s.intake ∧
    (setDemand d s).mon = s.mon ∧ (setDemand d s).link = s.link ∧ (setDemand d s).port = s.port ∧
    (setDemand d s).ext = s.ext ∧ (setDemand d s).freeDraws = s.freeDraws ∧ (setDemand d s).pending = s.pending ∧
    (setDemand d s).comp.path = s.comp.path ∧ (setDemand d s).comp.capacity = s.comp.capacity ∧
    (setDemand d s).comp.unit = s.comp.unit ∧ (setDemand d s).comp.command = s.comp.command ∧
    (setDemand d s).comp.starts = s.comp.starts ∧ (setDemand d s).comp.trips = s.comp.trips ∧
    (setDemand d s).comp.runTimer = s.comp.runTimer ∧ (setDemand d s).comp.stopTimer = s.comp.stopTimer ∧
    (setDemand d s).comp.startTimer = s.comp.startTimer ∧ (setDemand d s).comp.feedback = s.comp.feedback ∧
    (setDemand d s).train.mode = s.train.mode ∧ (setDemand d s).train.phase = s.train.phase ∧
    (setDemand d s).train.lastFlow = s.train.lastFlow ∧ (setDemand d s).train.dwell = s.train.dwell ∧
    (setDemand d s).train.listenDone = s.train.listenDone ∧ (setDemand d s).train.joinTime = s.train.joinTime ∧
    (setDemand d s).train.lineup = s.train.lineup ∧ (setDemand d s).train.ring = s.train.ring ∧
    (setDemand d s).train.offer = s.train.offer ∧ (setDemand d s).train.share = s.train.share ∧
    (setDemand d s).train.offerDir = s.train.offerDir := by
  unfold setDemand; simp

@[simp] theorem lowerOffer_frame :
    (lowerOffer s).powered = s.powered ∧ (lowerOffer s).straps = s.straps ∧ (lowerOffer s).station = s.station ∧
    (lowerOffer s).clock = s.clock ∧ (lowerOffer s).acct = s.acct ∧ (lowerOffer s).nom = s.nom ∧
    (lowerOffer s).peers = s.peers ∧ (lowerOffer s).dryer = s.dryer ∧ (lowerOffer s).intake = s.intake ∧
    (lowerOffer s).mon = s.mon ∧ (lowerOffer s).link = s.link ∧ (lowerOffer s).port = s.port ∧
    (lowerOffer s).ext = s.ext ∧ (lowerOffer s).freeDraws = s.freeDraws ∧ (lowerOffer s).pending = s.pending ∧
    (lowerOffer s).comp.path = s.comp.path ∧ (lowerOffer s).comp.capacity = s.comp.capacity ∧
    (lowerOffer s).comp.unit = s.comp.unit ∧ (lowerOffer s).comp.command = s.comp.command ∧
    (lowerOffer s).comp.starts = s.comp.starts ∧ (lowerOffer s).comp.trips = s.comp.trips ∧
    (lowerOffer s).comp.runTimer = s.comp.runTimer ∧ (lowerOffer s).comp.stopTimer = s.comp.stopTimer ∧
    (lowerOffer s).comp.startTimer = s.comp.startTimer ∧ (lowerOffer s).comp.feedback = s.comp.feedback ∧
    (lowerOffer s).train.mode = s.train.mode ∧ (lowerOffer s).train.phase = s.train.phase ∧
    (lowerOffer s).train.lastFlow = s.train.lastFlow ∧ (lowerOffer s).train.dwell = s.train.dwell ∧
    (lowerOffer s).train.listenDone = s.train.listenDone ∧ (lowerOffer s).train.joinTime = s.train.joinTime ∧
    (lowerOffer s).train.lineup = s.train.lineup ∧ (lowerOffer s).train.ring = s.train.ring ∧
    (lowerOffer s).train.offerDir = s.train.offerDir := by
  unfold lowerOffer; simp

@[simp] theorem applyHold_frame :
    (applyHold s).powered = s.powered ∧ (applyHold s).straps = s.straps ∧ (applyHold s).station = s.station ∧
    (applyHold s).clock = s.clock ∧ (applyHold s).acct = s.acct ∧ (applyHold s).nom = s.nom ∧
    (applyHold s).peers = s.peers ∧ (applyHold s).dryer = s.dryer ∧ (applyHold s).intake = s.intake ∧
    (applyHold s).mon = s.mon ∧ (applyHold s).link = s.link ∧ (applyHold s).port = s.port ∧
    (applyHold s).ext = s.ext ∧ (applyHold s).freeDraws = s.freeDraws ∧ (applyHold s).pending = s.pending ∧
    (applyHold s).comp.path = s.comp.path ∧ (applyHold s).comp.capacity = s.comp.capacity ∧
    (applyHold s).comp.unit = s.comp.unit ∧ (applyHold s).comp.command = s.comp.command ∧
    (applyHold s).comp.starts = s.comp.starts ∧ (applyHold s).comp.trips = s.comp.trips ∧
    (applyHold s).comp.runTimer = s.comp.runTimer ∧ (applyHold s).comp.stopTimer = s.comp.stopTimer ∧
    (applyHold s).comp.startTimer = s.comp.startTimer ∧ (applyHold s).comp.feedback = s.comp.feedback ∧
    (applyHold s).train.mode = s.train.mode ∧ (applyHold s).train.phase = s.train.phase ∧
    (applyHold s).train.lastFlow = s.train.lastFlow ∧ (applyHold s).train.dwell = s.train.dwell ∧
    (applyHold s).train.listenDone = s.train.listenDone ∧ (applyHold s).train.joinTime = s.train.joinTime ∧
    (applyHold s).train.lineup = s.train.lineup ∧ (applyHold s).train.ring = s.train.ring ∧
    (applyHold s).train.offer = s.train.offer ∧ (applyHold s).train.share = s.train.share ∧
    (applyHold s).train.offerDir = s.train.offerDir := by
  unfold applyHold; split <;> simp

@[simp] theorem stopTrain_frame (m : Sys2Proof.Mode) :
    (stopTrain m s).powered = s.powered ∧ (stopTrain m s).straps = s.straps ∧ (stopTrain m s).station = s.station ∧
    (stopTrain m s).clock = s.clock ∧ (stopTrain m s).acct = s.acct ∧ (stopTrain m s).nom = s.nom ∧
    (stopTrain m s).peers = s.peers ∧ (stopTrain m s).dryer = s.dryer ∧ (stopTrain m s).intake = s.intake ∧
    (stopTrain m s).mon = s.mon ∧ (stopTrain m s).link = s.link ∧ (stopTrain m s).port = s.port ∧
    (stopTrain m s).ext = s.ext ∧ (stopTrain m s).freeDraws = s.freeDraws ∧ (stopTrain m s).pending = s.pending ∧
    (stopTrain m s).comp.path = s.comp.path ∧ (stopTrain m s).comp.capacity = s.comp.capacity ∧
    (stopTrain m s).comp.unit = s.comp.unit ∧ (stopTrain m s).comp.command = s.comp.command ∧
    (stopTrain m s).comp.starts = s.comp.starts ∧ (stopTrain m s).comp.trips = s.comp.trips ∧
    (stopTrain m s).comp.runTimer = s.comp.runTimer ∧ (stopTrain m s).comp.stopTimer = s.comp.stopTimer ∧
    (stopTrain m s).comp.startTimer = s.comp.startTimer ∧ (stopTrain m s).comp.feedback = s.comp.feedback ∧
    (stopTrain m s).train.lastFlow = s.train.lastFlow ∧ (stopTrain m s).train.listenDone = s.train.listenDone ∧
    (stopTrain m s).train.joinTime = s.train.joinTime ∧ (stopTrain m s).train.ring = s.train.ring ∧
    (stopTrain m s).train.offerDir = s.train.offerDir := by
  unfold stopTrain; simp

@[simp] theorem enterHold_frame :
    (enterHold s).powered = s.powered ∧ (enterHold s).straps = s.straps ∧ (enterHold s).station = s.station ∧
    (enterHold s).clock = s.clock ∧ (enterHold s).nom = s.nom ∧ (enterHold s).peers = s.peers ∧
    (enterHold s).dryer = s.dryer ∧ (enterHold s).intake = s.intake ∧ (enterHold s).port = s.port ∧
    (enterHold s).ext = s.ext ∧ (enterHold s).freeDraws = s.freeDraws ∧ (enterHold s).pending = s.pending ∧
    (enterHold s).link.state = s.link.state ∧ (enterHold s).link.join = s.link.join ∧
    (enterHold s).link.joinFailures = s.link.joinFailures ∧ (enterHold s).link.haltSet = s.link.haltSet ∧
    (enterHold s).link.receiveErrors = s.link.receiveErrors ∧ (enterHold s).link.discards = s.link.discards ∧
    (enterHold s).link.restartPending = s.link.restartPending ∧ (enterHold s).acct.slots = s.acct.slots ∧
    (enterHold s).acct.carryInject = s.acct.carryInject ∧ (enterHold s).acct.carryWithdraw = s.acct.carryWithdraw ∧
    (enterHold s).acct.closedDay = s.acct.closedDay ∧ (enterHold s).acct.closed = s.acct.closed ∧
    (enterHold s).acct.provisional = s.acct.provisional ∧ (enterHold s).acct.cursor = s.acct.cursor ∧
    (enterHold s).acct.restoredTotals = s.acct.restoredTotals ∧ (enterHold s).mon.sumInjected = s.mon.sumInjected ∧
    (enterHold s).mon.sumWithdrawn = s.mon.sumWithdrawn ∧ (enterHold s).mon.sumCompFuel = s.mon.sumCompFuel ∧
    (enterHold s).mon.sumHeater = s.mon.sumHeater ∧ (enterHold s).comp.path = s.comp.path ∧
    (enterHold s).comp.capacity = s.comp.capacity ∧ (enterHold s).comp.unit = s.comp.unit ∧
    (enterHold s).comp.command = s.comp.command ∧ (enterHold s).comp.starts = s.comp.starts ∧
    (enterHold s).comp.trips = s.comp.trips ∧ (enterHold s).comp.runTimer = s.comp.runTimer ∧
    (enterHold s).comp.stopTimer = s.comp.stopTimer ∧ (enterHold s).comp.startTimer = s.comp.startTimer ∧
    (enterHold s).comp.feedback = s.comp.feedback := by
  unfold enterHold queueOffer; simp

@[simp] theorem enterShutIn_frame :
    (enterShutIn s).powered = s.powered ∧ (enterShutIn s).straps = s.straps ∧ (enterShutIn s).station = s.station ∧
    (enterShutIn s).clock = s.clock ∧ (enterShutIn s).nom = s.nom ∧ (enterShutIn s).peers = s.peers ∧
    (enterShutIn s).dryer = s.dryer ∧ (enterShutIn s).intake = s.intake ∧ (enterShutIn s).port = s.port ∧
    (enterShutIn s).ext = s.ext ∧ (enterShutIn s).freeDraws = s.freeDraws ∧ (enterShutIn s).pending = s.pending ∧
    (enterShutIn s).link.state = s.link.state ∧ (enterShutIn s).link.join = s.link.join ∧
    (enterShutIn s).link.joinFailures = s.link.joinFailures ∧ (enterShutIn s).link.haltSet = s.link.haltSet ∧
    (enterShutIn s).link.receiveErrors = s.link.receiveErrors ∧ (enterShutIn s).link.discards = s.link.discards ∧
    (enterShutIn s).link.restartPending = s.link.restartPending ∧ (enterShutIn s).acct.slots = s.acct.slots ∧
    (enterShutIn s).acct.carryInject = s.acct.carryInject ∧
    (enterShutIn s).acct.carryWithdraw = s.acct.carryWithdraw ∧ (enterShutIn s).acct.closedDay = s.acct.closedDay ∧
    (enterShutIn s).acct.closed = s.acct.closed ∧ (enterShutIn s).acct.provisional = s.acct.provisional ∧
    (enterShutIn s).acct.cursor = s.acct.cursor ∧ (enterShutIn s).acct.restoredTotals = s.acct.restoredTotals ∧
    (enterShutIn s).mon.sumInjected = s.mon.sumInjected ∧ (enterShutIn s).mon.sumWithdrawn = s.mon.sumWithdrawn ∧
    (enterShutIn s).mon.sumCompFuel = s.mon.sumCompFuel ∧ (enterShutIn s).mon.sumHeater = s.mon.sumHeater ∧
    (enterShutIn s).comp.path = s.comp.path ∧ (enterShutIn s).comp.capacity = s.comp.capacity ∧
    (enterShutIn s).comp.unit = s.comp.unit ∧ (enterShutIn s).comp.command = s.comp.command ∧
    (enterShutIn s).comp.starts = s.comp.starts ∧ (enterShutIn s).comp.trips = s.comp.trips ∧
    (enterShutIn s).comp.runTimer = s.comp.runTimer ∧ (enterShutIn s).comp.stopTimer = s.comp.stopTimer ∧
    (enterShutIn s).comp.startTimer = s.comp.startTimer ∧ (enterShutIn s).comp.feedback = s.comp.feedback := by
  unfold enterShutIn queueOffer; simp

@[simp] theorem listenTest_frame :
    (listenTest s).powered = s.powered ∧ (listenTest s).straps = s.straps ∧ (listenTest s).station = s.station ∧
    (listenTest s).clock = s.clock ∧ (listenTest s).acct = s.acct ∧ (listenTest s).nom = s.nom ∧
    (listenTest s).peers = s.peers ∧ (listenTest s).comp = s.comp ∧ (listenTest s).dryer = s.dryer ∧
    (listenTest s).intake = s.intake ∧ (listenTest s).mon = s.mon ∧ (listenTest s).link = s.link ∧
    (listenTest s).port = s.port ∧ (listenTest s).ext = s.ext ∧ (listenTest s).freeDraws = s.freeDraws ∧
    (listenTest s).pending = s.pending := by
  unfold listenTest; split <;> (try split) <;> simp

@[simp] theorem enterListen_frame :
    (enterListen s).powered = s.powered ∧ (enterListen s).straps = s.straps ∧ (enterListen s).station = s.station ∧
    (enterListen s).clock = s.clock ∧ (enterListen s).nom = s.nom ∧ (enterListen s).peers = s.peers ∧
    (enterListen s).dryer = s.dryer ∧ (enterListen s).intake = s.intake ∧ (enterListen s).port = s.port ∧
    (enterListen s).ext = s.ext ∧ (enterListen s).freeDraws = s.freeDraws ∧ (enterListen s).pending = s.pending ∧
    (enterListen s).link.state = s.link.state ∧ (enterListen s).link.join = s.link.join ∧
    (enterListen s).link.joinFailures = s.link.joinFailures ∧ (enterListen s).link.haltSet = s.link.haltSet ∧
    (enterListen s).link.receiveErrors = s.link.receiveErrors ∧ (enterListen s).link.discards = s.link.discards ∧
    (enterListen s).link.restartPending = s.link.restartPending ∧ (enterListen s).acct.slots = s.acct.slots ∧
    (enterListen s).acct.carryInject = s.acct.carryInject ∧
    (enterListen s).acct.carryWithdraw = s.acct.carryWithdraw ∧ (enterListen s).acct.closedDay = s.acct.closedDay ∧
    (enterListen s).acct.closed = s.acct.closed ∧ (enterListen s).acct.provisional = s.acct.provisional ∧
    (enterListen s).acct.cursor = s.acct.cursor ∧ (enterListen s).acct.restoredTotals = s.acct.restoredTotals ∧
    (enterListen s).mon.sumInjected = s.mon.sumInjected ∧ (enterListen s).mon.sumWithdrawn = s.mon.sumWithdrawn ∧
    (enterListen s).mon.sumCompFuel = s.mon.sumCompFuel ∧ (enterListen s).mon.sumHeater = s.mon.sumHeater ∧
    (enterListen s).comp.path = s.comp.path ∧ (enterListen s).comp.capacity = s.comp.capacity ∧
    (enterListen s).comp.unit = s.comp.unit ∧ (enterListen s).comp.command = s.comp.command ∧
    (enterListen s).comp.starts = s.comp.starts ∧ (enterListen s).comp.trips = s.comp.trips ∧
    (enterListen s).comp.runTimer = s.comp.runTimer ∧ (enterListen s).comp.stopTimer = s.comp.stopTimer ∧
    (enterListen s).comp.startTimer = s.comp.startTimer ∧ (enterListen s).comp.feedback = s.comp.feedback := by
  unfold enterListen; dsimp only; split <;> (try split) <;> simp

@[simp] theorem release_frame :
    (release s).powered = s.powered ∧ (release s).straps = s.straps ∧ (release s).station = s.station ∧
    (release s).clock = s.clock ∧ (release s).nom = s.nom ∧ (release s).peers = s.peers ∧
    (release s).dryer = s.dryer ∧ (release s).intake = s.intake ∧ (release s).port = s.port ∧
    (release s).ext = s.ext ∧ (release s).freeDraws = s.freeDraws ∧ (release s).pending = s.pending ∧
    (release s).link.state = s.link.state ∧ (release s).link.join = s.link.join ∧
    (release s).link.joinFailures = s.link.joinFailures ∧ (release s).link.haltSet = s.link.haltSet ∧
    (release s).link.receiveErrors = s.link.receiveErrors ∧ (release s).link.discards = s.link.discards ∧
    (release s).link.restartPending = s.link.restartPending ∧ (release s).acct.slots = s.acct.slots ∧
    (release s).acct.carryInject = s.acct.carryInject ∧ (release s).acct.carryWithdraw = s.acct.carryWithdraw ∧
    (release s).acct.closedDay = s.acct.closedDay ∧ (release s).acct.closed = s.acct.closed ∧
    (release s).acct.provisional = s.acct.provisional ∧ (release s).acct.cursor = s.acct.cursor ∧
    (release s).acct.restoredTotals = s.acct.restoredTotals ∧ (release s).mon.sumInjected = s.mon.sumInjected ∧
    (release s).mon.sumWithdrawn = s.mon.sumWithdrawn ∧ (release s).mon.sumCompFuel = s.mon.sumCompFuel ∧
    (release s).mon.sumHeater = s.mon.sumHeater ∧ (release s).comp.path = s.comp.path ∧
    (release s).comp.capacity = s.comp.capacity ∧ (release s).comp.unit = s.comp.unit ∧
    (release s).comp.command = s.comp.command ∧ (release s).comp.starts = s.comp.starts ∧
    (release s).comp.trips = s.comp.trips ∧ (release s).comp.runTimer = s.comp.runTimer ∧
    (release s).comp.stopTimer = s.comp.stopTimer ∧ (release s).comp.startTimer = s.comp.startTimer ∧
    (release s).comp.feedback = s.comp.feedback := by
  unfold release; split <;> (try split) <;> simp

@[simp] theorem takeBedIn_frame :
    (takeBedIn s).powered = s.powered ∧ (takeBedIn s).straps = s.straps ∧ (takeBedIn s).station = s.station ∧
    (takeBedIn s).clock = s.clock ∧ (takeBedIn s).acct = s.acct ∧ (takeBedIn s).nom = s.nom ∧
    (takeBedIn s).peers = s.peers ∧ (takeBedIn s).train = s.train ∧ (takeBedIn s).comp = s.comp ∧
    (takeBedIn s).intake = s.intake ∧ (takeBedIn s).mon = s.mon ∧ (takeBedIn s).link = s.link ∧
    (takeBedIn s).port = s.port ∧ (takeBedIn s).ext = s.ext ∧ (takeBedIn s).freeDraws = s.freeDraws ∧
    (takeBedIn s).pending = s.pending := by
  unfold takeBedIn; split <;> (try split) <;> simp

@[simp] theorem bookFuel_frame (k : FuelKind) (n : Nat) (w : List Nat) :
    (bookFuel k n w s).powered = s.powered ∧ (bookFuel k n w s).straps = s.straps ∧
    (bookFuel k n w s).station = s.station ∧ (bookFuel k n w s).clock = s.clock ∧ (bookFuel k n w s).nom = s.nom ∧
    (bookFuel k n w s).peers = s.peers ∧ (bookFuel k n w s).train = s.train ∧ (bookFuel k n w s).comp = s.comp ∧
    (bookFuel k n w s).dryer = s.dryer ∧ (bookFuel k n w s).intake = s.intake ∧ (bookFuel k n w s).port = s.port ∧
    (bookFuel k n w s).ext = s.ext ∧ (bookFuel k n w s).freeDraws = s.freeDraws ∧
    (bookFuel k n w s).pending = s.pending ∧ (bookFuel k n w s).link.state = s.link.state ∧
    (bookFuel k n w s).link.join = s.link.join ∧ (bookFuel k n w s).link.joinFailures = s.link.joinFailures ∧
    (bookFuel k n w s).link.haltSet = s.link.haltSet ∧ (bookFuel k n w s).link.receiveErrors = s.link.receiveErrors ∧
    (bookFuel k n w s).link.discards = s.link.discards ∧
    (bookFuel k n w s).link.restartPending = s.link.restartPending ∧
    (bookFuel k n w s).mon.sumInjected = s.mon.sumInjected ∧
    (bookFuel k n w s).mon.sumWithdrawn = s.mon.sumWithdrawn ∧
    (bookFuel k n w s).mon.sumCompFuel = s.mon.sumCompFuel ∧ (bookFuel k n w s).mon.sumHeater = s.mon.sumHeater := by
  unfold bookFuel; dsimp only; split <;> simp

@[simp] theorem bookRegeneration_frame (bed : Option Sys2Proof.Bed) (g : Nat) :
    (bookRegeneration bed g s).powered = s.powered ∧ (bookRegeneration bed g s).straps = s.straps ∧
    (bookRegeneration bed g s).station = s.station ∧ (bookRegeneration bed g s).clock = s.clock ∧
    (bookRegeneration bed g s).nom = s.nom ∧ (bookRegeneration bed g s).peers = s.peers ∧
    (bookRegeneration bed g s).train = s.train ∧ (bookRegeneration bed g s).comp = s.comp ∧
    (bookRegeneration bed g s).intake = s.intake ∧ (bookRegeneration bed g s).port = s.port ∧
    (bookRegeneration bed g s).ext = s.ext ∧ (bookRegeneration bed g s).freeDraws = s.freeDraws ∧
    (bookRegeneration bed g s).pending = s.pending ∧ (bookRegeneration bed g s).link.state = s.link.state ∧
    (bookRegeneration bed g s).link.join = s.link.join ∧
    (bookRegeneration bed g s).link.joinFailures = s.link.joinFailures ∧
    (bookRegeneration bed g s).link.haltSet = s.link.haltSet ∧
    (bookRegeneration bed g s).link.receiveErrors = s.link.receiveErrors ∧
    (bookRegeneration bed g s).link.discards = s.link.discards ∧
    (bookRegeneration bed g s).link.restartPending = s.link.restartPending := by
  unfold bookRegeneration; cases bed <;> simp

@[simp] theorem chargeBed_frame (bed : Sys2Proof.Bed) :
    (chargeBed bed s).powered = s.powered ∧ (chargeBed bed s).straps = s.straps ∧
    (chargeBed bed s).station = s.station ∧ (chargeBed bed s).clock = s.clock ∧ (chargeBed bed s).nom = s.nom ∧
    (chargeBed bed s).peers = s.peers ∧ (chargeBed bed s).train = s.train ∧ (chargeBed bed s).comp = s.comp ∧
    (chargeBed bed s).intake = s.intake ∧ (chargeBed bed s).port = s.port ∧ (chargeBed bed s).ext = s.ext ∧
    (chargeBed bed s).freeDraws = s.freeDraws ∧ (chargeBed bed s).pending = s.pending ∧
    (chargeBed bed s).link.state = s.link.state ∧ (chargeBed bed s).link.join = s.link.join ∧
    (chargeBed bed s).link.joinFailures = s.link.joinFailures ∧ (chargeBed bed s).link.haltSet = s.link.haltSet ∧
    (chargeBed bed s).link.receiveErrors = s.link.receiveErrors ∧ (chargeBed bed s).link.discards = s.link.discards ∧
    (chargeBed bed s).link.restartPending = s.link.restartPending := by
  unfold chargeBed; simp

@[simp] theorem takeBedOut_frame (bed : Sys2Proof.Bed) :
    (takeBedOut bed s).powered = s.powered ∧ (takeBedOut bed s).straps = s.straps ∧
    (takeBedOut bed s).station = s.station ∧ (takeBedOut bed s).clock = s.clock ∧ (takeBedOut bed s).nom = s.nom ∧
    (takeBedOut bed s).peers = s.peers ∧ (takeBedOut bed s).train = s.train ∧ (takeBedOut bed s).comp = s.comp ∧
    (takeBedOut bed s).intake = s.intake ∧ (takeBedOut bed s).port = s.port ∧ (takeBedOut bed s).ext = s.ext ∧
    (takeBedOut bed s).freeDraws = s.freeDraws ∧ (takeBedOut bed s).pending = s.pending ∧
    (takeBedOut bed s).link.state = s.link.state ∧ (takeBedOut bed s).link.join = s.link.join ∧
    (takeBedOut bed s).link.joinFailures = s.link.joinFailures ∧ (takeBedOut bed s).link.haltSet = s.link.haltSet ∧
    (takeBedOut bed s).link.receiveErrors = s.link.receiveErrors ∧
    (takeBedOut bed s).link.discards = s.link.discards ∧
    (takeBedOut bed s).link.restartPending = s.link.restartPending := by
  unfold takeBedOut; dsimp only; split <;> simp

@[simp] theorem bedFault_frame (bed : Sys2Proof.Bed) :
    (bedFault bed s).powered = s.powered ∧ (bedFault bed s).straps = s.straps ∧ (bedFault bed s).station = s.station ∧
    (bedFault bed s).clock = s.clock ∧ (bedFault bed s).nom = s.nom ∧ (bedFault bed s).peers = s.peers ∧
    (bedFault bed s).train = s.train ∧ (bedFault bed s).comp = s.comp ∧ (bedFault bed s).intake = s.intake ∧
    (bedFault bed s).port = s.port ∧ (bedFault bed s).ext = s.ext ∧ (bedFault bed s).freeDraws = s.freeDraws ∧
    (bedFault bed s).pending = s.pending ∧ (bedFault bed s).link.state = s.link.state ∧
    (bedFault bed s).link.join = s.link.join ∧ (bedFault bed s).link.joinFailures = s.link.joinFailures ∧
    (bedFault bed s).link.haltSet = s.link.haltSet ∧ (bedFault bed s).link.receiveErrors = s.link.receiveErrors ∧
    (bedFault bed s).link.discards = s.link.discards ∧ (bedFault bed s).link.restartPending = s.link.restartPending := by
  unfold bedFault; simp

@[simp] theorem ownHead_frame :
    (ownHead s).powered = s.powered ∧ (ownHead s).straps = s.straps ∧ (ownHead s).station = s.station ∧
    (ownHead s).clock = s.clock ∧ (ownHead s).acct = s.acct ∧ (ownHead s).nom = s.nom ∧ (ownHead s).peers = s.peers ∧
    (ownHead s).train = s.train ∧ (ownHead s).dryer = s.dryer ∧ (ownHead s).intake.held = s.intake.held ∧
    (ownHead s).intake.latestCv = s.intake.latestCv ∧ (ownHead s).intake.lastSequence = s.intake.lastSequence ∧
    (ownHead s).intake.fieldTimer = s.intake.fieldTimer ∧ (ownHead s).intake.lateRaised = s.intake.lateRaised ∧
    (ownHead s).intake.fieldLost = s.intake.fieldLost ∧ (ownHead s).intake.checkFailures = s.intake.checkFailures ∧
    (ownHead s).intake.sequenceGaps = s.intake.sequenceGaps ∧ (ownHead s).intake.hourSamples = s.intake.hourSamples ∧
    (ownHead s).intake.lineup = s.intake.lineup ∧ (ownHead s).intake.meter = s.intake.meter ∧
    (ownHead s).intake.meterSpan = s.intake.meterSpan ∧ (ownHead s).intake.compFuel = s.intake.compFuel ∧
    (ownHead s).intake.heaterFuel = s.intake.heaterFuel ∧ (ownHead s).intake.volume = s.intake.volume ∧
    (ownHead s).intake.compWh = s.intake.compWh ∧ (ownHead s).intake.heaterWh = s.intake.heaterWh ∧
    (ownHead s).intake.samples = s.intake.samples ∧ (ownHead s).intake.suspInject = s.intake.suspInject ∧
    (ownHead s).intake.suspWithdraw = s.intake.suspWithdraw ∧ (ownHead s).mon = s.mon ∧ (ownHead s).link = s.link ∧
    (ownHead s).port = s.port ∧ (ownHead s).ext = s.ext ∧ (ownHead s).freeDraws = s.freeDraws ∧
    (ownHead s).pending = s.pending := by
  unfold ownHead; split <;> simp

@[simp] theorem removeFromCopy_frame (n : Nat) :
    (removeFromCopy n s).powered = s.powered ∧ (removeFromCopy n s).straps = s.straps ∧
    (removeFromCopy n s).station = s.station ∧ (removeFromCopy n s).clock = s.clock ∧
    (removeFromCopy n s).acct = s.acct ∧ (removeFromCopy n s).nom = s.nom ∧ (removeFromCopy n s).train = s.train ∧
    (removeFromCopy n s).dryer = s.dryer ∧ (removeFromCopy n s).intake.held = s.intake.held ∧
    (removeFromCopy n s).intake.latestCv = s.intake.latestCv ∧
    (removeFromCopy n s).intake.lastSequence = s.intake.lastSequence ∧
    (removeFromCopy n s).intake.fieldTimer = s.intake.fieldTimer ∧
    (removeFromCopy n s).intake.lateRaised = s.intake.lateRaised ∧
    (removeFromCopy n s).intake.fieldLost = s.intake.fieldLost ∧
    (removeFromCopy n s).intake.checkFailures = s.intake.checkFailures ∧
    (removeFromCopy n s).intake.sequenceGaps = s.intake.sequenceGaps ∧
    (removeFromCopy n s).intake.hourSamples = s.intake.hourSamples ∧
    (removeFromCopy n s).intake.lineup = s.intake.lineup ∧ (removeFromCopy n s).intake.meter = s.intake.meter ∧
    (removeFromCopy n s).intake.meterSpan = s.intake.meterSpan ∧
    (removeFromCopy n s).intake.compFuel = s.intake.compFuel ∧
    (removeFromCopy n s).intake.heaterFuel = s.intake.heaterFuel ∧
    (removeFromCopy n s).intake.volume = s.intake.volume ∧ (removeFromCopy n s).intake.compWh = s.intake.compWh ∧
    (removeFromCopy n s).intake.heaterWh = s.intake.heaterWh ∧
    (removeFromCopy n s).intake.samples = s.intake.samples ∧
    (removeFromCopy n s).intake.suspInject = s.intake.suspInject ∧
    (removeFromCopy n s).intake.suspWithdraw = s.intake.suspWithdraw ∧ (removeFromCopy n s).mon = s.mon ∧
    (removeFromCopy n s).link = s.link ∧ (removeFromCopy n s).port = s.port ∧ (removeFromCopy n s).ext = s.ext ∧
    (removeFromCopy n s).freeDraws = s.freeDraws ∧ (removeFromCopy n s).pending = s.pending := by
  unfold removeFromCopy; dsimp only; repeat' split
  all_goals simp

@[simp] theorem expireHead_frame :
    (expireHead s).powered = s.powered ∧ (expireHead s).straps = s.straps ∧ (expireHead s).station = s.station ∧
    (expireHead s).clock = s.clock ∧ (expireHead s).acct = s.acct ∧ (expireHead s).nom = s.nom ∧
    (expireHead s).train = s.train ∧ (expireHead s).dryer = s.dryer ∧ (expireHead s).intake.held = s.intake.held ∧
    (expireHead s).intake.latestCv = s.intake.latestCv ∧ (expireHead s).intake.lastSequence = s.intake.lastSequence ∧
    (expireHead s).intake.fieldTimer = s.intake.fieldTimer ∧ (expireHead s).intake.lateRaised = s.intake.lateRaised ∧
    (expireHead s).intake.fieldLost = s.intake.fieldLost ∧
    (expireHead s).intake.checkFailures = s.intake.checkFailures ∧
    (expireHead s).intake.sequenceGaps = s.intake.sequenceGaps ∧
    (expireHead s).intake.hourSamples = s.intake.hourSamples ∧ (expireHead s).intake.lineup = s.intake.lineup ∧
    (expireHead s).intake.meter = s.intake.meter ∧ (expireHead s).intake.meterSpan = s.intake.meterSpan ∧
    (expireHead s).intake.compFuel = s.intake.compFuel ∧ (expireHead s).intake.heaterFuel = s.intake.heaterFuel ∧
    (expireHead s).intake.volume = s.intake.volume ∧ (expireHead s).intake.compWh = s.intake.compWh ∧
    (expireHead s).intake.heaterWh = s.intake.heaterWh ∧ (expireHead s).intake.samples = s.intake.samples ∧
    (expireHead s).intake.suspInject = s.intake.suspInject ∧
    (expireHead s).intake.suspWithdraw = s.intake.suspWithdraw ∧ (expireHead s).mon = s.mon ∧
    (expireHead s).link = s.link ∧ (expireHead s).port = s.port ∧ (expireHead s).ext = s.ext ∧
    (expireHead s).freeDraws = s.freeDraws ∧ (expireHead s).pending = s.pending := by
  unfold expireHead; split <;> (try split) <;> simp

/-! ### The end of an event -/

/-- With no restart pending an event ends with the handing of the SETPOINT fields (R71, R161). -/
theorem finish_eq_handAll (h : s.link.restartPending = false) : finish s = handAll s := by
  simp [finish, settleRestart, h]

theorem settleRestart_eq_self (h : s.link.restartPending = false) : settleRestart s = s := by
  simp [settleRestart, h]

/-- A telegram handed to the queue in CONFIG is not taken (R56). -/
theorem enqueue_config (t : Telegram) (o : Owner) (h : s.train.mode = .config) : enqueue t o s = s := by
  simp [enqueue, h]

/-- What an owner hands stands in the intake afterwards, changed or not (R132). -/
@[simp] theorem handFields_handed (f : Setpoint → Setpoint) : (handFields f s).intake.handed = f s.intake.handed := by
  unfold handFields; split <;> simp_all

/-- After an event the intake holds every SETPOINT field as its owner's state stands (R71, R88, R106, R132). -/
theorem handAll_handed : (handAll s).intake.handed = currentFields s := by
  simp [handAll, handMode, handCommand, handDryer, currentFields]

/-- The handing of SETPOINT fields changes the intake alone (R132). -/
theorem handAll_eq : handAll s = { s with intake := (handAll s).intake } := by
  apply State.eq_of_blocks <;> simp

/-- With the handed SETPOINT fields as the blocks' states stand, nothing is handed (R132). -/
theorem handAll_eq_self (h : s.intake.handed = currentFields s) : handAll s = s := by
  simp [handAll, handMode, handCommand, handDryer, handFields, h, currentFields]

end Sys2Proof.Machine
end

