-- ==== Sys2Proof/Laws/Queue.lean ====
section
/-! SUPPORT. The transmit queue and the raising of a condition: what one telegram handed to a queue with room does, and
what a raised condition leaves in the monitor. -/

namespace Sys2Proof.Machine

variable (s : State)

@[simp] theorem updateAt_length {α : Type} (i : Nat) (f : α → α) (l : List α) : (updateAt i f l).length = l.length := by
  induction l generalizing i with
  | nil => simp [updateAt]
  | cons x rest ih => cases i <;> simp [updateAt, ih]

theorem updateAt_getD_self {α : Type} (i : Nat) (f : α → α) (l : List α) (d : α) (h : i < l.length) :
    (updateAt i f l).getD i d = f (l.getD i d) := by
  induction l generalizing i with
  | nil => simp at h
  | cons x rest ih => cases i with
    | zero => simp [updateAt]
    | succ n => simpa [updateAt] using ih n (by simpa using h)

theorem updateAt_getD_of_ne {α : Type} (i j : Nat) (f : α → α) (l : List α) (d : α) (h : i ≠ j) :
    (updateAt i f l).getD j d = l.getD j d := by
  induction l generalizing i j with
  | nil => simp [updateAt]
  | cons x rest ih => cases i <;> cases j <;> simp_all [updateAt]

/-! ### One telegram on a queue with room (R146 to R148) -/

theorem mem_insertEntry (q : List Entry) (e x : Entry) : x ∈ insertEntry q e ↔ x = e ∨ x ∈ q := by
  unfold insertEntry
  simp only [List.mem_append, List.mem_filter, List.mem_cons, decide_eq_true_eq]
  by_cases h : telegramClass x.telegram ≤ telegramClass e.telegram
  · simp only [h, and_true]; tauto
  · simp only [h, and_false, false_or]
    have : telegramClass x.telegram > telegramClass e.telegram := by omega
    simp only [this, and_true]

@[simp] theorem insertEntry_length (q : List Entry) (e : Entry) : (insertEntry q e).length = q.length + 1 := by
  induction q with
  | nil => simp [insertEntry]
  | cons x rest ih =>
    simp only [insertEntry, List.length_append, List.length_cons, List.filter_cons] at ih ⊢
    by_cases h : telegramClass x.telegram ≤ telegramClass e.telegram
    · have : ¬ telegramClass x.telegram > telegramClass e.telegram := by omega
      simp only [h, this, decide_true, decide_false, ite_true, List.length_cons]
      simp only [Bool.false_eq_true, if_false]; omega
    · have : telegramClass x.telegram > telegramClass e.telegram := by omega
      simp only [h, this, decide_true, decide_false, ite_true, List.length_cons]
      simp only [Bool.false_eq_true, if_false]; omega

/-- With the mark clear and a place free, a telegram is taken: it replaces or it enters (R146, R147). -/
theorem fateOf_of_room (l : Link) (t : Telegram) (hm : l.refusalMark = false) (hl : l.queue.length < 12) :
    fateOf l t = if l.queue.any (replaces t) then .replaced else .entered := by
  simp [fateOf, hm, hl]

/-- A telegram handed to a queue with room changes the link alone (R146). -/
theorem enqueue_of_room (t : Telegram) (o : Owner) (hc : s.train.mode ≠ .config) (hm : s.link.refusalMark = false)
    (hl : s.link.queue.length < 12) :
    enqueue t o s = s.onLink (fun l => if l.queue.any (replaces t) then l.replace t else l.enter t o) := by
  unfold enqueue
  rw [if_neg hc, fateOf_of_room _ _ hm hl]
  by_cases h : s.link.queue.any (replaces t) <;> simp [h, State.onLink]

/-- The mark stays clear while fewer than nine entries are held (R147). -/
theorem refusalMarkAfter_false (n : Nat) (h : n < 9) : refusalMarkAfter false n = false := by
  unfold refusalMarkAfter; split
  · omega
  · split <;> rfl

/-- A telegram taken by a queue with room makes it longer by at most one entry and leaves the mark clear (R146, R147). -/
theorem enqueue_room_next (t : Telegram) (o : Owner) (hm : s.link.refusalMark = false) (n : Nat)
    (hl : s.link.queue.length ≤ n) (hn : n < 8) :
    (enqueue t o s).link.refusalMark = false ∧ (enqueue t o s).link.queue.length ≤ n + 1 := by
  by_cases hc : s.train.mode = .config
  · rw [enqueue_config s t o hc]; exact ⟨hm, by omega⟩
  · rw [enqueue_of_room s t o hc hm (by omega)]
    simp only [State.onLink_link]
    split
    · exact ⟨hm, by simp [Link.replace]; omega⟩
    · constructor
      · simp [Link.enter, Link.withQueue, hm, refusalMarkAfter_false _ (show s.link.queue.length + 1 < 9 by omega)]
      · simp [Link.enter, Link.withQueue]; omega

/-- A reply taken by a queue with room waits in it (R146, R160). -/
theorem replyTo_waits (o : Owner) (console command arg litres : Nat) (r : OrderOutcome) (hc : s.train.mode ≠ .config)
    (hm : s.link.refusalMark = false) (hl : s.link.queue.length < 12) :
    (replyTo o console command arg litres r s).waits
      (.reply { console := console, command := command, arg := arg, litres := litres, outcome := r }) := by
  unfold replyTo
  rw [enqueue_of_room s _ _ hc hm hl]
  have h : ∀ r, s.link.queue.any (replaces (.reply r)) = false := by simp [replaces]
  simp only [State.waits, State.onLink_link, h, Bool.false_eq_true, if_false]
  refine ⟨{ telegram := _, owner := o, ticket := s.link.nextTicket }, ?_, rfl, rfl⟩
  simp [Link.enter, Link.withQueue, mem_insertEntry]

/-- What waits stays waiting when only the SETPOINT fields are handed over. -/
@[simp] theorem handAll_waits (m : Telegram) : (handAll s).waits m ↔ s.waits m := by simp [State.waits]

/-! ### A condition raised (R156) -/

theorem condCode_range (c : Cond) : 1 ≤ condCode c ∧ condCode c ≤ 31 := by cases c <;> simp [condCode]

theorem condCode_inj (c d : Cond) (h : condCode c = condCode d) : c = d := by
  cases c <;> cases d <;> simp_all [condCode]

@[simp] theorem Monitor.escalate_flags (m : Monitor) (r : ExceptionRecord) :
    (m.escalate r).sticky = m.sticky ∧ (m.escalate r).counters = m.counters := by
  unfold Monitor.escalate; dsimp only; split <;> simp

theorem raiseQuiet_flags (c : Cond) (slot : Nat) (v : Int) :
    (raiseQuiet c slot v s).mon.sticky = updateAt (condCode c - 1) (fun _ => true) s.mon.sticky ∧
    (raiseQuiet c slot v s).mon.counters = updateAt (condCode c - 1) (fun n => satAdd top16 n 1) s.mon.counters := by
  unfold raiseQuiet; split <;> simp [Monitor.count]

/-- A raised condition other than TX_DROP sets its flag and adds 1 to its counter, whatever becomes of its report
(R156, R157). -/
theorem raise_raisedOnce (c : Cond) (slot : Nat) (v : Int) (hc : c ≠ .txDrop) (hs : s.mon.sized) :
    raisedOnce c s (raise c slot v s) := by
  have hr := condCode_range c
  have hq := raiseQuiet_flags s c slot v
  have hne : condCode .txDrop - 1 ≠ condCode c - 1 := by
    intro h
    apply hc
    apply condCode_inj
    have := condCode_range .txDrop
    omega
  have key : raisedOnce c s (raiseQuiet c slot v s) := by
    refine ⟨?_, ?_⟩
    · rw [hq.1, updateAt_getD_self _ _ _ _ (by rw [hs.1]; omega)]
    · rw [hq.2, updateAt_getD_self _ _ _ _ (by rw [hs.2]; omega)]
  unfold raise
  dsimp only
  split
  · unfold queueConditionReport
    split
    · exact key
    · exact key
    all_goals
      have hd := raiseQuiet_flags (raiseQuiet c slot v s) .txDrop 0 11
      refine ⟨?_, ?_⟩
      · rw [hd.1, updateAt_getD_of_ne _ _ _ _ _ hne]; exact key.1
      · rw [hd.2, updateAt_getD_of_ne _ _ _ _ _ hne]; exact key.2
  · exact key

/-- A condition raised on a queue with room makes it longer by at most one entry and leaves the mark clear. -/
theorem raise_room_next (c : Cond) (slot : Nat) (v : Int) (hm : s.link.refusalMark = false) (n : Nat)
    (hl : s.link.queue.length ≤ n) (hn : n < 8) :
    (raise c slot v s).link.refusalMark = false ∧ (raise c slot v s).link.queue.length ≤ n + 1 := by
  unfold raise
  dsimp only
  split
  · unfold queueConditionReport
    rw [fateOf_of_room _ _ (by simpa using hm) (by simp; omega)]
    split
    · simp [Link.enter, Link.withQueue, hm, refusalMarkAfter_false _ (show s.link.queue.length + 1 < 9 by omega)]; omega
    · simp [Link.enter, Link.withQueue, hm, refusalMarkAfter_false _ (show s.link.queue.length + 1 < 9 by omega)]; omega
    all_goals rename_i h; split at h <;> simp at h
  · simp [hm]; omega

end Sys2Proof.Machine
end

