-- ==== Sys2Proof/Laws/Reactions.lean ====
section
/-! SUPPORT. What the sequencer's reaction, the hold and the handing of SETPOINT fields leave of a raised condition and of
what waits in the transmit queue, when the reaction does nothing, and the fields of `Intake.handing`. -/

namespace Sys2Proof.Machine

variable (s : State)

/-! ### The intake but for what is handed and sent -/

@[simp] theorem Intake.handing_held (i j : Intake) : (i.handing j).held = i.held := rfl
@[simp] theorem Intake.handing_latestCv (i j : Intake) : (i.handing j).latestCv = i.latestCv := rfl
@[simp] theorem Intake.handing_lastSequence (i j : Intake) : (i.handing j).lastSequence = i.lastSequence := rfl
@[simp] theorem Intake.handing_fieldTimer (i j : Intake) : (i.handing j).fieldTimer = i.fieldTimer := rfl
@[simp] theorem Intake.handing_lateRaised (i j : Intake) : (i.handing j).lateRaised = i.lateRaised := rfl
@[simp] theorem Intake.handing_fieldLost (i j : Intake) : (i.handing j).fieldLost = i.fieldLost := rfl
@[simp] theorem Intake.handing_checkFailures (i j : Intake) : (i.handing j).checkFailures = i.checkFailures := rfl
@[simp] theorem Intake.handing_sequenceGaps (i j : Intake) : (i.handing j).sequenceGaps = i.sequenceGaps := rfl
@[simp] theorem Intake.handing_hourSamples (i j : Intake) : (i.handing j).hourSamples = i.hourSamples := rfl
@[simp] theorem Intake.handing_lineup (i j : Intake) : (i.handing j).lineup = i.lineup := rfl
@[simp] theorem Intake.handing_meter (i j : Intake) : (i.handing j).meter = i.meter := rfl
@[simp] theorem Intake.handing_meterSpan (i j : Intake) : (i.handing j).meterSpan = i.meterSpan := rfl
@[simp] theorem Intake.handing_compFuel (i j : Intake) : (i.handing j).compFuel = i.compFuel := rfl
@[simp] theorem Intake.handing_heaterFuel (i j : Intake) : (i.handing j).heaterFuel = i.heaterFuel := rfl
@[simp] theorem Intake.handing_volume (i j : Intake) : (i.handing j).volume = i.volume := rfl
@[simp] theorem Intake.handing_compWh (i j : Intake) : (i.handing j).compWh = i.compWh := rfl
@[simp] theorem Intake.handing_heaterWh (i j : Intake) : (i.handing j).heaterWh = i.heaterWh := rfl
@[simp] theorem Intake.handing_samples (i j : Intake) : (i.handing j).samples = i.samples := rfl
@[simp] theorem Intake.handing_suspInject (i j : Intake) : (i.handing j).suspInject = i.suspInject := rfl
@[simp] theorem Intake.handing_suspWithdraw (i j : Intake) : (i.handing j).suspWithdraw = i.suspWithdraw := rfl
@[simp] theorem Intake.handing_handed (i j : Intake) : (i.handing j).handed = j.handed := rfl
@[simp] theorem Intake.handing_sending (i j : Intake) : (i.handing j).sending = j.sending := rfl
@[simp] theorem Intake.handing_sendAgain (i j : Intake) : (i.handing j).sendAgain = j.sendAgain := rfl

@[simp] theorem Intake.handing_self (i : Intake) : i.handing i = i := rfl
@[simp] theorem Intake.handing_handing (i j k : Intake) : (i.handing j).handing k = i.handing k := rfl

/-! ### A condition's flag and counter -/

/-- The flag and the counter of a condition. -/
def Monitor.reading (c : Cond) (m : Monitor) : Bool × Nat :=
  (m.sticky.getD (condCode c - 1) false, m.counters.getD (condCode c - 1) 0)

/-- A condition stays raised in any state that reads the same of it. -/
theorem raisedOnce_of_reading {c : Cond} {s t u : State} (h : raisedOnce c s t)
    (hr : u.mon.reading c = t.mon.reading c) : raisedOnce c s u := by
  simp only [Monitor.reading, Prod.mk.injEq] at hr
  exact ⟨hr.1.trans h.1, hr.2.trans h.2⟩

/-- A condition raised from a state that reads the same of it as an earlier one has been raised from that one. -/
theorem raisedOnce_of_before {c : Cond} {s t u : State} (h : raisedOnce c t u)
    (hr : t.mon.reading c = s.mon.reading c) : raisedOnce c s u := by
  simp only [Monitor.reading, Prod.mk.injEq] at hr
  exact ⟨h.1, by rw [h.2, hr.2]⟩

/-- Another condition counted leaves a condition's flag and counter. -/
theorem raiseQuiet_reading (c d : Cond) (slot : Nat) (v : Int) (h : c ≠ d) :
    (raiseQuiet d slot v s).mon.reading c = s.mon.reading c := by
  have hq := raiseQuiet_flags s d slot v
  have h1 := condCode_range c
  have h2 := condCode_range d
  have hne : condCode d - 1 ≠ condCode c - 1 := fun hh => h (condCode_inj c d (by omega))
  simp only [Monitor.reading, hq.1, hq.2, updateAt_getD_of_ne _ _ _ _ _ hne]

/-- A CONDITION report queued leaves the flag and counter of every condition but TX_DROP. -/
theorem queueConditionReport_reading (c : Cond) (r : ConditionReport) (h : c ≠ .txDrop) :
    (queueConditionReport r s).mon.reading c = s.mon.reading c := by
  unfold queueConditionReport
  split
  · rfl
  · rfl
  all_goals exact raiseQuiet_reading s c .txDrop 0 11 h

/-- Another condition raised leaves the flag and counter of every condition but TX_DROP (R147, R156). -/
theorem raise_reading (c d : Cond) (slot : Nat) (v : Int) (h : c ≠ d) (hx : c ≠ .txDrop) :
    (raise d slot v s).mon.reading c = s.mon.reading c := by
  unfold raise
  dsimp only
  split
  · rw [queueConditionReport_reading _ _ _ hx, raiseQuiet_reading _ _ _ _ _ h]
  · exact raiseQuiet_reading s c d slot v h

@[simp] theorem tellUnsent_reading (c : Cond) (o : Owner) (t : Telegram) :
    (tellUnsent o t s).mon.reading c = s.mon.reading c := by simp

/-- A refusal, drop or eviction leaves the flag and counter of every condition but TX_DROP (R147, R148). -/
theorem raiseDrop_reading (c : Cond) (t : Telegram) (h : c ≠ .txDrop) :
    (raiseDrop t s).mon.reading c = s.mon.reading c := by
  unfold raiseDrop
  split
  · exact raiseQuiet_reading s c _ _ _ h
  · exact raise_reading s c _ _ _ h h

/-- A telegram handed to the queue leaves the flag and counter of every condition but TX_DROP. -/
theorem enqueue_reading (c : Cond) (t : Telegram) (o : Owner) (h : c ≠ .txDrop) :
    (enqueue t o s).mon.reading c = s.mon.reading c := by
  unfold enqueue
  split
  · rfl
  · split <;> simp [raiseDrop_reading _ _ _ h]

theorem replyTo_reading (c : Cond) (o : Owner) (a b d e : Nat) (r : OrderOutcome) (h : c ≠ .txDrop) :
    (replyTo o a b d e r s).mon.reading c = s.mon.reading c := enqueue_reading s c _ _ h

theorem queueCede_reading (c : Cond) (h : c ≠ .txDrop) : (queueCede s).mon.reading c = s.mon.reading c := by
  unfold queueCede; split
  · rfl
  · simp [enqueue_reading _ _ _ _ h]

/-- The sequencer's reaction leaves the flag and counter of every condition but TX_DROP. -/
theorem sequencerReact_reading (c : Cond) (h : c ≠ .txDrop) :
    (sequencerReact s).mon.reading c = s.mon.reading c := by
  have h1 : ∀ s : State, (cancelTests s).mon.reading c = s.mon.reading c := by
    intro s; unfold cancelTests; split
    · rfl
    · split
      · simp [queueCede_reading _ _ h]
      · unfold withdrawClaim; split <;> simp
  have h2 : ∀ s : State, (stopTests s).mon.reading c = s.mon.reading c := by
    intro s; unfold stopTests; split
    · split
      · simp [queueCede_reading _ _ h]
      · rfl
    · split <;> simp
    all_goals rfl
  have h3 : ∀ s : State, (claimTest s).mon.reading c = s.mon.reading c := by
    intro s; unfold claimTest; split
    · simp [queueClaim, enqueue_reading _ _ _ _ h]
    · rfl
  rw [sequencerReact, h3, h2, h1]

/-- What follows an event of a block leaves the flag and counter of every condition but TX_DROP. -/
theorem settle_reading (c : Cond) (h : c ≠ .txDrop) : (settle s).mon.reading c = s.mon.reading c := by
  simp [settle, sequencerReact_reading _ _ h]

/-! ### Room in the queue, and what waits -/

/-- The refusal mark is clear and at most `n` entries are held. -/
def State.room (n : Nat) : Prop := s.link.refusalMark = false ∧ s.link.queue.length ≤ n

theorem enqueue_room {n : Nat} (t : Telegram) (o : Owner) (h : s.room n) (hn : n < 8) : (enqueue t o s).room (n + 1) :=
  enqueue_room_next s t o h.1 n h.2 hn

theorem raise_room {n : Nat} (c : Cond) (slot : Nat) (v : Int) (h : s.room n) (hn : n < 8) :
    (raise c slot v s).room (n + 1) := raise_room_next s c slot v h.1 n h.2 hn

theorem State.room.mono {s : State} {n m : Nat} (h : s.room n) (hm : n ≤ m) : s.room m := ⟨h.1, h.2.trans hm⟩

theorem queueCede_room {n : Nat} (h : s.room n) (hn : n < 8) : (queueCede s).room (n + 1) := by
  unfold queueCede; split
  · exact h.mono (by omega)
  · exact enqueue_room _ _ _ (by simpa [State.room] using h) hn

theorem withdrawClaim_room {n : Nat} (h : s.room n) (hn : n < 9) : (withdrawClaim s).room n := by
  unfold withdrawClaim; split
  · have hl : (s.link.queue.filter (fun x => !(Entry.isClaim x) || x.onLine)).length ≤ n :=
      (List.length_filter_le _ _).trans h.2
    exact ⟨by simpa [Link.withdraw, Link.withQueue, h.1] using refusalMarkAfter_false _ (show _ < 9 by omega),
      by simpa [Link.withdraw, Link.withQueue] using hl⟩
  · exact h

/-- The sequencer's reaction takes at most two places of the queue. -/
theorem sequencerReact_room {n : Nat} (h : s.room n) (hn : n < 7) : (sequencerReact s).room (n + 2) := by
  have key : (stopTests (cancelTests s)).room (n + 1) := by
    unfold cancelTests
    split
    · unfold stopTests; split
      · split
        · exact queueCede_room _ (by simpa [State.room] using h) (by omega)
        · exact h.mono (by omega)
      · split <;> exact State.room.mono (by simpa [State.room] using h) (by omega)
      all_goals exact h.mono (by omega)
    · split
      · have hq := queueCede_room (s.onComp (·.setUnit .stopped)) (n := n) (by simpa [State.room] using h) (by omega)
        have hu : (queueCede (s.onComp (·.setUnit .stopped))).comp.unit = .stopped := by simp [Compressor.setUnit]
        unfold stopTests; rw [hu]; exact hq
      · have hw := withdrawClaim_room s h (by omega)
        unfold stopTests; split
        · split
          · exact queueCede_room _ (by simpa [State.room] using hw) (by omega)
          · exact hw.mono (by omega)
        · split <;> exact State.room.mono (by simpa [State.room] using hw) (by omega)
        all_goals exact hw.mono (by omega)
  unfold sequencerReact claimTest
  split
  · exact enqueue_room _ _ _ (by simpa [State.room] using key) (by omega)
  · exact key.mono (by omega)

/-- A telegram that waits goes on waiting when another is taken by a queue with room, unless it is replaced. -/
theorem enqueue_waits {n : Nat} (m t : Telegram) (o : Owner) (h : s.room n) (hn : n < 12) (hw : s.waits m)
    (hr : ∀ e ∈ s.link.queue, replaces t e = false) : (enqueue t o s).waits m := by
  by_cases hc : s.train.mode = .config
  · rwa [enqueue_config s t o hc]
  · rw [enqueue_of_room s t o hc h.1 (by have := h.2; omega)]
    have : s.link.queue.any (replaces t) = false := by simpa using hr
    obtain ⟨e, he, h1, h2⟩ := hw
    simp only [State.waits, State.onLink_link, this, Bool.false_eq_true, if_false]
    exact ⟨e, by simp [Link.enter, Link.withQueue, mem_insertEntry, he], h1, h2⟩

/-- A CLAIM or CEDE replaces nothing. -/
theorem replaces_claim (e : Entry) : replaces .claim e = false ∧ replaces .cede e = false := by simp [replaces]

theorem queueCede_waits {n : Nat} (m : Telegram) (h : s.room n) (hn : n < 12) (hw : s.waits m) : (queueCede s).waits m := by
  unfold queueCede; split
  · exact hw
  · exact enqueue_waits _ m _ _ (n := n) (by simpa [State.room] using h) hn (by simpa [State.waits] using hw)
      (fun e _ => (replaces_claim e).2)

/-- The sequencer's reaction on a queue with room leaves waiting what waits, but for the part's CLAIM. -/
theorem sequencerReact_waits {n : Nat} (m : Telegram) (h : s.room n) (hn : n < 7) (hw : s.waits m) (hm : m ≠ .claim) :
    (sequencerReact s).waits m := by
  have hw' : ∀ s : State, s.waits m → (withdrawClaim s).waits m := by
    intro s ⟨e, he, h1, h2⟩
    unfold withdrawClaim; split
    · refine ⟨e, ?_, h1, h2⟩
      simp only [State.onComp_link, State.onLink_link, Link.withdraw, Link.withQueue, List.mem_filter]
      exact ⟨he, by simp [Entry.isClaim, h1, hm]⟩
    · exact ⟨e, he, h1, h2⟩
  have key : (stopTests (cancelTests s)).waits m ∧ (stopTests (cancelTests s)).room (n + 1) := by
    unfold cancelTests
    split
    · unfold stopTests; split
      · split
        · exact ⟨queueCede_waits _ m (n := n) (by simpa [State.room] using h) (by omega) (by simpa [State.waits] using hw),
            queueCede_room _ (by simpa [State.room] using h) (by omega)⟩
        · exact ⟨hw, h.mono (by omega)⟩
      · split <;> exact ⟨by simpa [State.waits] using hw, State.room.mono (by simpa [State.room] using h) (by omega)⟩
      all_goals exact ⟨hw, h.mono (by omega)⟩
    · split
      · have hq := queueCede_room (s.onComp (·.setUnit .stopped)) (n := n) (by simpa [State.room] using h) (by omega)
        have hq' := queueCede_waits (s.onComp (·.setUnit .stopped)) m (n := n) (by simpa [State.room] using h) (by omega)
          (by simpa [State.waits] using hw)
        have hu : (queueCede (s.onComp (·.setUnit .stopped))).comp.unit = .stopped := by simp [Compressor.setUnit]
        unfold stopTests; rw [hu]; exact ⟨hq', hq⟩
      · have hwr := withdrawClaim_room s h (by omega)
        have hww := hw' s hw
        unfold stopTests; split
        · split
          · exact ⟨queueCede_waits _ m (n := n) (by simpa [State.room] using hwr) (by omega)
                (by simpa [State.waits] using hww), queueCede_room _ (by simpa [State.room] using hwr) (by omega)⟩
          · exact ⟨hww, hwr.mono (by omega)⟩
        · split <;> exact ⟨by simpa [State.waits] using hww, State.room.mono (by simpa [State.room] using hwr) (by omega)⟩
        all_goals exact ⟨hww, hwr.mono (by omega)⟩
  unfold sequencerReact claimTest
  split
  · exact enqueue_waits _ m _ _ (n := n + 1) (by simpa [State.room] using key.2) (by omega)
      (by simpa [State.waits] using key.1) (fun e _ => (replaces_claim e).1)
  · exact key.1

/-- A telegram taken by a queue with room waits in it, in its own entry or in that of the one it replaces (R146). -/
theorem enqueue_self_waits {n : Nat} (t : Telegram) (o : Owner) (hc : s.train.mode ≠ .config) (h : s.room n)
    (hn : n < 12) : (enqueue t o s).waits t := by
  rw [enqueue_of_room s t o hc h.1 (by have := h.2; omega)]
  simp only [State.waits, State.onLink_link]
  split
  · rename_i ha
    obtain ⟨e, he, hr⟩ := List.any_eq_true.mp ha
    refine ⟨{ e with telegram := t }, ?_, rfl, ?_⟩
    · simp only [Link.replace, List.mem_map]
      exact ⟨e, he, by simp [hr]⟩
    · simp only [replaces, Bool.and_eq_true, Bool.not_eq_true'] at hr
      exact hr.1
  · exact ⟨{ telegram := t, owner := o, ticket := s.link.nextTicket },
      by simp [Link.enter, Link.withQueue, mem_insertEntry], rfl, rfl⟩

/-! ### The sequencer's tests (R89, R96) -/

theorem wantConditions_iff : s.wantConditions = true ↔ wants s := by
  unfold State.wantConditions wants modeFlow
  cases s.train.mode <;> simp

theorem startWanted_iff : s.startWanted = true ↔ startDue s := by
  unfold State.startWanted startDue
  unfold Image.minStopSeconds Compressor.youngStarts
  simp only [Bool.and_eq_true, wantConditions_iff, decide_eq_true_eq, Bool.not_eq_true', List.contains_eq_mem,
    decide_eq_false_iff_not, and_assoc]

theorem stopCalled_iff : s.stopCalled = true ↔ stopDue s := by
  unfold State.stopCalled stopDue
  unfold Image.minRunSeconds
  simp only [Bool.or_eq_true, Bool.and_eq_true, decide_eq_true_eq, or_assoc]

end Sys2Proof.Machine
end

