-- ==== Sys2Proof/Laws/Commands.lean ====
section
/-! SUPPORT. How a command that is taken runs: the telegram of a station the part hears, the order of a console it obeys,
the event of a timer; and what a reply leaves. -/

namespace Sys2Proof.Machine

open Sys2Proof (Instr)

variable {s : State}

/-- A telegram that the part hears from a recognised source is taken (R149). -/
theorem heard_exec {src dst : Nat} (h : s.hears src dst) (kind : Nat) (recognised : State → Bool) (take : State → State)
    (hr : recognised s = true) : received src dst kind recognised take s = .next (finish (take s)) := by
  obtain ⟨⟨⟨hp, _⟩, hc⟩, h0, h1, h2⟩ := h
  have ha : s.addressed dst = true := by simpa [State.addressed] using h2
  simp [received, whilePowered, hp, filterTelegram, hc, h0, h1, ha, hr]

/-- An order that the part obeys and answers now: its block's work, then the reply (R149, R160). -/
theorem obeyed_exec {src dst : Nat} (h : s.obeys src dst) (c a l : Nat) (f : State → State × Option OrderOutcome)
    (o : OrderOutcome) (u : State) (hf : f s = (u, some o)) (hu : u.link.restartPending = false) :
    ordered src dst c a l f s = .next (handAll (replyTo .other src c a l o u)) := by
  rw [ordered, heard_exec h.1 _ _ _ (by simp [fromConsole, h.2.1, h.2.2])]
  simp only [takeOrder, hf]
  rw [finish_eq_handAll _ (by simpa [replyTo] using hu)]

/-- A timer's event in a steady part: the block's work, the sequencer's tests, the hold, the handing over. -/
theorem timed_exec (h : s.steady) (f : State → State) (hf : (f s).link.restartPending = false) :
    timed f s = .next (handAll (applyHold (sequencerReact (f s)))) := by
  simp only [timed, whilePowered, h.1, if_true]
  rw [settle, settleRestart_eq_self _ (by simpa using hf)]

/-- A class-3 telegram evicts nothing (R148). -/
theorem newestAbove_three (q : List Entry) : newestAbove 3 q = none := by
  have : q.filter (fun e => !e.onLine && decide (telegramClass e.telegram > 3)) = [] := by
    rw [List.filter_eq_nil_iff]
    intro e _
    have : telegramClass e.telegram ≤ 3 := by cases e.telegram <;> simp [telegramClass]
    simp; omega
  simp [newestAbove, this]

/-- A reply changes the link's queue and, when it is refused, the monitor; nothing else (R146, R147, R160). -/
@[simp] theorem replyTo_frame (o : Owner) (console command arg litres : Nat) (r : OrderOutcome) :
    (replyTo o console command arg litres r s).powered = s.powered ∧
    (replyTo o console command arg litres r s).straps = s.straps ∧
    (replyTo o console command arg litres r s).station = s.station ∧
    (replyTo o console command arg litres r s).clock = s.clock ∧
    (replyTo o console command arg litres r s).nom = s.nom ∧
    (replyTo o console command arg litres r s).peers = s.peers ∧
    (replyTo o console command arg litres r s).train = s.train ∧
    (replyTo o console command arg litres r s).dryer = s.dryer ∧
    (replyTo o console command arg litres r s).intake = s.intake ∧
    (replyTo o console command arg litres r s).port = s.port ∧
    (replyTo o console command arg litres r s).ext = s.ext ∧
    (replyTo o console command arg litres r s).freeDraws = s.freeDraws ∧
    (replyTo o console command arg litres r s).pending = s.pending ∧
    (replyTo o console command arg litres r s).comp = s.comp ∧
    (replyTo o console command arg litres r s).link.state = s.link.state ∧
    (replyTo o console command arg litres r s).link.join = s.link.join ∧
    (replyTo o console command arg litres r s).link.joinFailures = s.link.joinFailures ∧
    (replyTo o console command arg litres r s).link.haltSet = s.link.haltSet ∧
    (replyTo o console command arg litres r s).link.receiveErrors = s.link.receiveErrors ∧
    (replyTo o console command arg litres r s).link.discards = s.link.discards ∧
    (replyTo o console command arg litres r s).link.restartPending = s.link.restartPending ∧
    (replyTo o console command arg litres r s).mon.sumInjected = s.mon.sumInjected ∧
    (replyTo o console command arg litres r s).mon.sumWithdrawn = s.mon.sumWithdrawn ∧
    (replyTo o console command arg litres r s).mon.sumCompFuel = s.mon.sumCompFuel ∧
    (replyTo o console command arg litres r s).mon.sumHeater = s.mon.sumHeater ∧
    (replyTo o console command arg litres r s).acct.slots = s.acct.slots ∧
    (replyTo o console command arg litres r s).acct.cursor = s.acct.cursor ∧
    (o ≠ .dayCursor → (replyTo o console command arg litres r s).acct = s.acct) := by
  have hn : ∀ r, fateOf s.link (.reply r) = .entered ∨ fateOf s.link (.reply r) = .refused
      ∨ fateOf s.link (.reply r) = .dropped := by
    intro r
    have : s.link.queue.any (replaces (.reply r)) = false := by simp [replaces]
    unfold fateOf
    rw [this]
    simp only [Bool.false_eq_true, if_false, telegramClass, newestAbove_three]
    split
    · simp
    · split <;> simp
  have key : (replyTo o console command arg litres r s).comp = s.comp
      ∧ (o ≠ .dayCursor → (replyTo o console command arg litres r s).acct = s.acct) := by
    unfold replyTo enqueue
    split
    · simp
    · rcases hn { console := console, command := command, arg := arg, litres := litres, outcome := r } with h | h | h <;>
        rw [h] <;> cases o <;> simp [tellUnsent]
  refine ⟨?_, ?_, ?_, ?_, ?_, ?_, ?_, ?_, ?_, ?_, ?_, ?_, ?_, key.1, ?_, ?_, ?_, ?_, ?_, ?_, ?_, ?_, ?_, ?_, ?_, ?_, ?_,
    key.2⟩ <;> simp [replyTo]

/-- A reply's state but for its link and monitor. -/
theorem replyTo_eq (o : Owner) (console command arg litres : Nat) (r : OrderOutcome) (ho : o ≠ .dayCursor) :
    replyTo o console command arg litres r s = { s with
      link := (replyTo o console command arg litres r s).link, mon := (replyTo o console command arg litres r s).mon } := by
  apply State.eq_of_blocks <;> simp [ho]

/-- A reply taken by a queue with room waits in it after the fields have been handed over. -/
theorem handed_reply_waits {n : Nat} {u : State} (o : Owner) (c k a l : Nat) (r : OrderOutcome)
    (hc : u.train.mode ≠ .config) (h : u.room n) (hn : n < 12) :
    (handAll (replyTo o c k a l r u)).waits
      (.reply { console := c, command := k, arg := a, litres := l, outcome := r }) := by
  rw [handAll_waits]
  exact replyTo_waits u o c k a l r hc h.1 (by have := h.2; omega)

/-- The view is complete when both halves of every peer have been heard (R25). -/
theorem viewComplete_iff : s.viewComplete = true ↔ ∀ v ∈ s.peers.view, v.half1 ≠ none ∧ v.half2 ≠ none := by
  simp [State.viewComplete, Option.isSome_iff_ne_none]

/-- The test for leaving LISTEN, by R57. -/
theorem listenTest_pos (h : s.train.mode = .listen ∧ listenOver s) :
    listenTest s = s.onTrain (fun c => { c with mode := .idle, listenDone := true }) := by
  obtain ⟨hm, hs, j, hj, h30, hv⟩ := h
  unfold listenTest State.sinceJoin
  rw [hj, Option.map_some]
  exact if_pos ⟨hm, hs, h30, by rw [viewComplete_iff]; exact hv⟩

theorem listenTest_neg (h : ¬ (s.train.mode = .listen ∧ listenOver s)) : listenTest s = s := by
  unfold listenTest State.sinceJoin
  cases hj : s.train.joinTime with
  | none => rfl
  | some j =>
    rw [Option.map_some]
    refine if_neg fun ⟨hm, hs, h30, hv⟩ => h ⟨hm, hs, j, hj, h30, ?_⟩
    rwa [viewComplete_iff] at hv

/-- The unit after the sequencer's reaction to SHUT_IN (R93, R94, R96). -/
theorem sequencerReact_shutIn (hm : s.train.mode = .shutIn) : (sequencerReact s).comp.unit = unitShutIn s.comp.unit := by
  have hw : s.wantConditions = false := by simp [State.wantConditions, hm, modeFlow]
  have hsw : ∀ v : State, v.train.mode = .shutIn → v.startWanted = false := by
    intro v hv; simp [State.startWanted, State.wantConditions, hv, modeFlow]
  unfold sequencerReact claimTest
  rw [hsw _ (by simp [hm])]
  simp only [Bool.false_eq_true, if_false]
  unfold cancelTests
  rw [hw]
  simp only [Bool.false_eq_true, if_false]
  by_cases hq : s.comp.unit = .queued
  · rw [if_pos hq]
    have : (queueCede (s.onComp (·.setUnit .stopped))).comp.unit = .stopped := by simp [Compressor.setUnit]
    unfold stopTests
    rw [this]; simp [hq, unitShutIn, Compressor.setUnit]
  · rw [if_neg hq]
    have h1 : (withdrawClaim s).comp.unit = s.comp.unit := by simp
    unfold stopTests
    rw [h1]
    cases hu : s.comp.unit <;> simp_all [unitShutIn, Compressor.toStopping, Compressor.setUnit, State.stopCalled]

/-! ### What the sequencer's own telegrams do to its flags (R90, R95, R148) -/

/-- The entry that a telegram evicts waits, and its class number is higher (R148). -/
theorem newestAbove_spec {cls : Nat} {q : List Entry} {e : Entry} (h : newestAbove cls q = some e) :
    e ∈ q ∧ e.onLine = false ∧ cls < telegramClass e.telegram := by
  have key : ∀ (l : List Entry) (b : Option Entry) (p : Entry → Prop), (∀ x ∈ l, p x) → (∀ x, b = some x → p x) →
      ∀ x, l.foldl (fun best e => match best with
        | none => some e
        | some b => if e.ticket > b.ticket then some e else some b) b = some x → p x := by
    intro l
    induction l with
    | nil => intro b p _ hb x hx; exact hb x (by simpa using hx)
    | cons y rest ih =>
      intro b p hl hb x hx
      refine ih _ p (fun z hz => hl z (by simp [hz])) ?_ x hx
      intro z hz
      have hy := hl y (by simp)
      cases b with
      | none => simp at hz; exact hz ▸ hy
      | some b =>
        simp only at hz
        split at hz
        · simp at hz; exact hz ▸ hy
        · simp at hz; exact hz ▸ hb b rfl
  refine key _ none (fun e => e ∈ q ∧ e.onLine = false ∧ cls < telegramClass e.telegram) ?_ (by simp) e h
  intro x hx
  simpa using hx

/-- A telegram of a class above 0 that leaves the queue unsent leaves the sequencer as it is. -/
theorem tellUnsent_comp (o : Owner) (t : Telegram) (h : 0 < telegramClass t) : (tellUnsent o t s).comp = s.comp := by
  cases o <;> cases t <;> simp_all [tellUnsent, telegramClass]

/-- A CLAIM handed to the queue changes at most the sequencer's claim in flight, a CEDE at most its cede pending. -/
theorem enqueue_comp (t : Telegram) (o : Owner) :
    (t = .claim → (enqueue t o s).comp = { s.comp with claimInFlight := (enqueue t o s).comp.claimInFlight })
      ∧ (t = .cede → (enqueue t o s).comp = { s.comp with cedePending := (enqueue t o s).comp.cedePending })
      ∧ (0 < telegramClass t → (enqueue t o s).comp = s.comp) := by
  unfold enqueue
  split
  · simp
  · split
    · simp
    · simp
    · rename_i e he
      have : 0 < telegramClass e.telegram := by
        unfold fateOf at he
        split at he
        · cases he
        · split at he
          · cases he
          · split at he
            · cases he
            · split at he
              · rename_i hn; cases he; have := (newestAbove_spec hn).2.2; omega
              · cases he
      simp [tellUnsent_comp _ _ this]
    all_goals
      refine ⟨?_, ?_, ?_⟩
      · rintro rfl; cases o <;> simp [tellUnsent]
      · rintro rfl; cases o <;> simp [tellUnsent]
      · intro h; simp [tellUnsent_comp _ _ h]

theorem queueClaim_comp : (queueClaim s).comp = { s.comp with claimInFlight := (queueClaim s).comp.claimInFlight } := by
  have := (enqueue_comp (s := s.onComp (fun c => { c with claimInFlight := true })) .claim .sequencer).1 rfl
  unfold queueClaim
  rw [this]; simp

theorem queueCede_comp : (queueCede s).comp = { s.comp with cedePending := (queueCede s).comp.cedePending } := by
  unfold queueCede
  split
  · rfl
  · have := (enqueue_comp (s := s.onComp (fun c => { c with cedePending := true })) .cede .sequencer).2.1 rfl
    rw [this]; simp

theorem withdrawClaim_comp :
    (withdrawClaim s).comp = { s.comp with claimInFlight := (withdrawClaim s).comp.claimInFlight } := by
  unfold withdrawClaim; split <;> simp

/-- With room in the queue a CLAIM waits and the claim is in flight (R90). -/
theorem queueClaim_of_room {n : Nat} (hc : s.train.mode ≠ .config) (h : s.room n) (hn : n < 12) :
    (queueClaim s).comp.claimInFlight = true ∧ (queueClaim s).waits .claim := by
  unfold queueClaim
  refine ⟨?_, enqueue_self_waits (n := n) _ _ _ (by simpa using hc) (by simpa [State.room] using h) hn⟩
  rw [enqueue_of_room _ _ _ (by simpa using hc) (by simpa using h.1) (by have := h.2; simp; omega)]
  simp

/-- With room in the queue a CEDE waits and is pending, unless one was pending (R95). -/
theorem queueCede_of_room {n : Nat} (hc : s.train.mode ≠ .config) (h : s.room n) (hn : n < 12)
    (hp : s.comp.cedePending = false) : (queueCede s).comp.cedePending = true ∧ (queueCede s).waits .cede := by
  unfold queueCede
  rw [if_neg (by simp [hp, hc])]
  refine ⟨?_, enqueue_self_waits (n := n) _ _ _ (by simpa using hc) (by simpa [State.room] using h) hn⟩
  rw [enqueue_of_room _ _ _ (by simpa using hc) (by simpa using h.1) (by have := h.2; simp; omega)]
  simp

/-! ### The sequencer's reaction, unit state by unit state (R89, R90, R93, R94, R96) -/

/-- Where a start is wanted the reaction is to queue the CLAIM. -/
theorem sequencerReact_due (h : startDue s) : sequencerReact s = queueClaim s := by
  have hw : s.startWanted = true := (startWanted_iff s).2 h
  have hwc : s.wantConditions = true := (wantConditions_iff s).2 h.1
  have hs : stopTests s = s := by simp [stopTests, h.2.1]
  simp [sequencerReact, cancelTests, hwc, hs, claimTest, hw]

/-- A unit that is STOPPED, STOPPING, TRIPPED or LOCKOUT keeps all but its claim in flight. -/
theorem sequencerReact_still (h : s.comp.unit = .stopped ∨ s.comp.unit = .stopping ∨ s.comp.unit = .tripped
    ∨ s.comp.unit = .lockout) :
    (sequencerReact s).comp = { s.comp with claimInFlight := (sequencerReact s).comp.claimInFlight } := by
  have h1 : (cancelTests s).comp = { s.comp with claimInFlight := (cancelTests s).comp.claimInFlight } := by
    unfold cancelTests
    split
    · rfl
    · rw [if_neg (by rcases h with h | h | h | h <;> simp [h])]
      exact withdrawClaim_comp
  have h2 : stopTests (cancelTests s) = cancelTests s := by
    have hu : (cancelTests s).comp.unit = s.comp.unit := by rw [h1]
    unfold stopTests
    rw [hu]; rcases h with h | h | h | h <;> simp [h]
  unfold sequencerReact
  rw [h2]
  unfold claimTest
  split
  · rw [queueClaim_comp, h1]
  · rw [h1]

/-- A unit that is not due to start, has no claim in flight and is neither QUEUED, STARTING nor RUNNING is left alone. -/
theorem sequencerReact_not_due (h : s.comp.unit = .stopped ∨ s.comp.unit = .stopping ∨ s.comp.unit = .tripped
    ∨ s.comp.unit = .lockout) (hc : s.comp.claimInFlight = false) (hd : ¬ startDue s) : sequencerReact s = s := by
  have h1 : cancelTests s = s := by
    unfold cancelTests
    split
    · rfl
    · rw [if_neg (by rcases h with h | h | h | h <;> simp [h])]
      simp [withdrawClaim, hc]
  have h2 : stopTests s = s := by
    unfold stopTests; rcases h with h | h | h | h <;> simp [h]
  unfold sequencerReact claimTest
  rw [h1, h2, if_neg (by rwa [startWanted_iff])]

/-- A STARTING unit goes on starting but in SHUT_IN (R94). -/
theorem sequencerReact_starting (h : s.comp.unit = .starting) (hm : s.train.mode ≠ .shutIn) :
    (sequencerReact s).comp = { s.comp with claimInFlight := (sequencerReact s).comp.claimInFlight } := by
  have h1 : (cancelTests s).comp = { s.comp with claimInFlight := (cancelTests s).comp.claimInFlight }
      ∧ (cancelTests s).train = s.train := by
    refine ⟨?_, by simp⟩
    unfold cancelTests
    split
    · rfl
    · rw [if_neg (by simp [h])]
      exact withdrawClaim_comp
  have hu : (cancelTests s).comp.unit = .starting := by rw [h1.1]; exact h
  have h2 : stopTests (cancelTests s) = cancelTests s := by
    unfold stopTests
    rw [hu]; simp [hm]
  unfold sequencerReact
  rw [h2]
  unfold claimTest
  rw [if_neg (by rw [startWanted_iff]; intro hd; have := hd.2.1; rw [hu] at this; cases this), h1.1]

/-- A RUNNING unit stops exactly when R96 asks for it. -/
theorem sequencerReact_running (h : s.comp.unit = .running) :
    (stopDue s → (sequencerReact s).comp.unit = .stopping ∧ (sequencerReact s).comp.command = .stop
        ∧ (sequencerReact s).comp.stopTimer = 0)
      ∧ (¬ stopDue s → (sequencerReact s).comp.unit = .running
          ∧ (sequencerReact s).comp.stopTimer = s.comp.stopTimer)
      ∧ (sequencerReact s).comp.cedePending = s.comp.cedePending := by
  have h1 : (cancelTests s).comp = { s.comp with claimInFlight := (cancelTests s).comp.claimInFlight } := by
    unfold cancelTests
    split
    · rfl
    · rw [if_neg (by simp [h])]
      exact withdrawClaim_comp
  have hu : (cancelTests s).comp.unit = .running := by rw [h1]; exact h
  have hd : stopDue (cancelTests s) ↔ stopDue s := by
    unfold stopDue State.cfg
    rw [h1]; simp
  have h2 : stopTests (cancelTests s)
      = if (cancelTests s).stopCalled then (cancelTests s).onComp (·.toStopping) else cancelTests s := by
    unfold stopTests; rw [hu]
  have h3 : sequencerReact s = stopTests (cancelTests s) := by
    unfold sequencerReact claimTest
    rw [if_neg]
    rw [startWanted_iff]
    intro hh
    have hx := hh.2.1
    rw [h2] at hx
    split at hx <;> simp [Compressor.toStopping, Compressor.setUnit, hu] at hx
  rw [h3, h2]
  refine ⟨fun x => ?_, fun x => ?_, ?_⟩
  · rw [if_pos ((stopCalled_iff _).2 (hd.2 x))]
    simp [Compressor.toStopping, Compressor.setUnit, commandOf]
  · rw [if_neg (by rw [stopCalled_iff, hd]; exact x), h1]
    exact ⟨h, rfl⟩
  · have hp : (cancelTests s).comp.cedePending = s.comp.cedePending := by rw [h1]
    split
    · rw [← hp]; rfl
    · exact hp

end Sys2Proof.Machine
end

