-- ==== Sys2Proof/Laws/Memory.lean ====
section
/-! SUPPORT. The external memory: a read after a write, and the canonical form that every memory operation keeps. -/

namespace Sys2Proof.Machine

open Sys2Proof (Byte)

/-- The addresses above `a` read blank where every listed one lies at `a` or below it, or is listed above. -/
theorem Memory.read_of_lt (m : List Host.Cell) (a : Nat) (h : ∀ c ∈ m, a < c.1) : Memory.read m a = blankByte := by
  induction m with
  | nil => rfl
  | cons c rest ih =>
    have h1 := h c (by simp)
    rw [Memory.read, if_neg (by omega)]
    exact ih fun x hx => h x (by simp [hx])

/-- A write leaves every other byte (R170). -/
theorem Memory.read_write_of_ne (m : List Host.Cell) (a b : Nat) (v : Byte) (h : a ≠ b) :
    Memory.read (Memory.write m a v) b = Memory.read m b := by
  induction m with
  | nil => unfold Memory.write; split <;> simp [Memory.read, h]
  | cons c rest ih =>
    unfold Memory.write
    split
    · split
      · rfl
      · rw [Memory.read, if_neg h]
    · split
      · rename_i hc
        split
        · rw [Memory.read, if_neg (by omega)]
        · rw [Memory.read, if_neg h, Memory.read, if_neg (by omega)]
      · rw [Memory.read, Memory.read, ih]

/-- What was written is read back (R170). -/
theorem Memory.read_write_self (m : List Host.Cell) (a : Nat) (v : Byte) (h : Memory.wf m) :
    Memory.read (Memory.write m a v) a = v := by
  induction m with
  | nil =>
    unfold Memory.write
    split
    · rename_i hv; simp [Memory.read, hv]
    · simp [Memory.read]
  | cons c rest ih =>
    have hlt := (List.pairwise_cons.mp h.1).1
    have hrest : Memory.wf rest := ⟨(List.pairwise_cons.mp h.1).2, fun x hx => h.2 x (by simp [hx])⟩
    unfold Memory.write
    split
    · rename_i hac
      split
      · rename_i hv
        rw [hv]
        exact Memory.read_of_lt _ _ (by
          intro x hx
          rcases List.mem_cons.mp hx with rfl | hx
          · exact hac
          · exact hac.trans (hlt x hx))
      · simp [Memory.read]
    · split
      · rename_i hac
        split
        · rename_i hv
          rw [hv]
          exact Memory.read_of_lt _ _ (fun x hx => by have := hlt x hx; omega)
        · simp [Memory.read]
      · rename_i h1 h2
        rw [Memory.read, if_neg (by omega), ih hrest]

/-- The addresses that a write leaves listed. -/
theorem Memory.mem_write (m : List Host.Cell) (a : Nat) (v : Byte) (c : Host.Cell) (h : c ∈ Memory.write m a v) :
    c ∈ m ∨ (c = (a, v) ∧ v ≠ blankByte) := by
  induction m with
  | nil =>
    unfold Memory.write at h
    split at h
    · simp at h
    · rename_i hv; simp at h; exact .inr ⟨h, hv⟩
  | cons x rest ih =>
    unfold Memory.write at h
    split at h
    · split at h
      · exact .inl h
      · rename_i hv
        rcases List.mem_cons.mp h with rfl | h
        · exact .inr ⟨rfl, hv⟩
        · exact .inl h
    · split at h
      · split at h
        · exact .inl (by simp [h])
        · rename_i hv
          rcases List.mem_cons.mp h with rfl | h
          · exact .inr ⟨rfl, hv⟩
          · exact .inl (by simp [h])
      · rcases List.mem_cons.mp h with rfl | h
        · exact .inl (by simp)
        · rcases ih h with h | h
          · exact .inl (by simp [h])
          · exact .inr h

/-- A write keeps the canonical form. -/
theorem Memory.write_wf (m : List Host.Cell) (a : Nat) (v : Byte) (h : Memory.wf m) : Memory.wf (Memory.write m a v) := by
  induction m with
  | nil =>
    unfold Memory.write
    split
    · exact h
    · rename_i hv; exact ⟨by simp, by simpa using hv⟩
  | cons x rest ih =>
    have hlt := (List.pairwise_cons.mp h.1).1
    have hrest : Memory.wf rest := ⟨(List.pairwise_cons.mp h.1).2, fun y hy => h.2 y (by simp [hy])⟩
    unfold Memory.write
    split
    · rename_i hax
      split
      · exact h
      · rename_i hv
        refine ⟨List.pairwise_cons.mpr ⟨?_, h.1⟩, ?_⟩
        · intro y hy
          rcases List.mem_cons.mp hy with rfl | hy
          · exact hax
          · exact hax.trans (hlt y hy)
        · intro y hy
          rcases List.mem_cons.mp hy with rfl | hy
          · exact hv
          · exact h.2 y hy
    · split
      · rename_i hax
        split
        · exact hrest
        · rename_i hv
          refine ⟨List.pairwise_cons.mpr ⟨fun y hy => ?_, hrest.1⟩, ?_⟩
          · have := hlt y hy; simp only at *; omega
          · intro y hy
            rcases List.mem_cons.mp hy with rfl | hy
            · exact hv
            · exact hrest.2 y hy
      · rename_i h1 h2
        have hw := ih hrest
        refine ⟨List.pairwise_cons.mpr ⟨fun y hy => ?_, hw.1⟩, ?_⟩
        · rcases Memory.mem_write _ _ _ _ hy with hy | ⟨rfl, _⟩
          · exact hlt y hy
          · simp only at *; omega
        · intro y hy
          rcases List.mem_cons.mp hy with rfl | hy
          · exact h.2 _ (by simp)
          · exact hw.2 y hy

/-- A run of bytes written keeps the canonical form. -/
theorem Memory.writeBytes_wf (bs : List Byte) (m : List Host.Cell) (a : Nat) (h : Memory.wf m) :
    Memory.wf (Memory.writeBytes m a bs) := by
  induction bs generalizing m a with
  | nil => exact h
  | cons v rest ih => exact ih _ _ (Memory.write_wf m a v h)

/-- A run of bytes written leaves every byte outside it. -/
theorem Memory.read_writeBytes_outside (bs : List Byte) (m : List Host.Cell) (a b : Nat)
    (h : b < a ∨ a + bs.length ≤ b) : Memory.read (Memory.writeBytes m a bs) b = Memory.read m b := by
  induction bs generalizing m a with
  | nil => rfl
  | cons v rest ih =>
    rw [Memory.writeBytes, ih _ _ (by simp at h; omega), Memory.read_write_of_ne _ _ _ _ (by simp at h; omega)]

/-- A run of bytes written is read back, byte by byte. -/
theorem Memory.read_writeBytes (bs : List Byte) (m : List Host.Cell) (a i : Nat) (h : Memory.wf m) (hi : i < bs.length) :
    Memory.read (Memory.writeBytes m a bs) (a + i) = bs[i] := by
  induction bs generalizing m a i with
  | nil => simp at hi
  | cons v rest ih =>
    rw [Memory.writeBytes]
    cases i with
    | zero =>
      rw [Nat.add_zero, Memory.read_writeBytes_outside _ _ _ _ (.inl (by omega))]
      exact Memory.read_write_self m a v h
    | succ n =>
      rw [show a + (n + 1) = a + 1 + n by omega, ih _ _ _ (Memory.write_wf m a v h) (by simpa using hi)]
      rfl

/-- A run of bytes written is read back as it was. -/
theorem Memory.readBytes_writeBytes (bs : List Byte) (m : List Host.Cell) (a : Nat) (h : Memory.wf m) :
    Memory.readBytes (Memory.writeBytes m a bs) a bs.length = bs := by
  apply List.ext_getElem
  · simp [Memory.readBytes]
  · intro i h1 h2
    simp [Memory.readBytes, Memory.read_writeBytes bs m a i h h2]

/-- A run of bytes written leaves every run that does not meet it. -/
theorem Memory.readBytes_writeBytes_outside (bs : List Byte) (m : List Host.Cell) (a b n : Nat)
    (h : b + n ≤ a ∨ a + bs.length ≤ b) :
    Memory.readBytes (Memory.writeBytes m a bs) b n = Memory.readBytes m b n := by
  unfold Memory.readBytes
  refine List.map_congr_left fun i hi => ?_
  have : i < n := by simpa using hi
  exact Memory.read_writeBytes_outside _ _ _ _ (by omega)

/-! ### The operations of the memory port -/

@[simp] theorem ExternalMemory.markUnfinished_cells (e : ExternalMemory) (slot : Nat) :
    (e.markUnfinished slot).cells = e.cells := rfl

theorem ExternalMemory.mem_markUnfinished (e : ExternalMemory) (slot n : Nat) :
    n ∈ (e.markUnfinished slot).unfinished ↔ n = slot ∨ n ∈ e.unfinished := by
  unfold markUnfinished
  by_cases h : slot ∈ e.unfinished
  · simp only [List.contains_iff_mem, h, if_true]
    exact ⟨.inr, fun hn => hn.elim (fun e' => e' ▸ h) id⟩
  · simp [h]

/-- A slot whose write is unfinished reads as invalid (R166). -/
theorem readSlot_markUnfinished_self (l : List Nat) (e : ExternalMemory) (n : Nat) :
    readSlot l (e.markUnfinished n) n = none := by
  have h : (e.markUnfinished n).unfinished.contains n = true := by
    simp [e.mem_markUnfinished]
  unfold readSlot
  rw [h, Bool.or_true, if_pos rfl]

/-- Every other slot reads as before (R166). -/
theorem readSlot_markUnfinished_other (l : List Nat) (e : ExternalMemory) (n slot : Nat) (hn : n ≠ slot) :
    readSlot l (e.markUnfinished slot) n = readSlot l e n := by
  have h : (e.markUnfinished slot).unfinished.contains n = e.unfinished.contains n := by
    rw [Bool.eq_iff_iff]
    simp [e.mem_markUnfinished, hn]
  unfold readSlot
  rw [h]
  rfl

/-- The start of a write leaves every byte as it is. -/
@[simp] theorem beginWrite_cells (s : State) : (beginWrite s).ext.cells = s.ext.cells := by
  unfold beginWrite
  split <;> rfl

@[simp] theorem beginWrite_port (s : State) : (beginWrite s).port = s.port := by
  unfold beginWrite
  split <;> rfl

/-- The start of a write changes the external memory's marks alone. -/
theorem beginWrite_eq (s : State) : beginWrite s = { s with ext := (beginWrite s).ext } := by
  unfold beginWrite
  split <;> rfl

@[simp] theorem takeCheckpoint_cells (s : State) : (takeCheckpoint s).ext.cells = s.ext.cells := by
  unfold takeCheckpoint
  dsimp only
  split <;> simp [State.onPort]

/-- A spoiled slot keeps the canonical form (R166). -/
theorem ExternalMemory.spoil_wf (e : ExternalMemory) (slot : Nat) (bs : List Byte) (h : Memory.wf e.cells) :
    Memory.wf (e.spoil slot bs).cells := Memory.writeBytes_wf bs e.cells _ h

/-- An abandoned write keeps the canonical form (R166). -/
theorem abandonWrite_wf (s : State) (h : Memory.wf s.ext.cells) : Memory.wf (abandonWrite s).ext.cells :=
  ExternalMemory.spoil_wf s.ext _ _ h

/-- A completed write keeps the canonical form (R166). -/
theorem completeWrite_wf (s : State) (h : Memory.wf s.ext.cells) : Memory.wf (completeWrite s).ext.cells := by
  unfold completeWrite
  split
  · exact h
  · rw [beginWrite_cells]
    exact Memory.writeBytes_wf _ s.ext.cells _ h

/-! ### Sealed blocks (R170) -/

/-- A number takes as many bytes as it is given. -/
@[simp] theorem length_natBytes (n v : Nat) : (natBytes n v).length = n := by
  induction n generalizing v with
  | zero => rfl
  | succ n ih => simp [natBytes, ih]

/-- A number's bytes spell the number, up to their width (13_formats.md). -/
theorem bytesNat_natBytes (n v : Nat) : bytesNat (natBytes n v) = v % 256 ^ n := by
  induction n generalizing v with
  | zero => simp [natBytes, bytesNat, Nat.mod_one]
  | succ n ih =>
    have ih' := ih (v / 256)
    simp only [bytesNat] at ih'
    simp only [natBytes, bytesNat, List.foldl_append, List.foldl_cons, List.foldl_nil, ih', BitVec.toNat_ofNat]
    have h : v % 256 ^ (n + 1) = v % 256 + 256 * (v / 256 % 256 ^ n) := by
      rw [Nat.pow_add_one', Nat.mod_mul]
    omega

/-- A check register stays in its width. -/
theorem crcBit_lt (w p reg : Nat) (b : Bool) (hp : p < 2 ^ w) : crcBit w p reg b < 2 ^ w := by
  have hs : reg * 2 % 2 ^ w < 2 ^ w := Nat.mod_lt _ (Nat.two_pow_pos w)
  unfold crcBit
  dsimp only
  split
  · exact hs
  · exact Nat.xor_lt_two_pow hs hp

/-- A check register stays in its width over bits. -/
theorem foldl_crcBit_lt (w p : Nat) (l : List Bool) (hp : p < 2 ^ w) (reg : Nat) (h : reg < 2 ^ w) :
    l.foldl (crcBit w p) reg < 2 ^ w := by
  induction l generalizing reg with
  | nil => exact h
  | cons b rest ih => exact ih _ (crcBit_lt w p reg b hp)

/-- A check is as wide as its register (R168, R170). -/
theorem crc_lt (w p : Nat) (bs : List Byte) (hp : p < 2 ^ w) : crc w p bs < 2 ^ w := by
  unfold crc
  generalize hr : 2 ^ w - 1 = reg
  have h : reg < 2 ^ w := by have := Nat.two_pow_pos w; omega
  clear hr
  induction bs generalizing reg with
  | nil => exact h
  | cons b rest ih => exact ih _ (foldl_crcBit_lt w p _ hp reg h)

/-- A sealed block reads as good (R170). -/
theorem sealedGood_sealed32 (bs : List Byte) : sealedGood (sealed32 bs) = true := by
  have h : check32 bs < 2 ^ 32 := crc_lt 32 _ bs (by decide)
  simp [sealedGood, sealed32, bytesNat_natBytes]
  omega

/-- Closing a block adds its four check bytes. -/
@[simp] theorem length_sealed32 (bs : List Byte) : (sealed32 bs).length = bs.length + 4 := by simp [sealed32]

/-- A memory that holds a good configuration block reads as that block (R163, R170). -/
theorem readImage_of_block (e : ExternalMemory) (m : Image)
    (h : Memory.readBytes e.cells 0 blockBytes = imageBytes m) (hd : codecImage.dec (imageBytes m) = m)
    (hg : m.good = true) : readImage false e = some m := by
  have hs : sealedGood (imageBytes m) = true := sealedGood_sealed32 _
  simp [readImage, h, hs, hd, hg]

/-- A slot that holds a checkpoint reads as that checkpoint (R164, R170). -/
theorem readSlot_of_bytes (l : List Nat) (e : ExternalMemory) (n seq : Nat) (c : Checkpoint) (hn : l.contains n = false)
    (hu : e.unfinished.contains n = false)
    (h : Memory.readBytes e.cells (slotAddress n) slotBytes = checkpointBytes seq c)
    (hq : bytesNat ((checkpointBytes seq c).take 4) = seq)
    (hd : codecCheckpoint.dec ((checkpointBytes seq c).drop 4) = c) : readSlot l e n = some (seq, c) := by
  have hs : sealedGood (checkpointBytes seq c) = true := sealedGood_sealed32 _
  simp only [readSlot, hn, hu, h, hs, hq, hd]
  simp

end Sys2Proof.Machine
end

