-- ==== Sys2Proof/Laws/Formats.lean ====
section
/-! SUPPORT. The layouts of R170 have fixed lengths: what a codec writes fills its field, and a checkpoint its slot. -/

namespace Sys2Proof.Machine

open Sys2Proof (Byte)

/-- A codec writes exactly its field's bytes. -/
def Codec.fills {α : Type} (c : Codec α) : Prop := ∀ x, (c.enc x).length = c.size

@[simp] theorem length_encNat (n v : Nat) : (encNat n v).length = n := length_natBytes _ _

@[simp] theorem length_encInt (n : Nat) (v : Int) : (encInt n v).length = n := length_natBytes _ _

@[simp] theorem length_fitBytes (n : Nat) (bs : List Byte) : (fitBytes n bs).length = n := by simp [fitBytes]

/-- A list that has its length is written as it is. -/
theorem fitBytes_of_length (bs : List Byte) : fitBytes bs.length bs = bs := by simp [fitBytes]

theorem codecNat_fills (n : Nat) : (codecNat n).fills := fun _ => length_encNat _ _

theorem codecInt_fills (n : Nat) : (codecInt n).fills := fun _ => length_encInt _ _

theorem codecFlag_fills (tag : Nat) : (codecFlag tag).fills := fun _ => length_natBytes _ _

theorem codecList_fills {α : Type} (n : Nat) (c : Codec α) : (codecList n c).fills := fun _ => length_fitBytes _ _

theorem codecPair_fills {α β : Type} {c : Codec α} {d : Codec β} (hc : c.fills) (hd : d.fills) : (codecPair c d).fills := by
  intro x
  simp [codecPair, hc x.1, hd x.2]

theorem codecAs_fills {α β : Type} {c : Codec α} (put : β → α) (get : α → β) (h : c.fills) : (codecAs c put get).fills :=
  fun x => h (put x)

theorem codecCheckpoint_fills : codecCheckpoint.fills := by
  unfold codecCheckpoint codecBed codecHistory codecSuspense codecBaseline
  repeat' first
    | exact codecNat_fills _
    | exact codecInt_fills _
    | exact codecFlag_fills _
    | exact codecList_fills _ _
    | apply codecPair_fills
    | apply codecAs_fills

/-- A checkpoint with its sequence number and its check fills its slot, whatever it holds (R170). -/
@[simp] theorem length_checkpointBytes (seq : Nat) (c : Checkpoint) : (checkpointBytes seq c).length = slotBytes := by
  have h : codecCheckpoint.size = 2347 := by decide
  simp [checkpointBytes, codecCheckpoint_fills c, h, slotBytes]

end Sys2Proof.Machine
end

