-- ==== Sys2Proof/Tests/Slice0.lean ====
section
/-! SUPPORT. The model's own tests: a smoke test of WellFormed, telegrams written out byte by byte, worked situations of
the manual, one small step for the commands, and for each statement with hypotheses a state that meets them. Expected
values come from the manual's text or from a hand calculation, never from the model. -/

namespace Sys2Proof.Tests

open Sys2Proof Sys2Proof.Machine

set_option Elab.async false

/-! ### A small site -/

/-- Figures in their ranges: six trains, time source 21, scheduling station 22, console 20, three configured slots. -/
def figures : Image :=
  { expectedCount := 6, expectedAll := [1, 2, 3, 4, 5, 6] ++ List.replicate 18 0, timeSource := 21, scheduling := 22
    consoleCount := 1, consolesAll := [20, 0], leadTime := 2, stationMax := 600000, rampRate := 100000
    dwellMinutes := 10, qmax := 400, defaultCv := 110000, rounding := 0, pMin := 8000, pMax := 20000, taper := 2000
    dpMax := 300
    capacity := [(1100, 900000), (1500, 820000), (2000, 640000), (2500, 450000), (3000, 300000), (3500, 150000)]
    margin := 100, band := 50, minRun := 10, minStop := 10, autoRestart := 1
    dryer := { capacity := 1500000, switchLevel := 800, breakthrough := 950, heatTarget := 2400, coolTarget := 400
               heatExpected := 300, coolExpected := 120, heatMaximum := 360, coolMaximum := 180, dewHigh := -80
               hysteresis := 1, hysteresisD := 7
               waterTable := [(-100, 120), (0, 240), (100, 420), (200, 640), (300, 860), (400, 1100), (500, 1800),
                 (600, 2900)] }
    shippers := [{ code := 101, space := 100000, ib := 1000, wb := 1000, injectTable := 0, withdrawTable := 1 },
      { code := 102, space := 100000, ib := 1000, wb := 1000, injectTable := 0, withdrawTable := 1 },
      { code := 103, space := 100000, ib := 500000, wb := 500000, injectTable := 0, withdrawTable := 1 }]
      ++ List.replicate 13 {}
    ratchets := [{ count := 4, places := [(0, 1000), (800, 1000), (950, 500), (1000, 200)] ++ List.replicate 4 (0, 0) },
      { count := 4, places := [(0, 300), (200, 600), (500, 1000), (1000, 1000)] ++ List.replicate 4 (0, 0) }]
      ++ List.replicate 6 {}
    escalation := 4294967295 }

/-- A part at station 1, IDLE, its link ACTIVE, its clock at day 812, second 50,000 (20 s into a minute). -/
def site : State :=
  { straps := 1, station := 1
    clock := { day := 812, second := 50000, synced := true }
    train := { mode := .idle, listenDone := true, joinTime := some 70197800, lastFlow := some .withdraw }
    comp := { unit := .stopped, awaiting := false, stopTimer := 600 }
    peers := freshPeers [2, 3, 4, 5, 6]
    intake := { handed := { mode := .idle } }
    link := { state := .active }
    port := { image := some figures } }

/-- `site` with another train, sequencer, dryer, link, intake or clock. -/
def withTrain (t : Train) : State := { site with train := t, intake := { site.intake with handed := { mode := t.mode } } }
def withComp (c : Compressor) : State := { site with comp := c }
def withBeds (a b : BedState) : State := { site with dryer := { bedA := { state := a }, bedB := { state := b } } }
def withLink (l : Link) : State := { site with link := l }
def withIntake (i : Intake) : State := { site with intake := i }
def withClock (c : Clock) : State := { site with clock := c }

/-- `site` in another mode. -/
def inMode (m : Mode) : State := withTrain { site.train with mode := m }

/-- A part that has not left CONFIG. -/
def atConfig : State := inMode .config

/-- What a step answers, when it answers a next state with a property. -/
def next (c : Instr) (s : State) (p : State → Bool) : Bool :=
  match exec c s with
  | .next t => p t
  | .fault _ => false
  | .refused _ => false

/-- An entry that waits, and one on the line. -/
def waitingClaim : Entry := { telegram := .claim, owner := .sequencer, ticket := 1 }
def sentClaim : Entry := { telegram := .claim, owner := .sequencer, onLine := true, ticket := 2 }

/-! ### WellFormed refuses an ill-formed term for each check -/

theorem test_wf_station : (Instr.claim 0 0).wellFormed = false ∧ (Instr.claim 32 0).wellFormed = false
    ∧ (Instr.claim 31 0).wellFormed = true := by decide
theorem test_wf_destination : (Instr.join 1 256).wellFormed = false ∧ (Instr.resume 1 255).wellFormed = true := by decide
theorem test_wf_straps : (Instr.powerOnReset 32 false []).wellFormed = false
    ∧ (Instr.powerOnReset 1 false [24]).wellFormed = false ∧ (Instr.lineReset 32).wellFormed = false := by decide
theorem test_wf_time : (Instr.time 1 0 65536 0).wellFormed = false
    ∧ (Instr.time 1 0 0 4294967296).wellFormed = false := by decide
theorem test_wf_noms : (Instr.noms 1 0 1 0 0 2147483648).wellFormed = false
    ∧ (Instr.noms 1 0 256 0 0 0).wellFormed = false ∧ (Instr.noms 1 0 1 0 256 0).wellFormed = false
    ∧ (Instr.noms 1 0 1 0 0 (-2147483648)).wellFormed = true := by decide
theorem test_wf_offer : (Instr.offer 1 0 256 0 0 0 0 0).wellFormed = false
    ∧ (Instr.offer 1 0 0 4294967296 0 0 0 0).wellFormed = false
    ∧ (Instr.offer 1 0 0 0 4294967296 0 0 0).wellFormed = false
    ∧ (Instr.offer 1 0 0 0 0 1099511627776 0 0).wellFormed = false
    ∧ (Instr.offer 1 0 0 0 0 0 256 0).wellFormed = false
    ∧ (Instr.offer 1 0 0 0 0 0 0 256).wellFormed = false := by decide
theorem test_wf_invt : (Instr.invt 1 0 1 0 0 [0]).wellFormed = false
    ∧ (Instr.invt 1 0 1 0 0 [140737488355328, 0, 0, 0, 0, 0, 0, 0]).wellFormed = false
    ∧ (Instr.invt 1 0 1 0 0 (List.replicate 8 (-1))).wellFormed = true := by decide
theorem test_wf_halt : (Instr.halt 1 0 256).wellFormed = false ∧ (Instr.dupStation 256).wellFormed = false
    ∧ (Instr.unknownKind 1 0 256).wellFormed = false := by decide
theorem test_wf_order : (Instr.orderShut 1 0 256 0).wellFormed = false
    ∧ (Instr.orderShut 1 0 0 4294967296).wellFormed = false
    ∧ (Instr.orderUnknownCommand 1 0 9 0 0).wellFormed = false
    ∧ (Instr.orderUnknownCommand 1 0 256 0 0).wellFormed = false
    ∧ (Instr.orderUnknownCommand 1 0 10 0 0).wellFormed = true := by decide

/-- A SAMPLE whose fields are all VOID. -/
def voidSample : Sample :=
  { sequence := 5, totalizerReset := false, meter := none, cv := none, wellhead := none, wellheadTemp := none
    header := none, feedback := none, suction := none, discharge := none, compFuel := none, heaterFuel := none
    inletPressure := none, inletTemp := none, bedATemp := none, bedBTemp := none, dewPoint := none, lineup := none }

theorem test_wf_sample : (Instr.sample (some { voidSample with sequence := 256 })).wellFormed = false
    ∧ (Instr.sample (some { voidSample with meter := some 4294967296 })).wellFormed = false
    ∧ (Instr.sample (some { voidSample with dewPoint := some 32768 })).wellFormed = false
    ∧ (Instr.sample (some voidSample)).wellFormed = true := by decide

/-! ### Formats written out from 13_formats.md -/

/-- The bytes of numbers below 256. -/
def bytes (l : List Nat) : List Byte := l.map (BitVec.ofNat 8)

/-- The generators of R168 and R170 on the digits 1 to 9: the published check values of the two CRCs. -/
theorem test_check16 : check16 (bytes [49, 50, 51, 52, 53, 54, 55, 56, 57]) = 0x29B1 := by decide +kernel
theorem test_check32 : check32 (bytes [49, 50, 51, 52, 53, 54, 55, 56, 57]) = 0x0376E6E7 := by decide +kernel

/-- Class 1 from station 21 is 00110101; kind 1, to all, 6 bytes; day 812 is 3, 44; second 50,000 is 0, 0, 195, 80. -/
theorem test_decode_time : decodeTelegram (bytes [53, 1, 0, 6, 3, 44, 0, 0, 195, 80, 144, 89])
    = .time 21 0 812 50000 := by decide +kernel
/-- A rate of −200,000 is 255, 252, 242, 192 in two's complement. -/
theorem test_decode_noms : decodeTelegram (bytes [54, 2, 0, 8, 3, 3, 44, 14, 255, 252, 242, 192, 207, 176])
    = .noms 22 0 3 812 14 (-200000) := by decide +kernel
theorem test_decode_offer : decodeTelegram
    (bytes [39, 3, 0, 16, 1, 0, 9, 39, 192, 0, 7, 129, 27, 0, 0, 16, 5, 144, 3, 0, 90, 172])
    = .offer 7 0 1 600000 491803 1050000 3 0 := by decide +kernel
theorem test_decode_invt : decodeTelegram (bytes ([71, 10, 0, 52, 2, 3, 44, 13, 0, 0, 0, 0, 0, 5, 255, 255, 255, 255,
    255, 255] ++ List.replicate 36 0 ++ [56, 211]))
    = .invt 7 0 2 812 13 [5, -1, 0, 0, 0, 0, 0, 0] := by decide +kernel
/-- CORRECT (7) for WITHDRAW (2) with 2,350 litres (9, 46), to station 1. -/
theorem test_decode_order : decodeTelegram (bytes [52, 5, 1, 6, 7, 2, 0, 0, 9, 46, 131, 91])
    = .orderCorrect 20 1 2 2350 := by decide +kernel
theorem test_decode_empty : decodeTelegram (bytes [7, 6, 0, 0, 103, 77]) = .claim 7 0
    ∧ decodeTelegram (bytes [7, 7, 0, 0, 80, 125]) = .cede 7 0
    ∧ decodeTelegram (bytes [29, 9, 0, 0, 56, 112]) = .resume 29 0
    ∧ decodeTelegram (bytes [39, 4, 0, 0, 62, 99]) = .join 7 0 := by decide +kernel
theorem test_decode_halt : decodeTelegram (bytes [29, 8, 0, 1, 2, 162, 156]) = .halt 29 0 2 := by decide +kernel
/-- A REPORT of any length; an unknown kind; a JOIN of a wrong length; a check that fails. -/
theorem test_decode_others : decodeTelegram (bytes [103, 11, 0, 1, 1, 82, 11]) = .report 7 0
    ∧ decodeTelegram (bytes [39, 12, 0, 0, 151, 194]) = .unknownKind 7 0 12
    ∧ decodeTelegram (bytes [39, 4, 0, 1, 0, 135, 172]) = .unknownKind 7 0 4
    ∧ decodeTelegram (bytes [39, 4, 0, 0, 62, 98]) = .receiveError := by decide +kernel

/-- Five equal bits take a stuff bit, which starts the next run; six are a failed check (R144). -/
theorem test_stuffing : stuff [true, true, true, true, true, true] = [true, true, true, true, true, false, true]
    ∧ stuff [false, false, false, false, false, true, true, true, true, false]
        = [false, false, false, false, false, true, true, true, true, true, false, false]
    ∧ unstuff [true, true, true, true, true, true] = none := by decide

/-- The CLAIM of station 4 begins 0, 0000100, 00000110, 00000000. The span begins at the arbitration value's first bit
(R144, R168), so its first four zeros take no stuff bit; the five zeros across bytes 0 and 1 and the five across bytes 1
and 2 do. -/
theorem test_line_of_claim : lineOf (bytes [4, 6, 0]) =
      [false, false, false, false, false, true, false, false, false, false, false, true, false, false, true, true, false,
       false, false, false, false, true, false, false, false, false]
    ∧ unline (lineOf (bytes [4, 6, 0])) = some (byteBits (bytes [4, 6, 0])) := by decide

/-- The lower arbitration value wins: the CLAIM of station 2 against that of station 4 (R144). -/
theorem test_arbitration : arbitrationWinner [arbitrationValue 0 4, arbitrationValue 0 2] = some 2 := by decide

/-- The sizes of R168 to R170. -/
theorem test_sizes : codecImage.size = 760 ∧ codecCheckpoint.size = 2347 ∧ slotAddress 1 = 3584
    ∧ (setpointBytes {}).length = 14 ∧ (encodeSample voidSample).length = 46 := by decide +kernel

/-- Packed fields run on from the most significant bit: 101 01001 1111 (R168). -/
theorem test_packed : packed [(3, 5), (5, 9), (4, 15)] = 2719 := by decide

/-- No row of the table has bits, so no word spells a command (assumption 9). -/
theorem test_no_words : decodeTableWord 32 7 = none ∧ site.withFetchWord 32 7 = site := ⟨rfl, rfl⟩

/-! ### Worked situations -/

/-- Ratchets (02): fill fraction 175 gives 562, and 826 gives 914. -/
theorem test_ratchet : fillFraction 350000000 2000000000 = 175
    ∧ ratchetFactor [(0, 300), (200, 600), (500, 1000), (1000, 1000)] 175 = 562
    ∧ fillFraction 2480000000 3000000000 = 826
    ∧ ratchetFactor [(0, 1000), (800, 1000), (950, 500), (1000, 200)] 826 = 914
    ∧ ratchetFactor [(0, 1000), (800, 1000), (950, 500), (1000, 200)] 996 = 224 := by decide

/-- The energy stage in both modes (03). -/
theorem test_energy : energyStage false 1234567 112345 6000000 = (13870, 3429615)
    ∧ energyStage true 1234567 112345 (-2000000) = (13870, -4570385)
    ∧ energyStage false 1234567 112345 (-2000000) = (13869, 5429615) := by decide

/-- Dividing 13,870 kWh (03): 6,684 to slot 2, 4,178 to slot 5, 3,008 to slot 9. -/
theorem test_apportion : apportion 13870 [0, 0, 400000, 0, 0, 250000, 0, 0, 0, 180000, 0, 0, 0, 0, 0, 0, 0]
    = [0, 0, 6684, 0, 0, 4178, 0, 0, 0, 3008, 0, 0, 0, 0, 0, 0, 0] := by decide

/-- A withdrawal against thin inventories (03): 8,000, 1,200, and 800 for slot 0. -/
theorem test_caps : (finalShares .withdraw [0, 0, 0, 8000, 0, 0, 0, 1200, 0, 0, 0, 0, 0, 0, 0, 0, 0]
    [0, 0, 0, 300000, 0, 0, 0, 100000, 0, 0, 0, 0, 0, 0, 0, 0, 0] 10000).1
    = [800, 0, 0, 8000, 0, 0, 0, 1200, 0, 0, 0, 0, 0, 0, 0, 0, 0] := by decide

/-- Charging a regeneration (03): slot 7 bears 1,000 of its 1,628, and slot 0 takes the rest. -/
theorem test_regeneration :
    let slots : List Slot := [0, 0, 0, 500000, 0, 0, 0, 1000, 0, 0, 0, 0, 0, 0, 0, 0, 0].map (fun n => { inventory := n })
    let charges := apportion 4351 [800, 0, 0, 250000, 0, 0, 0, 150000, 0, 0, 0, 0, 0, 0, 0, 0, 0]
    let after := deductCharges .regeneration slots charges
    (after.getD 0 {}).inventory = -637 ∧ (after.getD 3 {}).inventory = 497286 ∧ (after.getD 7 {}).inventory = 0
      ∧ (after.getD 0 {}).totals.shortfall = 628 ∧ (after.getD 7 {}).totals.regenFuel = 1000 := by decide

/-- The stray interval (03, R36): a train that has never flowed books a volume as INJECT with no weight. -/
theorem test_direction : intervalDirection .idle none 5 = some (.inject, true) ∧ intervalDirection .idle none 0 = none
    ∧ intervalDirection .reversing (some .inject) 5 = some (.inject, false) := by decide

/-- A withdrawal offer under falling pressure (05): envelope 450,000 and pressure-rate limit 378,000. -/
theorem test_offer_limits : envelopeLimit figures .withdraw (some 9500) = some 450000
    ∧ pressureRateLimit figures .withdraw { places := 9500 :: 9820 :: List.replicate 59 0, write := 1, count := 61 }
        (-420000) = some 378000 := by decide

/-- Dividing the site target (05): 344,262 of 1,000,000. -/
theorem test_share : shareOf 420000 1220000 1000000 = 344262 ∧ shareOf 420000 620000 1000000 = 420000 := by decide

/-- Reading the capacity table (06). -/
theorem test_capacity : capacityOf figures (some 6000) (some 13200) = 564000
    ∧ capacityOf figures (some 4000) (some 13200) = 210000 ∧ capacityOf figures (some 3700) (some 13200) = 0 := by decide

/-- Loading a bed (07): w = 885, and 1,092 g with a carry of 591,795. -/
theorem test_water : waterContent figures.dryer.waterTable (some 420) (some 14000) = 885
    ∧ waterContent figures.dryer.waterTable none (some 14000) = 2071
    ∧ (addWater 1234567 885 { loading := 641085 }).loading = 642177
    ∧ (addWater 1234567 885 { loading := 641085 }).waterCarry = 591795 := by decide

/-- A bed that must last (07): 432,752 kWh/h, and 0 with reason 4 while the other bed is OUT. -/
theorem test_dryer_limit :
    dryerLimit figures.dryer { bedA := { state := .adsorbing, loading := 1299998 }
                               bedB := { state := .heating, phaseTimer := some 12000 } } 885 112345 = (some 432752, 5)
    ∧ dryerLimit figures.dryer { bedA := { state := .adsorbing, loading := 1299998 }, bedB := { state := .out } }
        885 112345 = (some 0, 4) := by decide

/-- A meter that falters (08): 750 L in 3 s pass, 2,100 L in 1 s do not; and a totalizer that wraps. -/
theorem test_plausible : plausibleLimit 400 1 = 500 ∧ plausibleLimit 400 3 = 1500
    ∧ totalizerDiff 10 4294967290 = 16 := by decide

/-! ### One small step for the commands -/

/-- A memory that does not acknowledge leaves the part in CONFIG, with ALERT cause 1 (R159, R163). -/
theorem test_power_on : next (.powerOnReset 4 true []) State.reset
    (fun t => t.station == 4 && t.train.mode == .config && causePins t == 1) = true := by decide +kernel

/-- A line reset takes a train to LISTEN with its JOIN set up; RESTORE conditions are not raised (R56, R150). -/
theorem test_line_reset : next (.lineReset 1) site
    (fun t => t.train.mode == .listen && t.link.join == .waiting && t.clock.second == 50000) = true := by decide +kernel
/-- A train in SHUT_IN stays there (R55); one off the list goes to CONFIG. -/
theorem test_line_reset_shut : next (.lineReset 1) (inMode .shutIn) (fun t => t.train.mode == .shutIn) = true
    ∧ next (.lineReset 9) site (fun t => t.train.mode == .config) = true := by decide +kernel

theorem test_clock_second : next .clockSecond site (fun t => t.clock.second == 50001 && t.comp.stopTimer == 601) = true := by
  decide +kernel
/-- A second is absorbed (R135): the clock stands, the intake counts. -/
theorem test_clock_held : next .clockSecond (withClock { site.clock with holdBack := 7 })
    (fun t => t.clock.second == 50000 && t.clock.holdBack == 6 && t.intake.fieldTimer == 1 && t.comp.stopTimer == 600)
    = true := by decide +kernel

/-- A TIME 7 s back at 5 s into the minute becomes a hold-back of 7 (09); one 3 s back is stepped. -/
theorem test_time_hold : next (.time 21 0 812 54178) (withClock { day := 812, second := 54185, synced := true })
    (fun t => t.clock.second == 54185 && t.clock.holdBack == 7) = true := by decide +kernel
theorem test_time_back : next (.time 21 0 812 54182) 
    (withClock { day := 812, second := 54185, synced := true, holdBack := 3 })
    (fun t => t.clock.second == 54182 && t.clock.holdBack == 0) = true := by decide +kernel
/-- The large steps of 09: 9,901 agrees with 9,900, and 9,950 begins a new run. -/
theorem test_time_refused :
    next (.time 21 0 812 50711) (withClock { day := 812, second := 40810, synced := true, refused := some (1, 9900) })
      (fun t => t.clock.refused == some (2, 9900) && t.clock.second == 40810) = true
    ∧ next (.time 21 0 812 50765) (withClock { day := 812, second := 40815, synced := true, refused := some (2, 9900) })
      (fun t => t.clock.refused == some (1, 9950)) = true := by decide +kernel

/-- `site` at 08:20:00 with slot 3's pending list of the morning (01). -/
def morning (pending : List (Nat × Int)) : State :=
  { withClock { day := 812, second := 30000, synced := true } with
    nom := { shippers := [{}, {}, { current := -200000, pending := pending }] ++ List.replicate 13 {} } }

/-- Renominations through a morning (01): inserted ahead, replaced when full, refused when full. -/
theorem test_noms : next (.noms 22 0 3 812 10 (-280000)) (morning [(19499, -300000)])
    (fun t => (t.nom.nominee 3).pending == [(19498, -280000), (19499, -300000)]) = true := by decide +kernel
theorem test_noms_full :
    let full : List (Nat × Int) := [(19498, -280000), (19499, -320000), (19501, 0), (19502, 100000)]
    next (.noms 22 0 3 812 13 (-50000)) (morning full)
      (fun t => (t.nom.nominee 3).pending == [(19498, -280000), (19499, -320000), (19501, -50000), (19502, 100000)])
      = true
    ∧ next (.noms 22 0 3 812 12 (-150000)) (morning full)
      (fun t => t.nom == (morning full).nom && t.mon.exceptions.map (·.value) == [6]) = true := by decide +kernel

/-- An OFFER with another site target from a peer raises TARGET_DIVERGE (05, R81). -/
theorem test_offer : next (.offer 2 0 1 600000 491803 1050000 3 0) site
    (fun t => t.peers.divergeMark 2 && t.mon.sticky.getD 19 false) = true := by decide +kernel
theorem test_invt : next (.invt 3 0 2 812 13 [1, 2, 3, 4, 5, 6, 7, 8]) site
    (fun t => t.siteInventory 9 == 1 && t.siteInventory 16 == 8 && t.siteInventory 8 == 0) = true := by decide +kernel

/-- Three trains through the start slot (06). -/
theorem test_claim : next (.claim 3 0) { site with peers := { site.peers with startQueue := [2], headAge := 9 } }
    (fun t => t.peers.startQueue == [2, 3] && t.peers.headAge == 9) = true := by decide +kernel
theorem test_cede : next (.cede 2 0) { withComp { site.comp with unit := .queued, path := .compressed } with
      peers := { site.peers with startQueue := [2, 1, 3], headAge := 44 }
      train := { site.train with mode := .withdraw, lineup := .withdraw, share := 5 } }
    (fun t => t.peers.startQueue == [1, 3] && t.peers.headAge == 0 && t.comp.unit == .starting && t.comp.starts == [0])
    = true := by decide +kernel
theorem test_join : next (.join 3 0) { site with peers := { site.peers with startQueue := [3] } }
    (fun t => t.peers.startQueue == [] && t.link.queue.map (fun e => telegramClass e.telegram) == [1, 2, 2]) = true := by
  decide +kernel

/-- A halt and its release (04). -/
theorem test_halt : next (.halt 29 0 0) (inMode .hold) (fun t => t.train.mode == .shutIn && t.link.haltSet == [29]) = true := by
  decide +kernel
/-- HALT and RESUME under the part's own number are duplicates, in CONFIG as in every mode (R152, R153). -/
theorem test_own_halt : next (.halt 1 0 0) atConfig (fun t => t.link.state == .silent && t.link.haltSet == []) = true
    ∧ next (.resume 1 0) site (fun t => t.link.state == .silent && t.train.mode == .idle) = true := by decide
theorem test_resume : next (.resume 29 0) { inMode .shutIn with link := { site.link with haltSet := [29, 31] } }
    (fun t => t.train.mode == .shutIn && t.link.haltSet == [31]) = true := by decide +kernel

/-- The replies that wait in the queue, by outcome. -/
def outcomes (t : State) : List OrderOutcome := t.link.queue.filterMap (fun e => match e.telegram with
  | .reply r => some r.outcome
  | _ => none)

theorem test_shut : next (.orderShut 20 1 0 0) site (fun t => t.train.mode == .shutIn && outcomes t == [.done]) = true := by
  decide +kernel
theorem test_release : next (.orderRelease 20 1 0 0) (inMode .shutIn)
    (fun t => t.train.mode == .idle && outcomes t == [.done]) = true := by decide +kernel
theorem test_release_halted :
    next (.orderRelease 20 1 0 0) { inMode .shutIn with link := { site.link with haltSet := [29] } }
      (fun t => t.train.mode == .shutIn && outcomes t == [.refusedHalt]) = true := by decide +kernel
theorem test_unlock : next (.orderUnlock 20 1 0 0) (withComp { site.comp with unit := .lockout, trips := [64200, 37500, 0] })
    (fun t => t.comp.unit == .stopped && t.comp.trips == [] && outcomes t == [.done]) = true := by decide +kernel
theorem test_bed_out : next (.orderBedOut 20 1 2 0) (withBeds .adsorbing .standby)
    (fun t => t.dryer.bedB.state == .out && t.dryer.bedB.loading == 1500000 && t.dryer.bedA.state == .adsorbing) = true := by
  decide +kernel
theorem test_bed_in : next (.orderBedIn 20 1 1 0) (withBeds .out .heating)
    (fun t => t.dryer.bedA.state == .out && outcomes t == [.refusedState]) = true := by decide +kernel

/-- A record opened by a reset of the totalizer: its volume is absent (08). -/
def openRecord : Suspense :=
  { openDay := 812, openSecond := 36907, age := 0, span := 2, volume := none, cv := 110000
    snapshot := List.replicate 16 0 }

/-- ACCEPT without a volume is refused; CORRECT makes the record due, without a reply (08). -/
theorem test_accept : next (.orderAccept 20 1 2 0) (withIntake { site.intake with suspWithdraw := some openRecord })
    (fun t => outcomes t == [.refusedNone]) = true := by decide +kernel
theorem test_correct : next (.orderCorrect 20 1 2 2350) (withIntake { site.intake with suspWithdraw := some openRecord })
    (fun t => outcomes t == [] && (t.intake.suspWithdraw.bind (·.due)).map (·.book) == some 2350) = true := by
  decide +kernel

/-- The state of "an escalation that fills the list" (11), whose ORDER CLEAR lets go of ALERT cause 7. -/
theorem test_clear : next (.orderClear 20 1 0 0) { site with mon := { lostCount := 2, summary := List.replicate 31 true } }
    (fun t => t.mon.lostCount == 0 && !(alertAsserted t)) = true := by decide +kernel
theorem test_restart : next (.orderRestart 20 1 0 0) site (fun t => t.link.restartPending && t.train.mode == .idle) = true
    ∧ next (.orderRestart 20 1 0 0) (withLink { state := .fault })
      (fun t => t.train.mode == .listen && t.link.state == .joining) = true := by decide +kernel
theorem test_unknown_order : next (.orderUnknownCommand 20 1 10 0 0) site (fun t => outcomes t == [.refusedArg]) = true := by
  decide +kernel

theorem test_filters : next (.report 2 0) site (fun t => t.link == site.link) = true
    ∧ next (.unknownKind 2 0 40) site (fun t => t.link.discards == 1) = true
    ∧ next .receiveError site (fun t => t.link.receiveErrors == 1) = true
    ∧ next (.claim 9 0) site (fun t => t.link.discards == 1 && t.peers.startQueue == []) = true := by decide +kernel
theorem test_dup : next (.dupStation 3) site (fun t => t.link.state == .silent && causePins t == 4) = true := by
  decide +kernel

/-- The first entry goes onto the line, and comes back when the arbitration is lost (10). -/
theorem test_send : next .sendStart (withLink { state := .active, queue := [waitingClaim] })
    (fun t => t.link.queue.map (·.onLine) == [true]) = true
    ∧ next .arbitrationLost (withLink { state := .active, queue := [sentClaim] })
      (fun t => t.link.queue.map (fun e => (e.onLine, e.mismatches)) == [(false, 0)]) = true := by decide +kernel
/-- The part's own CLAIM comes back: the copy takes it, and a unit that no longer wants a start cedes (R90). -/
theorem test_echo : next .echoIntact (withLink { state := .active, queue := [sentClaim], nextTicket := 3 })
    (fun t => t.peers.startQueue == [1] && t.link.queue.map (·.telegram) == [.cede]) = true := by decide +kernel
/-- A mismatch counts on the entry and among the receive errors (R145, R149); the sixteenth drops the telegram. -/
theorem test_mismatch :
    next .echoMismatch (withLink { state := .active, queue := [{ sentClaim with mismatches := 14 }] })
      (fun t => t.link.queue.map (·.mismatches) == [15] && t.link.receiveErrors == 1) = true
    ∧ next .echoMismatch (withLink { state := .active, queue := [{ sentClaim with mismatches := 15 }] })
      (fun t => t.mon.counters.getD 16 0 == 1 && !(t.link.queue.map (·.telegram)).contains .claim) = true := by
  decide +kernel
/-- The cable of 10: LINE_FAULT with value 2, and the JOIN after an idle second. -/
theorem test_line_held : next .lineHeld site (fun t => t.link.state == .fault && t.mon.exceptions.map (·.value) == [2]) = true
    ∧ next .faultIdleWait (withLink { state := .fault }) (fun t => t.link.join == .waiting) = true := by decide +kernel

/-- Echoes are compared byte for byte (R168): the CLAIM of station 1 back as sent, another telegram under its number
(R152), a copy whose check fails, and another station's telegram; and a part that does not send. -/
theorem test_echo_compared :
    let s := withLink { state := .active, queue := [sentClaim] }
    receivedCommand s (sealed16 (bytes [1, 6, 0, 0])) = .echoIntact
    ∧ receivedCommand s (sealed16 (bytes [1, 7, 0, 0])) = .dupStation 7
    ∧ receivedCommand s (bytes [1, 6, 0, 0, 0, 0]) = .echoMismatch
    ∧ receivedCommand s (bytes [7, 6, 0, 0, 103, 77]) = .echoMismatch
    ∧ receivedCommand site (bytes [7, 6, 0, 0, 103, 77]) = .claim 7 0 := by decide +kernel

/-- A day close under load (01): nothing at an occupancy above 5; else the report of slot 0. -/
theorem test_day_report : next .dayReportQueue { site with acct := { site.acct with cursor := 0, closedDay := some 812 } }
    (fun t => t.acct.outstanding && t.link.queue.map (·.owner) == [.dayCursor]) = true
    ∧ next .dayReportQueue { site with acct := { site.acct with cursor := 0, closedDay := some 812 }
                                       link := { state := .active, queue := List.replicate 6 waitingClaim } }
      (fun t => !t.acct.outstanding && t.link.queue.length == 6) = true := by decide +kernel

/-- `site` withdrawing with a meter baseline of 3,000,000,000 (08). -/
def metered (span : Nat) : State :=
  { inMode .withdraw with intake := { site.intake with meter := { reading := some 3000000000 }, meterSpan := span } }

/-- A meter that falters (08): 750 litres in 3 s are added, with METER_GAP; 2,100 litres in 1 s go to suspense. -/
theorem test_sample : next (.sample (some { voidSample with meter := some 3000000750 })) (metered 3)
    (fun t => t.intake.volume == 750 && t.mon.exceptions.map (fun r => (r.code, r.value)) == [(8, 3)]) = true := by
  decide +kernel
theorem test_sample_implausible : next (.sample (some { voidSample with meter := some 3000002100 })) (metered 1)
    (fun t => t.intake.volume == 0 && t.intake.suspWithdraw.map (fun r => (r.span, r.volume)) == some (1, some 2100)
      && t.mon.exceptions.map (fun r => (r.code, r.value)) == [(9, 2100)]) = true := by decide +kernel

/-- A difference that goes to suspense in the second of the last one has a span of 1 (R126). -/
theorem test_sample_span : next (.sample (some { voidSample with meter := some 3000002100 })) (metered 0)
    (fun t => t.intake.suspWithdraw.map (fun r => (r.span, r.volume)) == some (1, some 2100)) = true := by decide +kernel
/-- A SAMPLE that repeats the latest sequence number changes nothing else (R122), though a running unit is due to stop. -/
theorem test_sample_repeated :
    let s := { withIntake { site.intake with lastSequence := some 5 } with
      comp := { site.comp with unit := .running, command := .run, runTimer := 600 } }
    next (.sample (some voidSample)) s (fun t => t.comp == s.comp && t.link == s.link && t.intake == s.intake) = true := by
  decide +kernel

/-- Three trips in a day (06): STOPPED while RUNNING is a trip; a TRIPPED edge on a third one is LOCKOUT. -/
theorem test_trip : next (.sample (some { voidSample with feedback := some .stopped }))
      (withComp { site.comp with unit := .running, command := .run, trips := [26700], feedback := some .running })
    (fun t => t.comp.unit == .tripped && t.comp.trips == [26700, 0]) = true
    ∧ next (.sample (some { voidSample with feedback := some .tripped }))
      (withComp { site.comp with unit := .starting, trips := [64200, 37500], feedback := some .starting })
    (fun t => t.comp.unit == .lockout && t.comp.cedePending && causePins t == 5) = true := by decide +kernel

/-- With a minimum run time of 0 the RUNNING feedback of a start whose train no longer flows hands RUN, which is sent, and then
STOP, which waits for the end of that send (R88, R96, R132). -/
theorem test_run_handed : next (.sample (some { voidSample with feedback := some .running }))
    { withComp { site.comp with unit := .starting, command := .start, startTimer := some 20 } with
      intake := { site.intake with handed := { mode := .idle, command := .start } }
      port := { site.port with image := some { figures with minRun := 0 } } }
    (fun t => t.comp.unit == .stopping && t.intake.sending.map (·.command) == some .run && t.intake.sendAgain
      && t.intake.handed.command == .stop) = true := by decide +kernel

theorem test_setpoint_done : next .setpointSendDone (withIntake { site.intake with sending := some {}, sendAgain := true })
    (fun t => t.intake.sending == some { mode := .idle } && !t.intake.sendAgain) = true := by decide +kernel
theorem test_field : next .fieldLate (withIntake { site.intake with fieldTimer := 3 })
    (fun t => t.mon.sticky.getD 12 false) = true
    ∧ next .fieldLost (withIntake { site.intake with fieldTimer := 30 })
      (fun t => t.train.mode == .hold && causePins t == 3) = true := by decide +kernel
theorem test_suspense_old :
    next (.suspenseOld .withdraw)
      (withIntake { site.intake with suspWithdraw := some { openRecord with age := 86400 } })
      (fun t => t.mon.exceptions.map (fun r => (r.code, r.value)) == [(12, 2)]) = true := by decide +kernel

/-- LISTEN lasts 120 s from the JOIN while the view is incomplete (R57). -/
theorem test_listen :
    next .listen120sMark (withTrain { site.train with mode := .listen, joinTime := some 70206680 })
      (fun t => t.train.mode == .idle && t.train.listenDone) = true
    ∧ next .listen120sMark (withTrain { site.train with mode := .listen, joinTime := some 70206681 })
      (fun t => t.train.mode == .listen) = true := by decide +kernel

theorem test_start_timeout : next .startTimeout (withComp { site.comp with unit := .starting, startTimer := some 180 })
    (fun t => t.comp.unit == .stopping && t.comp.stopTimer == 0 && t.comp.cedePending) = true := by decide +kernel
/-- 02:25:00 of the three trips (06): the stop timer reaches 600 s with the feedback STOPPED. -/
theorem test_min_stop : next .minStopElapsed 
    (withComp { site.comp with unit := .tripped, trips := [600], feedback := some .stopped })
    (fun t => t.comp.unit == .stopped && t.comp.trips == [600]) = true := by decide +kernel
theorem test_min_run : next .minRunElapsed (withComp { site.comp with unit := .running, command := .run, runTimer := 600 })
    (fun t => t.comp.unit == .stopping) = true
    ∧ next .zeroDemand300s 
      { withComp { site.comp with unit := .running, command := .run, runTimer := 600, zeroDemand := 300 } with
        train := { site.train with mode := .withdraw, lineup := .withdraw } }
      (fun t => t.comp.unit == .stopping) = true := by decide +kernel
theorem test_ages : next .tripHistoryAgeOut (withComp { site.comp with trips := [86400, 86399] })
    (fun t => t.comp.trips == [86399]) = true
    ∧ next .startHistoryAgeOut { withComp { site.comp with starts := [3600, 10, 5] } with
        train := { site.train with mode := .withdraw, lineup := .withdraw, share := 1 } }
      (fun t => t.comp.claimInFlight) = true := by decide +kernel
theorem test_head_hold : next .headHoldExpiry { site with peers := { site.peers with startQueue := [2, 3], headAge := 210 } }
    (fun t => t.peers.startQueue == [3] && t.peers.headAge == 0) = true := by decide +kernel
/-- 03:30:00 of the regeneration (07): the heat maximum of 360 minutes is 21,600 s. -/
theorem test_phase_maxima :
    next (.heatMaximum .a) { site with dryer := { bedA := { state := .heating, phaseTimer := some 21600 } } }
      (fun t => t.dryer.bedA.state == .out && t.mon.exceptions.map (fun r => (r.code, r.value)) == [(25, 1)]) = true
    ∧ next (.coolMaximum .b) { site with dryer := { bedB := { state := .cooling, phaseTimer := some 10800 } } }
      (fun t => t.dryer.bedB.state == .out) = true := by decide +kernel

/-- The power loss of 12: the write is cut off, and its slot stays invalid. -/
theorem test_power_loss : next .powerLoss { site with port := { site.port with nextSeq := 9871, writing := some {} } }
    (fun t => t.ext.unfinished == [7] && !t.powered) = true := by decide +kernel
theorem test_ckpt_fail : next .ckptFail { site with port := { site.port with nextSeq := 9871, writing := some {} } }
    (fun t => t.ext.unfinished == [7] && t.port.nextSeq == 9871 && t.mon.sticky.getD 28 false) = true := by decide +kernel

/-- The memory is in its canonical form at reset. -/
theorem test_reset_memory : Memory.wf State.reset.ext.cells := by decide

/-! ### Witnesses: for each statement with hypotheses, states and operands that meet them, clause by clause -/

/-- `site` with commands that wait. -/
def queued (l : List Instr) : State := { site with pending := l }

theorem witness_StepRunsFront : (queued [.clockSecond, .sendStart]).pending = .clockSecond :: [.sendStart]
    ∧ site.pending = [] := by decide

/-- The part without its supply. -/
def dark : State := { site with powered := false }

theorem witness_TakesEveryCommand : dark.powered = false ∧ ∀ n u l, Instr.clockSecond ≠ .powerOnReset n u l := by
  refine ⟨rfl, fun _ _ _ => ?_⟩
  simp

theorem witness_OnlyResetsReconfigure : (∃ t, exec (.lineReset 2) site = .next t) ∧ (∃ t, exec .clockSecond site = .next t)
    ∧ (∀ n u l, Instr.lineReset 2 ≠ .powerOnReset n u l) ∧ Instr.lineReset 2 ≠ .powerLoss
    ∧ (∀ n, Instr.clockSecond ≠ .lineReset n) ∧ (∀ src dst arg litres, Instr.clockSecond ≠ .orderRestart src dst arg litres)
    ∧ site.link.restartPending = false := by
  refine ⟨⟨_, rfl⟩, ⟨_, rfl⟩, fun _ _ _ => by simp, by simp, fun _ => by simp, fun _ _ _ _ => by simp, rfl⟩

/-- A memory with a block of bytes at 0, and with a slot's bytes behind it. -/
@[irreducible] def blockCells (block : List Byte) : List Host.Cell := Memory.writeBytes [] 0 block
@[irreducible] def ringCells (block slot : List Byte) : List Host.Cell := Memory.writeBytes (blockCells block) (slotAddress 0) slot

theorem blockCells_wf (block : List Byte) : Memory.wf (blockCells block) := by
  unfold blockCells
  exact Memory.writeBytes_wf _ _ _ (by decide)

theorem blockCells_block (block : List Byte) (h : block.length = blockBytes) :
    Memory.readBytes (blockCells block) 0 blockBytes = block := by
  unfold blockCells
  rw [← h]
  exact Memory.readBytes_writeBytes _ _ _ (by decide)

theorem ringCells_block (block slot : List Byte) (h : block.length = blockBytes) :
    Memory.readBytes (ringCells block slot) 0 blockBytes = block := by
  unfold ringCells
  rw [Memory.readBytes_writeBytes_outside _ _ _ _ _ (.inl (by decide)), blockCells_block block h]

theorem ringCells_slot (block slot : List Byte) (h : slot.length = slotBytes) :
    Memory.readBytes (ringCells block slot) (slotAddress 0) slotBytes = slot := by
  unfold ringCells
  rw [← h]
  exact Memory.readBytes_writeBytes _ _ _ (blockCells_wf block)

/-- An external memory with a configuration block alone, and with checkpoint 9,864 in slot 0. -/
def blockMemory : ExternalMemory := { cells := blockCells (imageBytes figures) }
def ringMemory : ExternalMemory := { cells := ringCells (imageBytes figures) (checkpointBytes 9864 {}) }

theorem length_block : (imageBytes figures).length = blockBytes := by
  have h : (codecImage.enc figures).length = 760 := by decide +kernel
  simp [imageBytes, h, blockBytes]

theorem image_reads_back : codecImage.dec (imageBytes figures) = figures ∧ figures.good = true := by decide +kernel

theorem block_read : readImage false blockMemory = some figures :=
  readImage_of_block _ _ (blockCells_block _ length_block) image_reads_back.1 image_reads_back.2

theorem ring_block_read : readImage false ringMemory = some figures :=
  readImage_of_block _ _ (ringCells_block _ _ length_block) image_reads_back.1 image_reads_back.2

/-- A slot whose read was not acknowledged is not read. -/
theorem readSlot_unread (l : List Nat) (e : ExternalMemory) (n : Nat) (h : n ∈ l) : readSlot l e n = none := by
  have hc : l.contains n = true := List.contains_iff_mem.mpr h
  simp only [readSlot, hc, Bool.true_or, if_true]

theorem checkpoint_reads_back : bytesNat ((checkpointBytes 9864 {}).take 4) = 9864
    ∧ codecCheckpoint.dec ((checkpointBytes 9864 {}).drop 4) = {} := by decide +kernel

theorem ring_slot_read : readSlot (List.range' 1 23) ringMemory 0 = some (9864, {}) :=
  readSlot_of_bytes _ _ 0 9864 {} (by decide) (by decide) (ringCells_slot _ _ (length_checkpointBytes _ _)) checkpoint_reads_back.1
    checkpoint_reads_back.2

/-- Only slot 0 is read: it is the newest. -/
theorem newest_of_first (e : ExternalMemory) (r : Nat × Checkpoint) (h : readSlot (List.range' 1 23) e 0 = some r) :
    newestSlot (List.range' 1 23) e = some r := by
  have hm : (List.range 24) = 0 :: List.range' 1 23 := by decide
  have hf : (List.range' 1 23).filterMap (readSlot (List.range' 1 23) e) = [] :=
    List.filterMap_eq_nil_iff.mpr fun n hn => readSlot_unread _ _ n hn
  simp only [newestSlot, hm, List.filterMap_cons, h, hf, List.foldl_cons, List.foldl_nil]

theorem ring_newest : newestSlot (List.range' 1 23) ringMemory = some (9864, {}) := newest_of_first _ _ ring_slot_read

theorem none_newest (e : ExternalMemory) : newestSlot (List.range 24) e = none := by
  have hf : (List.range 24).filterMap (readSlot (List.range 24) e) = [] :=
    List.filterMap_eq_nil_iff.mpr fun n hn => readSlot_unread _ _ n hn
  simp only [newestSlot, hf, List.foldl_nil]

/-- A part before its first power-on, and one whose memory holds a good block. -/
theorem witness_PowerOnFresh : readImage true (cutWrite State.reset).ext = none
    ∧ (let s : State := { State.reset with ext := blockMemory };
      s.port.writing = none ∧ readImage false s.ext = some figures ∧ newestSlot (List.range 24) s.ext = none)
    ∧ (1 ≤ 1 ∧ 1 ≤ 31 ∧ 1 ∈ figures.expected) ∧ (1 ≤ 6 ∧ 6 ≤ 31 ∧ 6 ∈ figures.expected) :=
  ⟨rfl, ⟨rfl, block_read, none_newest _⟩, by decide, by decide⟩

theorem witness_PowerOnRestores :
    (let s : State := { State.reset with ext := ringMemory };
      s.port.writing = none ∧ readImage false s.ext = some figures
        ∧ newestSlot (List.range' 1 23) s.ext = some (9864, {}) ∧ ({} : Checkpoint).unit < 7 ∧ 1 ∈ figures.expected)
    ∧ (({} : Checkpoint).lastFlow < 3 ∧ ({} : Checkpoint).starts.count ≤ 3 ∧ ({} : Checkpoint).trips.count ≤ 3
      ∧ ({} : Checkpoint).cursor ≤ 17 ∧ ({} : Checkpoint).hourDir < 3 ∧ ({} : Checkpoint).bedA.state < 5
      ∧ ({ count := 4 } : SavedNominee).count ≤ 4 ∧ figures.configured 3 = true ∧ figures.configured 4 = false
      ∧ ({} : Checkpoint).suspInject.present = false ∧ ({ present := true } : SavedSuspense).present = true)
    ∧ (1 ≤ 6 ∧ 6 ≤ 31 ∧ 6 ∈ figures.expected) ∧ ({ unit := 6 } : Checkpoint).unit < 7 :=
  ⟨⟨rfl, ring_block_read, ring_newest, by decide, by decide⟩, by decide, by decide, by decide⟩

/-- The slot whose write has started reads as invalid, though its old bytes stand (R166). -/
theorem test_open_slot :
    let s : State := { site with ext := ringMemory, port := { site.port with nextSeq := 9888 } }
    readSlot (List.range' 1 23) s.ext 0 = some (9864, {}) ∧ readSlot (List.range' 1 23) (takeCheckpoint s).ext 0 = none
      ∧ (takeCheckpoint s).ext.cells = s.ext.cells :=
  ⟨ring_slot_read, readSlot_markUnfinished_self _ _ _, rfl⟩

/-- `site` while it writes a checkpoint. -/
def writing : State := { site with port := { site.port with nextSeq := 9871, writing := some {} } }

theorem site_sized : site.sized := ⟨by decide, by decide, by decide, by decide, nofun, nofun⟩

theorem witness_LineResetAndPowerLoss : site.powered = true
    ∧ (site.port.image.isSome = true ∧ 1 ≤ 1 ∧ 1 ≤ 31 ∧ 1 ∈ site.cfg.expected)
    ∧ ¬ (site.port.image.isSome = true ∧ 1 ≤ 0 ∧ 0 ≤ 31 ∧ 0 ∈ site.cfg.expected)
    ∧ ¬ (site.port.image.isSome = true ∧ 1 ≤ 7 ∧ 7 ≤ 31 ∧ 7 ∈ site.cfg.expected)
    ∧ (site.port.note = none ∧ site.link.haltSet = [] ∧ (inMode .shutIn).train.mode = .shutIn)
    ∧ (site.train.mode ≠ .shutIn ∧ (withLink { state := .active, haltSet := [29] }).link.haltSet ≠ [])
    ∧ site.port.writing = none ∧ (writing.powered = true ∧ writing.port.writing ≠ none) := by decide

/-- A withdrawing train with two beds, and an interval of it with bed temperatures and a dew point. -/
def drying (a b : BedRecord) : State :=
  { inMode .withdraw with
    train := { site.train with mode := .withdraw, lineup := .withdraw }, dryer := { bedA := a, bedB := b } }
def dryInterval (temp dew : Int) : Interval :=
  { volume := 5000, cv := 110000, source := .latest, compWh := 0, heaterWh := 700, samples := 60
    held := { bedA := some ⟨temp, 300⟩, bedB := some ⟨temp, 300⟩, dewPoint := some ⟨dew, 0⟩ } }

theorem drying_sized (a b : BedRecord) (ha : a.passage.length = 17) (hb : b.passage.length = 17) :
    (drying a b).sized := ⟨rfl, rfl, ha, hb, nofun, nofun⟩

/-- A loaded bed with the other STANDBY, a bed at its heat target, one at its cool target, and a bed without any partner;
the switch load is 1,200,000 g, the breakthrough load 1,425,000 g, the targets 2,400 and 400. -/
theorem witness_DryerMinute :
    (let s := drying { state := .adsorbing } { state := .standby };
      s.sized ∧ s.mon.sized ∧ s.dryer.sound ∧ withdrawalInterval s (dryInterval 0 (-100)) = true
        ∧ 0 < (dryInterval 0 (-100)).volume ∧ switchedOut s (dryInterval 0 (-100)) 1199999 .a = false
        ∧ switchedOut s (dryInterval 0 (-100)) 1200000 .a = true
        ∧ (s.dryer.dewHigh = false ∧ dewAfter s (dryInterval 0 (-80)) = true)
        ∧ dewAfter s (dryInterval 0 (-81)) = false
        ∧ serves s.dryer .a ∧ s.cfg.dryer.switchLoad = 1200000 ∧ s.cfg.dryer.breakthroughLoad = 1425000)
    ∧ (withdrawalInterval site (dryInterval 0 0) = true ∧ withdrawalInterval (inMode .inject) (dryInterval 0 0) = false)
    ∧ (let s := drying { state := .heating, phaseTimer := some 60 } { state := .cooling, phaseTimer := some 60 };
      s.dryer.sound ∧ (s.dryer.bed .a).state = .heating ∧ heatingEnds s (dryInterval 2400 0) .a = true
        ∧ heatingEnds s (dryInterval 2399 0) .a = false ∧ (s.dryer.bed .b).state = .cooling
        ∧ coolingEnds s (dryInterval 400 0) .b = true ∧ coolingEnds s (dryInterval 401 0) .b = false
        ∧ takenIn s (dryInterval 400 0) .b = true ∧ ∀ bed, ¬ serves s.dryer bed)
    ∧ (let s := drying { state := .adsorbing } { state := .out };
      (s.dryer.bed .b).state = .out ∧ (s.dryer.bed (otherBed .a)).state ≠ .standby ∧ serves s.dryer .a)
    ∧ (0 < figures.dryer.waterTable.length ∧ figures.dryer.waterTable.Pairwise (fun x y => x.1 < y.1))
    ∧ (let s := drying { state := .adsorbing } { state := .standby };
      s.train.mode ≠ .config ∧ s.intake.sending = none
        ∧ (withIntake { site.intake with sending := some {} }).intake.sending ≠ none
        ∧ (dryerMinute (dryInterval 0 0) s).intake.handed ≠ s.intake.handed
        ∧ (dryerMinute (dryInterval 0 0) site).intake.handed = site.intake.handed) := by
  refine ⟨⟨drying_sized _ _ rfl rfl, ?_⟩, ?_⟩
  · unfold serves
    decide
  · refine ⟨by decide, ⟨by decide, by decide, by decide, by decide, by decide, by decide, by decide, by decide, ?_⟩, ?_, by decide, by decide +kernel⟩
    · intro bed
      unfold serves
      cases bed <;> decide
    · unfold serves
      decide

/-- The minute work in which bed B ends COOLING hands B's valve as it leaves it, ISOLATE; an entry at the same boundary that
takes B into service hands ADSORB after it, in the SETPOINT that follows the one being sent (R106, R132). -/
theorem test_valve_handed :
    let s := drying { state := .heating, phaseTimer := some 60 } { state := .cooling, phaseTimer := some 60 }
    let t := dryerMinute (dryInterval 400 0) { s with
      train := { s.train with mode := .inject, lineup := .inject }, intake := { s.intake with handed := { valveA := .regen, valveB := .regen, heater := true } } }
    t.intake.handed.valveB = .isolate ∧ t.intake.sending = some t.intake.handed
      ∧ (let u := handAll { t with dryer := { t.dryer with bedB := { t.dryer.bedB with state := .adsorbing } } };
        u.intake.handed.valveB = .adsorb ∧ u.intake.sending = t.intake.sending ∧ u.intake.sendAgain = true) := by
  decide +kernel

theorem witness_CheckpointWriteCompletes : writing.powered = true ∧ Memory.wf writing.ext.cells
    ∧ writing.port.writing = some {} ∧ writing.port.waiting = none
    ∧ (let s := { writing with port := { writing.port with waiting := some {} } };
      s.port.writing = some {} ∧ s.port.waiting ≠ none ∧ slotOfSeq 9871 = 7 ∧ slotOfSeq 9872 = 8) := by decide

/-- A checkpoint with lists of any length takes the bytes of one slot (R170). -/
theorem test_slot_length : (checkpointBytes 9871 { confirmed := List.replicate 999 5, slots := [] }).length = slotBytes :=
  length_checkpointBytes _ _

theorem witness_CheckpointWriteFails : writing.steady ∧ writing.mon.sized ∧ writing.port.writing = some {} := by decide

theorem witness_MemoryStaysCanonical : Memory.wf (queued [.checkpointWriteDone]).ext.cells
    ∧ ∃ t, step (queued [.checkpointWriteDone]) = .next t := ⟨by decide, _, rfl⟩

theorem witness_HoldBack : (let s := withClock { site.clock with holdBack := 1 }; s.steady ∧ 0 < s.clock.holdBack)
    ∧ (let s (n : Nat) := withClock { day := 65535, second := n, synced := true };
      (s 86398).steady ∧ (s 86398).clock.holdBack = 0 ∧ (s 86398).clock.second ≠ 86399
        ∧ (s 86399).steady ∧ (s 86399).clock.holdBack = 0 ∧ (s 86399).clock.second = 86399) := by decide

theorem witness_ClockAdvances :
    (let s := withClock { day := 812, second := 86399 };
      s.steady ∧ s.clock.holdBack = 0 ∧ s.clock.synced = false ∧ s.clock.second = 86399)
    ∧ (site.steady ∧ site.clock.holdBack = 0 ∧ (site.clock.second + 1) % 60 ≠ 0 ∧ site.train.mode ≠ .config)
    ∧ (atConfig.steady ∧ atConfig.clock.holdBack = 0 ∧ (atConfig.clock.second + 1) % 60 ≠ 0
      ∧ atConfig.train.mode = .config)
    ∧ (let s (n : Nat) := withClock { day := 812, second := n, synced := true };
      ((s 50039).steady ∧ (s 50039).clock.holdBack = 0 ∧ (50039 + 1) % 60 = 0 ∧ (50039 + 1) % 3600 ≠ 0)
        ∧ (53999 + 1) % 3600 = 0 ∧ (s 86399).clock.second = 86399 ∧ (86399 + 1) % 60 = 0
        ∧ (s 86399).train.mode ≠ .config)
    ∧ (let s (i : Intake) := { withBeds .adsorbing .standby with intake := i };
      (∀ i, (s i).mon.sized ∧ (s i).dryer.bedA.state = .adsorbing)
        ∧ (s { latestCv := some 112000 }).intake.latestCv = some 112000
        ∧ (s { held := { cv := some ⟨111000, 299⟩ } }).intake.latestCv = none
        ∧ (s { held := { cv := some ⟨111000, 299⟩ } }).intake.held.cv = some ⟨111000, 299⟩
        ∧ (s {}).intake.latestCv = none ∧ (s {}).intake.held.cv = none ∧ (s {}).intake.volume = 0
        ∧ 0 < (s { volume := 1 }).intake.volume) := by
  refine ⟨by decide, by decide, by decide, by decide, fun _ => ⟨⟨rfl, rfl⟩, rfl⟩, by decide⟩

/-- The metering of a minute: the held CV is taken with CV_HELD, but not for a volume of 0, and the default one with
CV_DEFAULT; 1,400 Wh on a carry of 700 are 2 kWh and a carry of 100 (R37, R101). -/
theorem test_metering :
    let s (i : Intake) := { withIntake i with comp := { site.comp with fuelCarry := 700 } }
    let held : HeldValues := { cv := some ⟨111000, 299⟩ }
    let flags (i : Intake) := [1, 2].map (fun k => (meterMinute (s i)).2.mon.sticky.getD k false)
    (meterMinute (s { volume := 1, held := held })).1.cv = 111000 ∧ flags { volume := 1, held := held } = [true, false]
      ∧ flags { held := held } = [false, false] ∧ flags { volume := 1 } = [false, true]
      ∧ (meterMinute (s { volume := 1, latestCv := some 9 })).1.cv = 9
      ∧ (meterMinute (s { compWh := 1400 })).2.comp.fuelCarry = 100 := by decide +kernel

theorem witness_TimeAdopted :
    (let s := withClock { day := 0, second := 7 };
      s.hears 21 0 ∧ 21 = s.cfg.timeSource ∧ s.clock.synced = false ∧ s.port.catchUp = false ∧ 86399 ≤ 86399
        ∧ 86399 < 86400)
    ∧ (let s : State := { withClock { day := 0, second := 7 } with
                           port := { site.port with catchUp := true, stamp := some (812, 13) } };
      s.hears 21 0 ∧ s.clock.synced = false ∧ s.port.catchUp = true ∧ s.port.stamp = some (812, 13)
        ∧ hourDistance (hourIndex 812 13) (hourIndex 812 (50399 / 3600)) = 0
        ∧ 0 < hourDistance (hourIndex 812 13) (hourIndex 812 (50400 / 3600))
        ∧ 0 < hourDistance (hourIndex 812 13) (hourIndex 813 (0 / 3600)) ∧ 813 ≠ 812) := by
  decide

/-- The second within the minute is 20: 39 s ahead and 20 s back cross no minute, 21 s back does. -/
theorem witness_TimeStepped : site.hears 21 0 ∧ 21 = site.cfg.timeSource ∧ site.clock.synced = true
    ∧ site.clock.day < 65536 ∧ site.clock.second < 86400 ∧ site.clock.second % 60 = 20
    ∧ secondDifference site.clock.index (812 * 86400 + 50039) = 39
    ∧ secondDifference site.clock.index (812 * 86400 + 49980) = -20
    ∧ secondDifference site.clock.index (812 * 86400 + 49979) = -21
    ∧ secondDifference site.clock.index (812 * 86400 + 46400) = -3600 := by decide

theorem witness_LargeStepRefused :
    let s (r : Option (Nat × Int)) := withClock { site.clock with refused := r }
    secondDifference site.clock.index (812 * 86400 + 53601) = 3601
    ∧ secondDifference site.clock.index (812 * 86400 + 46399) = -3601
    ∧ (∀ r, (s r).hears 21 0 ∧ 21 = (s r).cfg.timeSource ∧ (s r).clock.synced = true ∧ (s r).mon.sized)
    ∧ (s none).clock.refused = none ∧ (s (some (1, 3603))).clock.refused = some (1, 3603)
    ∧ (3601 - 3603 : Int).natAbs ≤ 2 ∧ (s (some (2, 3604))).clock.refused = some (2, 3604)
    ∧ 2 < (3601 - 3604 : Int).natAbs ∧ (s (some (2, -3599))).clock.refused = some (2, -3599)
    ∧ (-3601 - -3599 : Int).natAbs ≤ 2
    ∧ (secondDifference site.clock.index (812 * 86400 + 50040) = 40 ∧ 60 ≤ ((site.clock.second % 60 : Nat) : Int) + 40
      ∧ (40 : Int) ≤ 3600 ∧ ((site.clock.second % 3600 : Nat) : Int) + 400 = 3600
      ∧ (site.clock.second : Int) + 36400 = 86400)
    ∧ ((s (some (2, 3603))).clock.refused = some (2, 3603) ∧ (3601 - 3603 : Int).natAbs ≤ 2
      ∧ 60 ≤ ((site.clock.second % 60 : Nat) : Int) + 3601) := by
  refine ⟨by decide, by decide, fun r => ⟨?_, rfl, rfl, ⟨rfl, rfl⟩⟩, rfl, rfl, by decide, rfl, by decide,
    rfl, by decide, by decide, by decide⟩
  refine ⟨⟨⟨rfl, rfl⟩, nofun⟩, by decide, ?_, .inl rfl⟩
  show (21 : Nat) ≠ 1
  decide

/-- One NOMS for each reason of R14 (the FULL list of the morning is full, and 36 hours is the horizon). -/
theorem witness_NomsRefused :
    let full := morning [(19498, 0), (19499, 0), (19501, 0), (19502, 0)]
    full.hears 22 0 ∧ 22 = full.cfg.scheduling ∧ full.mon.sized ∧ (full.nom.nominee 3).pending.length ≤ 4
      ∧ nomsFailing (withClock {}) 3 812 10 0 = 1 ∧ nomsFailing full 4 812 10 0 = 2 ∧ nomsFailing full 17 812 10 0 = 2
      ∧ nomsFailing full 3 812 24 0 = 3 ∧ nomsFailing full 3 812 9 0 = 4 ∧ nomsFailing full 3 813 21 0 = 5
      ∧ nomsFailing full 3 812 12 0 = 6 ∧ full.cfg.escalates 7 = true ∧ full.mon.exceptions.length < 8 := by decide

theorem witness_NomsAccepted :
    let s := morning [(19498, 0), (19499, 0), (19501, 0)]
    s.hears 22 0 ∧ 22 = s.cfg.scheduling ∧ s.nom.shippers.length = 16 ∧ (s.nom.nominee 3).pending.length ≤ 4
      ∧ nomsFailing s 3 812 10 0 = 0 ∧ nomsFailing s 3 813 20 0 = 0
      ∧ nomsFailing (morning [(19498, 0), (19499, 0), (19501, 0), (19502, 0)]) 3 812 13 0 = 0 := by decide

theorem witness_PendingsStaySound :
    let s : State := { morning [(19498, -280000), (19499, 0), (19500, 5), (19501, 7)] with pending := [.clockSecond] }
    (∀ n u l, s.pending.head? ≠ some (.powerOnReset n u l)) ∧ s.clock.synced = true ∧ s.pendingsSound
      ∧ (∃ t, step s = .next t) ∧ s.pending.head? ≠ some .powerLoss := by
  refine ⟨fun _ _ _ => by simp, rfl, ⟨by decide, by decide, ?_, by decide⟩, ⟨_, rfl⟩, by simp⟩
  intro m h
  obtain rfl : figures = m := by simpa [morning, withClock, site] using h
  decide

theorem witness_HourConfirms :
    (let s := morning [(19496, 5), (19497, 6)];
      let n : Nominee := { current := -200000, pending := [(19496, 5), (19497, 6)] };
      s.nom.nominee 3 = n ∧ (19496, (5 : Int)) ∈ n.pending ∧ hourDistance s.clock.hourIndex 19496 ≤ 0
        ∧ (∀ x ∈ n.pending, hourDistance s.clock.hourIndex x.1 ≤ 0 →
          hourDistance s.clock.hourIndex x.1 ≤ hourDistance s.clock.hourIndex 19496)
        ∧ (19497, (6 : Int)) ∈ n.pending ∧ 0 < hourDistance s.clock.hourIndex 19497
        ∧ n.pending.Pairwise (fun x y => hourDistance s.clock.hourIndex x.1 < hourDistance s.clock.hourIndex y.1)
        ∧ s.nom.nominee 2 = {})
    ∧ (nominationHour site).nom.hourDir = none ∧ (nominationHour (morning [])).nom.hourDir = some .withdraw
    ∧ ((morning []).cfg.configured 3 = true ∧ hasSign .withdraw ((morning []).nom.nominee 3).current = true)
    ∧ ¬ (hasSign .withdraw ((morning []).nom.nominee 2).current = true) ∧ ¬ ((morning []).cfg.configured 4 = true)
    ∧ site.port.writing = none ∧ writing.port.writing ≠ none ∧ site.train.mode ≠ .config ∧ site.roomy
    ∧ (let table := site.cfg.ratchet 3 .withdraw;
      0 < table.length ∧ table.Pairwise (fun x y => x.1 < y.1) ∧ 0 < (site.cfg.ratchet 3 .inject).length
        ∧ (site.cfg.ratchet 3 .inject).Pairwise (fun x y => x.1 < y.1)
        ∧ ¬ (∀ v ∈ site.peers.view, v.half1 ≠ none ∧ v.half2 ≠ none)
        ∧ ∀ v ∈ [({ station := 2, half1 := some [], half2 := some [] } : PeerView)], v.half1 ≠ none ∧ v.half2 ≠ none)
    := by decide +kernel

/-- The right of slot 3 at a fill of 100, half of the way from 300 to 600, and of slot 1 with the view incomplete, its
least factor 200 (R20, R21, R22, R26). -/
theorem test_rights : (let s := { site with acct := { site.acct with
        slots := [{}, {}, {}, { inventory := 10000 }] ++ List.replicate 13 {} } };
      slotRight s 3 .withdraw = 225000)
    ∧ slotRight site 1 .inject = 200 := by decide +kernel

theorem witness_OfferTaken : site.hears 2 0 ∧ 2 ∈ site.cfg.expected ∧ site.mon.sized ∧ 2 < 3
    ∧ dirOfCode 0 = some none ∧ dirOfCode 2 = some (some .withdraw) ∧ site.clock.synced = true
    ∧ 60 ≤ site.clock.second % 3600 ∧ 1 ≠ site.nom.target ∧ site.peers.divergeMark 2 = false
    ∧ (withClock { site.clock with second := 50459 }).clock.second % 3600 = 59 := by decide

theorem witness_InvtTaken : site.hears 6 1 ∧ 6 ∈ site.cfg.expected ∧ 0 ≠ 1 ∧ 3 ≠ 2 := by decide

theorem witness_StartQueueCopied : site.hears 2 0 ∧ 2 ∈ site.cfg.expected
    ∧ (let q (l : List Nat) : Peers := { site.peers with startQueue := l };
      2 ∈ (q [1, 2]).startQueue ∧ 2 ∉ (q [1, 3, 4, 5, 6, 7, 8, 9]).startQueue
        ∧ 8 ≤ (q [1, 3, 4, 5, 6, 7, 8, 9]).startQueue.length ∧ (q [1, 3, 4, 5, 6, 7, 8]).startQueue.length < 8
        ∧ (q [2, 1, 3]).startQueue = 2 :: site.station :: [3])
    ∧ (withComp { site.comp with unit := .queued }).comp.unit = .queued ∧ site.train.mode ≠ .shutIn := by decide

theorem witness_JoinTaken :
    let s := withLink { state := .active, queue := List.replicate 4 waitingClaim }
    s.hears 29 0 ∧ s.roomy := by decide

theorem witness_HaltSet : site.steady ∧ 29 ≠ 0 ∧ 29 ≠ site.station ∧ (0 = 0 ∨ 0 = site.station)
    ∧ site.link.haltSet = [] ∧ site.train.mode ≠ .config ∧ site.train.mode ≠ .shutIn
    ∧ (withLink { state := .active, haltSet := [29] }).link.haltSet ≠ [] ∧ atConfig.train.mode = .config
    ∧ (inMode .shutIn).train.mode = .shutIn ∧ site.station ≠ 0
    ∧ (atConfig.steady ∧ atConfig.link.state ≠ .silent ∧ atConfig.mon.sized) := by decide

/-- A CLAIM of each clause: in CONFIG, from 0, from the part's own number, for another station, from a stranger. -/
theorem witness_TelegramsFiltered :
    passedTelegram atConfig (.claim 2 0) = some (2, 0, 6, true) ∧ atConfig.powered = true ∧ atConfig.train.mode = .config
    ∧ passedTelegram site (.claim 0 0) = some (0, 0, 6, false) ∧ passedTelegram site (.claim 1 0) = some (1, 0, 6, true)
    ∧ passedTelegram site (.claim 2 3) = some (2, 3, 6, true) ∧ 3 ≠ 0 ∧ 3 ≠ site.station ∧ site.train.mode ≠ .config
    ∧ passedTelegram site (.claim 9 1) = some (9, 1, 6, false) ∧ 9 ≠ 0 ∧ 9 ≠ site.station ∧ 1 = site.station
    ∧ site.powered = true := by
  simp only [passedTelegram, Option.some.injEq, Prod.mk.injEq]
  decide

/-- A link with one entry on the line and one that waits behind it. -/
def sending (e : Entry) : State := withLink { state := .active, queue := [e, waitingClaim], nextTicket := 9 }

/-- The part's CEDE and a DAY report, on the line. -/
def sentCede : Entry := { telegram := .cede, owner := .sequencer, onLine := true, ticket := 4 }
def sentDay : Entry :=
  { telegram := .day { day := 812, slot := 3, shipper := 103, totals := {}, inventory := 0, spaceOver := false
                       provisional := false }
    owner := .dayCursor, onLine := true, ticket := 5 }

/-- The part's OFFER on the line. -/
def sentOffer : Entry := { telegram := .offer none 0 0 0 .idle .stopped, owner := .other, onLine := true, ticket := 6 }

theorem witness_DuplicatesAndMismatches :
    (site.atWork ∧ site.mon.sized ∧ site.link.state ≠ .silent ∧ site.roomy ∧ site.train.offerDir = none
      ∧ (withLink { state := .silent }).atWork ∧ (withLink { state := .silent }).link.state = .silent)
    ∧ ((sending sentClaim).atWork ∧ (sending sentClaim).mon.sized ∧ (sending sentClaim).roomy
      ∧ (let e := { sentClaim with mismatches := 14 }; (sending e).sends [] e [waitingClaim] ∧ e.mismatches + 1 < 16)
      ∧ (let e := { sentDay with mismatches := 15 }; (sending e).sends [] e [waitingClaim] ∧ 16 ≤ e.mismatches + 1
        ∧ e.owner = .dayCursor ∧ e.ticket < (sending e).link.nextTicket))
    ∧ (let s (n : Nat) := withLink { state := .joining, join := .onLine, joinFailures := n };
      (s 1).atWork ∧ (s 1).link.join = .onLine ∧ (s 1).link.joinFailures < 2 ∧ 2 ≤ (s 2).link.joinFailures)
    ∧ ((withLink { state := .fault, join := .onLine }).atWork
      ∧ (withLink { state := .fault, join := .onLine }).link.join = .onLine) := by decide

theorem witness_OrderShut : site.obeys 20 1 ∧ site.train.mode ≠ .shutIn ∧ site.roomy ∧ (inMode .shutIn).obeys 20 1
    ∧ (inMode .shutIn).train.mode = .shutIn := by decide

/-- A train shut in since the reset, its JOIN 30 s or 120 s old. -/
def shutSince (join : Option Nat) : State :=
  withTrain { site.train with mode := .shutIn, listenDone := false, joinTime := join }

theorem witness_OrderRelease : site.obeys 20 1 ∧ site.roomy ∧ site.train.mode ≠ .shutIn
    ∧ (let s := { inMode .shutIn with link := { site.link with haltSet := [29] } };
      s.obeys 20 1 ∧ s.train.mode = .shutIn ∧ s.link.haltSet ≠ [])
    ∧ (let s := { inMode .shutIn with intake := { site.intake with fieldLost := true } };
      s.obeys 20 1 ∧ s.train.mode = .shutIn ∧ s.link.haltSet = [] ∧ s.intake.fieldLost = true)
    ∧ ((inMode .shutIn).train.listenDone = true ∧ (inMode .shutIn).intake.fieldLost = false)
    ∧ ((shutSince none).obeys 20 1 ∧ (shutSince none).train.mode = .shutIn ∧ (shutSince none).train.listenDone = false)
    ∧ listenOver (shutSince (some 70206680)) ∧ ¬ listenOver (shutSince (some 70206681)) := by
  refine ⟨by decide, by decide, by decide, by decide, by decide, by decide, by decide, ?_, ?_⟩
  · exact ⟨rfl, 70206680, rfl, by decide, .inr (by decide)⟩
  · rintro ⟨-, j, hj, -, hv | hv⟩ <;> obtain rfl : 70206681 = j := by simpa [shutSince, withTrain] using hj
    · exact absurd hv (by decide)
    · exact absurd hv (by decide)

/-- A withdrawing train with a share on a compressed path. -/
def flowing (c : Compressor) : State :=
  { withComp c with train := { site.train with mode := .withdraw, lineup := .withdraw, share := 5 } }

theorem witness_OrderUnlock :
    let s := flowing { site.comp with unit := .lockout, trips := [0] }
    s.obeys 20 1 ∧ s.roomy ∧ s.comp.unit = .lockout
      ∧ startDue { s with comp := { s.comp with unit := .stopped, command := .stop, trips := [] } }
      ∧ site.obeys 20 1 ∧ site.comp.unit ≠ .tripped ∧ site.comp.unit ≠ .lockout := by
  unfold startDue wants
  decide

theorem witness_BedOrders : site.obeys 20 1 ∧ site.roomy ∧ bedCode .a = 1 ∧ bedCode .b = 2 ∧ 0 ≠ 1 ∧ 3 ≠ 2
    ∧ ((withBeds .out .adsorbing).obeys 20 1 ∧ ((withBeds .out .adsorbing).dryer.bed .a).state = .out
      ∧ ((withBeds .out .adsorbing).dryer.bed (otherBed .a)).state ≠ .heating)
    ∧ ((withBeds .adsorbing .standby).dryer.bed .a).state = .adsorbing
    ∧ ((withBeds .heating .cooling).dryer.bed .a).state = .heating
    ∧ ((withBeds .heating .cooling).dryer.bed .b).state = .cooling
    ∧ ((withBeds .out .heating).dryer.bed (otherBed .a)).state = .heating
    ∧ (let s := { flowing site.comp with dryer := { bedA := { state := .adsorbing }, bedB := { state := .out } } };
      s.obeys 20 1 ∧ (s.dryer.bed .a).state ≠ .out ∧ s.train.mode = .withdraw ∧ s.train.lineup = .withdraw) := by decide

/-- `site` with a suspense record of withdrawal. -/
def holdingRecord (r : Suspense) : State := withIntake { site.intake with suspWithdraw := some r }

theorem witness_SuspenseOrders : site.obeys 20 1 ∧ site.roomy ∧ 0 ≠ 1 ∧ 3 ≠ 2 ∧ flowCode .withdraw = 2
    ∧ site.intake.suspense .withdraw = none
    ∧ ((holdingRecord openRecord).obeys 20 1 ∧ (holdingRecord openRecord).intake.suspense .withdraw = some openRecord
      ∧ openRecord.due = none ∧ openRecord.volume = none)
    ∧ ({ openRecord with volume := some 7 } : Suspense).volume = some 7
    ∧ ({ openRecord with due := some { console := 20, command := 7, arg := 2, litres := 1, book := 1 } } : Suspense).due
        ≠ none := by decide

theorem witness_OrderClear : site.obeys 20 1 ∧ site.admits
    ∧ (let s (n : Nat) (mark : Bool) := withLink
        { state := .active, refusalMark := mark, queue := List.replicate n waitingClaim };
        (s 11 false).obeys 20 1 ∧ (s 11 false).admits ∧ (s 12 false).obeys 20 1 ∧ ¬ (s 12 false).admits
        ∧ (s 3 true).obeys 20 1 ∧ ¬ (s 3 true).admits) := by decide

/-- Twelve entries of class 3, the newest the last; and twelve that are all of class 0. -/
def crowd (cls0 : Bool) : List Entry :=
  (List.range 12).map (fun i => { telegram := if cls0 then .claim else sentDay.telegram, owner := .other, ticket := i })

/-- The reply to a RESTART, on the line; and a site whose restart is pending with these entries in its queue. -/
def restartReply : Entry :=
  { telegram := .reply { console := 20, command := 9, arg := 0, litres := 0, outcome := .done }, owner := .restart
    onLine := true, ticket := 3 }
def restarting (queue : List Entry) : State :=
  withLink { state := .active, queue := queue, refusalMark := decide (9 ≤ queue.length), restartPending := true }

/-- Eleven entries and the reply to a RESTART as the newest of them. -/
def crowdedReply : Entry := { restartReply with onLine := false, ticket := 11 }
def crowdedRestart : State := restarting ((crowd true).take 11 ++ [crowdedReply])

/-- The OFFER of a HALT takes the place of the waiting reply, and the reset follows; TX_DROP counts the reply and its own
refused report (R147, R148, R161). -/
theorem test_restart_evicted : next (.halt 29 0 0) crowdedRestart
    (fun t => !t.link.restartPending && t.link.state == .joining && t.link.haltSet == [29] && t.train.mode == .shutIn
      && t.mon.counters.getD (condCode .txDrop - 1) 0 == 2) = true := by decide +kernel

theorem witness_OrderRestart :
    ((withLink { state := .fault }).obeys 20 1 ∧ (withLink { state := .fault }).link.state ≠ .active)
    ∧ (site.obeys 20 1 ∧ site.link.state = .active ∧ site.roomy)
    ∧ (let s := withLink { state := .active, queue := [restartReply], restartPending := true };
      s.powered = true ∧ s.train.mode ≠ .config ∧ 20 ≠ 0 ∧ 20 ≠ s.station ∧ 1 = s.station ∧ 20 ∈ s.cfg.consoles
        ∧ s.link.state = .active ∧ s.link.restartPending = true ∧ (∃ e ∈ s.link.queue, e.owner = .restart) ∧ s.roomy
        ∧ s.sends [] restartReply [] ∧ restartReply.owner = .restart)
    ∧ (let s (n : Nat) (mark : Bool) := withLink
        { state := .active, refusalMark := mark, queue := List.replicate n waitingClaim };
        (s 12 true).obeys 20 1 ∧ (s 12 true).restartSound ∧ ¬ (s 12 true).admits ∧ (s 6 true).obeys 20 1
        ∧ (s 6 true).restartSound ∧ ¬ (s 6 true).admits ∧ (s 12 false).restartSound ∧ ¬ (s 12 false).admits)
    ∧ (let e := { restartReply with mismatches := 15 };
      (restarting [waitingClaim, e]).sends [waitingClaim] e [] ∧ 16 ≤ e.mismatches + 1
        ∧ (∀ x ∈ [waitingClaim] ++ [], x.owner ≠ .restart) ∧ (restarting [waitingClaim, e]).powered = true)
    ∧ (crowdedRestart.powered = true ∧ crowdedRestart.train.mode ≠ .config ∧ crowdedRestart.train.mode ≠ .shutIn
      ∧ crowdedRestart.link.restartPending = true ∧ 29 ≠ 0 ∧ 29 ≠ crowdedRestart.station ∧ crowdedRestart.link.haltSet = []
      ∧ crowdedRestart.link.queue.length = 12 ∧ (∀ x ∈ crowdedRestart.link.queue, telegramKind x.telegram ≠ 3)
      ∧ crowdedReply ∈ crowdedRestart.link.queue ∧ crowdedReply.owner = .restart ∧ crowdedReply.onLine = false
      ∧ 2 ≤ telegramClass crowdedReply.telegram
      ∧ ∀ x ∈ crowdedRestart.link.queue, x ≠ crowdedReply →
          x.owner ≠ .restart ∧ (x.onLine = false → x.ticket < crowdedReply.ticket))
    ∧ ((restarting [restartReply]).link.state = .active ∧ (restarting [restartReply]).link.state ≠ .silent
      ∧ (let s := withLink { state := .joining, join := .onLine, joinFailures := 2, restartPending := true };
        s.powered = true ∧ s.train.mode ≠ .config ∧ s.link.restartPending = true ∧ s.link.join = .onLine
          ∧ s.link.state = .joining ∧ 2 ≤ s.link.joinFailures))
    ∧ ((restarting [restartReply]).restartSound ∧ site.restartSound)
    ∧ (let s := restarting [restartReply];
      let unmarked : State := { s with link := { s.link with restartPending := false } };
      let marked (t : State) : State := { t with link := { t.link with restartPending := true } };
      (∃ t, exec .clockSecond unmarked = .next t ∧ (marked t).restartSound)
        ∧ ∃ t, exec .echoIntact unmarked = .next t ∧ ¬ (marked t).restartSound) := by
  refine ⟨by decide, by decide, by decide, by decide, by decide, by decide, by decide, by decide, ⟨_, rfl, by decide +kernel⟩,
    ⟨_, rfl, by decide +kernel⟩⟩

theorem witness_LineTaken : site.powered = true ∧ site.train.mode ≠ .config
    ∧ (withLink { state := .joining, join := .onLine }).link.join = .onLine
    ∧ (∃ e ∈ (withLink { state := .active, queue := [sentClaim] }).link.queue, e.onLine = true)
    ∧ (site.link.join ≠ .onLine ∧ (∀ e ∈ site.link.queue, e.onLine = false) ∧ site.link.state = .active)
    ∧ ((withLink { state := .silent }).link.state = .silent ∧ (withLink { state := .fault }).link.state = .fault
      ∧ (withLink { state := .joining }).link.state = .joining) := by decide

theorem witness_JoinCompletes :
    let s := withLink { state := .joining, join := .onLine }
    s.atWork ∧ s.link.join = .onLine := by decide

/-- An entry on the line with eleven behind it. -/
def sendingFull (e : Entry) : State :=
  withLink { state := .active, queue := e :: List.replicate 11 waitingClaim, refusalMark := true, nextTicket := 9 }

/-- A part whose CEDE is on the line, with a unit in some state, in some mode, and a start queue copy. -/
def ceding (u : UnitState) (m : Mode) (copy : List Nat) : State :=
  { inMode m with
    comp := { site.comp with unit := u, command := Machine.commandOf u, cedePending := true }
    peers := { site.peers with startQueue := copy }
    link := (sending sentCede).link }

/-- The echo of the CEDE takes a QUEUED unit out of the queue with its entry; a STARTING one is stopped when the train has
been shut in, and cedes anew (R92, R93, R95). -/
theorem test_cede_echo :
    next .echoIntact (ceding .queued .idle [1]) (fun t => t.comp.unit == .stopped && t.peers.startQueue == []) = true
    ∧ next .echoIntact (ceding .starting .shutIn [1])
      (fun t => t.comp.unit == .stopping && t.comp.cedePending && t.link.queue.length == 2) = true := by decide +kernel

theorem witness_EchoCompletes : (sending sentClaim).atWork ∧ (sending sentClaim).sends [] sentClaim [waitingClaim]
    ∧ (sending sentClaim).roomy ∧ sentClaim.owner = .sequencer ∧ sentClaim.telegram = .claim
    ∧ sentClaim.ticket < (sending sentClaim).link.nextTicket
    ∧ site.station ∉ site.peers.startQueue ∧ site.peers.startQueue.length < 8
    ∧ (let full : Peers := { site.peers with startQueue := [2, 3, 4, 5, 6, 7, 8, 9] };
      site.station ∉ full.startQueue ∧ 8 ≤ full.startQueue.length)
    ∧ (wants (flowing site.comp) ∧ (flowing site.comp).comp.unit = .stopped)
    ∧ (¬ wants (sending sentClaim) ∧ (sending sentClaim).comp.unit = .stopped
      ∧ (sending sentClaim).comp.cedePending = false)
    ∧ (withComp { site.comp with unit := .lockout }).comp.unit = .lockout
    ∧ ((sending sentCede).sends [] sentCede [waitingClaim] ∧ sentCede.telegram = .cede ∧ sentCede.owner = .sequencer
      ∧ ∀ u, (withComp { site.comp with unit := u, cedePending := true }).comp.unit = u)
    ∧ ((sending sentDay).sends [] sentDay [waitingClaim] ∧ sentDay.owner = .dayCursor)
    ∧ ((sending sentOffer).sends [] sentOffer [waitingClaim] ∧ sentOffer.owner = .other)
    ∧ (withComp { site.comp with unit := .running }).comp.unit = .running
    ∧ (let e := { sentDay with owner := .pastClose }; (sending e).sends [] e [waitingClaim] ∧ e.owner ≠ .dayCursor
      ∧ e.owner ≠ .sequencer ∧ ¬ (sendingFull sentDay).roomy ∧ (sendingFull sentDay).atWork
      ∧ (sendingFull sentDay).sends [] sentDay (List.replicate 11 waitingClaim))
    ∧ ((ceding .starting .idle []).atWork ∧ (ceding .starting .idle []).comp.unit = .starting
      ∧ (ceding .starting .idle []).train.mode ≠ .shutIn ∧ (ceding .starting .shutIn []).train.mode = .shutIn
      ∧ (ceding .starting .shutIn []).sends [] sentCede [waitingClaim] ∧ (ceding .starting .shutIn []).roomy)
    ∧ ((ceding .queued .idle [1]).comp.unit = .queued ∧ (ceding .queued .idle [1]).sends [] sentCede [waitingClaim]
      ∧ (ceding .queued .idle [1]).station ∈ (ceding .queued .idle [1]).peers.startQueue
      ∧ (ceding .queued .idle []).station ∉ (ceding .queued .idle []).peers.startQueue
      ∧ (ceding .queued .idle []).roomy ∧ ¬ wants (ceding .queued .idle [])
      ∧ wants (flowing { site.comp with unit := .queued })
      ∧ (flowing { site.comp with unit := .queued }).station ∉ (flowing site.comp).peers.startQueue) := by
  refine ⟨by decide, by decide, by decide, by decide, by decide, by decide, by decide, by decide, by decide,
    ⟨by unfold wants; decide, by decide⟩, ⟨by unfold wants; decide, by decide⟩, by decide,
    ⟨by decide, rfl, rfl, fun _ => rfl⟩, by decide, by decide, by decide, by decide, by decide, ?_⟩
  unfold wants
  decide

/-- A running, a starting and a stopping unit, and samples of each feedback: the clauses of the feedback table. -/
theorem witness_FeedbacksAndPath :
    (let s (u : UnitState) (last : Feedback) (trips : List Nat) : State :=
        withComp { site.comp with unit := u, command := Sys2Proof.Machine.commandOf u, feedback := some last, trips := trips };
      (∀ u last trips, (s u last trips).powered = true ∧ (s u last trips).link.restartPending = false
          ∧ (s u last trips).mon.sized ∧ (s u last trips).intake.lastSequence ≠ some 5)
        ∧ voidSample.sequence = 5 ∧ ({ voidSample with feedback := some .tripped } : Sample).feedback = some .tripped
        ∧ (s .starting .starting []).comp.feedback ≠ some .tripped ∧ (s .running .running []).comp.unit = .running
        ∧ 2 ≤ ((s .running .running [86399, 5]).comp.trips.filter (· < 86400)).length
        ∧ ((s .running .running [86400, 5]).comp.trips.filter (· < 86400)).length < 2
        ∧ (s .starting .starting []).comp.cedePending = false ∧ (s .starting .starting []).roomy
        ∧ (s .starting .starting []).train.mode ≠ .config ∧ (s .starting .starting []).train.mode ≠ .shutIn
        ∧ (s .starting .starting []).train.mode ≠ .hold ∧ 0 < site.cfg.minRun ∧ site.cfg.autoRestart = 1
        ∧ site.cfg.minStop * 60 ≤ (s .tripped .stopped []).comp.stopTimer
        ∧ (s .starting .starting []).intake.handed.command ≠ .run ∧ (s .starting .starting []).intake.sending = none
        ∧ (s .starting .starting []).train.mode = .idle ∧ ({ figures with minRun := 0 } : Image).minRun = 0)
    ∧ (let s : State := withComp { site.comp with unit := .stopping, awaiting := true };
      s.comp.unit = .stopping ∧ s.comp.awaiting = true)
    ∧ (let s : State := { withLink { state := .active, queue := [waitingClaim] } with
                           comp := { site.comp with claimInFlight := true } };
      s.comp.unit = .stopped ∧ s.comp.claimInFlight = true ∧ ∃ e ∈ s.link.queue, e.telegram = .claim ∧ e.onLine = false)
    ∧ ¬ stopDue (flowing { site.comp with unit := .running }) ∧ voidSample.feedback = none
    ∧ (let held : HeldValues := { header := some ⟨6150, 300⟩, wellhead := some ⟨6000, 0⟩, suction := some ⟨6000, 300⟩
                                  discharge := some ⟨21000, 0⟩ };
      let r : Interval := { dryInterval 0 0 with held := held };
      fresh r.held.header = some 6150 ∧ fresh r.held.wellhead = some 6000 ∧ (site.cfg.margin : Int) + site.cfg.band = 150
        ∧ fresh r.held.suction = some ((6000 : Nat) : Int) ∧ fresh r.held.discharge = some ((21000 : Nat) : Int)
        ∧ 1000 * 21000 / max 100 6000 = (site.cfg.capacity.getD 5 (0, 0)).1)
    ∧ (fresh (some ⟨6150, 301⟩) = none ∧ site.cfg.capacity.length = 6
      ∧ site.cfg.capacity.Pairwise (fun x y => x.1 < y.1) ∧ (inMode .inject).train.mode = .inject
      ∧ site.nom.hourDir = none)
    ∧ (let s : State := withComp { site.comp with path := .compressed, starts := [5, 600, 3599] };
      s.train.mode = .idle ∧ s.comp.unit = .stopped ∧ s.cfg.minStop * 60 ≤ s.comp.stopTimer
        ∧ 3 ≤ (s.comp.starts.filter (· < 3600)).length ∧ s.comp.startLimit = false) := by
  refine ⟨⟨fun _ _ _ => ⟨rfl, rfl, ⟨rfl, rfl⟩, nofun⟩, by decide⟩, by decide, by decide, ?_, by decide, by decide,
    by decide, by decide⟩
  unfold stopDue
  decide

theorem witness_LineFaults : site.atWork ∧ site.mon.sized ∧ site.link.state = .active
    ∧ (withLink { state := .joining }).link.state = .joining ∧ (withLink { state := .silent }).link.state = .silent
    ∧ (flowing site.comp).train.offerDir = none ∧ (withLink { state := .fault }).link.state = .fault
    ∧ (withLink { state := .fault }).link.join = .absent ∧ (withLink { state := .fault, join := .waiting }).link.join ≠ .absent := by
  decide

/-- `site` whose report cursor stands at a slot, with a crowded queue or not. -/
def reporting (cursor n : Nat) : State :=
  { withLink { state := .active, queue := List.replicate n waitingClaim } with
    acct := { site.acct with cursor := cursor, closedDay := some 812 } }

theorem witness_DayReportQueued : (reporting 0 5).steady ∧ (reporting 0 5).train.mode ≠ .config
    ∧ (reporting 0 5).acct.outstanding = false ∧ (reporting 0 5).link.queue.length ≤ 5
    ∧ (reporting 0 5).link.refusalMark = false ∧ nextReport (reporting 0 5) 0 0 ∧ nextReport (reporting 1 5) 1 1
    ∧ nextReport (reporting 4 5) 4 17 ∧ nextReport (reporting 17 5) 17 17
    ∧ ¬ (reporting 0 6).link.queue.length ≤ 5 := by
  have h : ∀ i, 4 ≤ i → i ≤ 16 → i ≠ 0 ∧ (reporting 4 5).cfg.configured i = false := by
    intro i h4 h16
    have : ∀ i < 17, 4 ≤ i → i ≠ 0 ∧ (reporting 4 5).cfg.configured i = false := by decide
    exact this i (by omega) h4
  refine ⟨by decide, by decide, by decide, by decide, by decide, ?_, ?_, ?_, ?_, by decide⟩
  · exact ⟨by omega, by omega, .inl rfl, fun i hi hj => absurd hj (by omega)⟩
  · exact ⟨by omega, by omega, .inr (by decide), fun i hi hj => absurd hj (by omega)⟩
  · exact h
  · exact fun i hi hj => absurd hj (by omega)

/-- A SAMPLE with values at the ends of their ranges. -/
def edgeSample : Sample :=
  { voidSample with header := some 25000, bedATemp := some (-400), cv := some 200000, feedback := some .running }

theorem witness_SampleTaken : site.steady ∧ site.intake.lastSequence ≠ some edgeSample.sequence
    ∧ site.intake.lastSequence = none ∧ edgeSample.header = some 25000 ∧ edgeSample.bedATemp = some (-400)
    ∧ edgeSample.cv = some 200000 ∧ voidSample.header = none ∧ voidSample.cv = none
    ∧ (let p : Sample := { voidSample with
        wellhead := some 25001, discharge := some 0, bedBTemp := some 3001, dewPoint := some (-401), cv := some 0 };
      p.wellhead = some 25001 ∧ p.bedBTemp = some 3001 ∧ p.cv = some 0)
    ∧ (withIntake { site.intake with lastSequence := some 5 }).intake.lastSequence = some voidSample.sequence
    ∧ (withIntake { site.intake with lastSequence := some 255 }).intake.lastSequence = some 255
    ∧ site.train.mode ≠ .hold ∧ ((inMode .hold).steady ∧ (inMode .hold).train.mode = .hold
      ∧ (inMode .hold).train.listenDone = true)
    ∧ (let s (h : List Nat) : State := { inMode .hold with
        train := { site.train with mode := .hold, listenDone := false }, link := { site.link with haltSet := h } };
      (s []).train.listenDone = false ∧ (s []).link.haltSet = [] ∧ (s [29]).link.haltSet ≠ [])
    ∧ (atConfig.steady ∧ atConfig.train.mode = .config) ∧ site.train.mode ≠ .config
    ∧ (withIntake { site.intake with sending := some {} }).intake.sending ≠ none := by decide

/-- A difference of 500 litres is plausible over 1 s, and one of 501 is not. -/
theorem witness_MeterDifference : site.intake.meter.reading = none
    ∧ (let s := metered 1;
      s.steady ∧ s.train.mode ≠ .config ∧ s.mon.sized ∧ s.intake.lastSequence ≠ some voidSample.sequence
        ∧ voidSample.totalizerReset = false ∧ voidSample.meter = none ∧ s.intake.meter.reading = some 3000000000
        ∧ s.intake.meter.restoreMark = false ∧ 3000000500 < 4294967296 ∧ (3000000000 + 500) % 4294967296 = 3000000500
        ∧ 500 ≤ s.cfg.qmax * max 1 s.intake.meterSpan * 5 / 4 ∧ ¬ 501 ≤ s.cfg.qmax * max 1 s.intake.meterSpan * 5 / 4
        ∧ s.intake.suspense .withdraw = none ∧ s.intake.meterSpan ≤ 1 ∧ 1 < (metered 2).intake.meterSpan)
    ∧ ({ voidSample with totalizerReset := true } : Sample).totalizerReset = true
    ∧ (let s : State := { metered 1 with intake := { (metered 1).intake with
        meter := { reading := some 3000000000, restoreMark := true } } };
      s.intake.meter.restoreMark = true ∧ (3000000000 + 0) % 4294967296 = 3000000000)
    ∧ (holdingRecord openRecord).intake.suspense .withdraw = some openRecord
    ∧ (let b : Baseline := { reading := some 4294967295 };
      b.reading = some 4294967295 ∧ (4294967295 + 2147483647) % 4294967296 = 2147483646
        ∧ (4294967295 + 2147483648) % 4294967296 = 2147483647) := by decide

theorem witness_SetpointSent : site.powered = true ∧ site.intake.sending = none
    ∧ (withIntake { site.intake with sending := some {} }).intake.sending ≠ none := by decide

theorem witness_IntakeTimers : site.steady ∧ site.mon.sized
    ∧ (let s (n : Nat) := withIntake { site.intake with fieldTimer := n };
      (3 ≤ (s 3).intake.fieldTimer ∧ (s 3).intake.lateRaised = false)
        ∧ ¬ (3 ≤ (s 2).intake.fieldTimer ∧ (s 2).intake.lateRaised = false)
        ∧ (30 ≤ (s 30).intake.fieldTimer ∧ (s 30).intake.fieldLost = false)
        ∧ ¬ (30 ≤ (s 29).intake.fieldTimer ∧ (s 29).intake.fieldLost = false) ∧ (s 30).roomy
        ∧ (inMode .hold).train.mode = .hold
        ∧ (s 30).train.mode ≠ .config ∧ (s 30).train.mode ≠ .hold ∧ (s 30).train.mode ≠ .shutIn)
    ∧ atConfig.train.mode = .config
    ∧ ((holdingRecord { openRecord with age := 86400 }).intake.suspense .withdraw = some { openRecord with age := 86400 }
      ∧ openRecord.oldRaised = false)
    ∧ (holdingRecord { openRecord with age := 86399 }).intake.suspense .withdraw = some { openRecord with age := 86399 } := by
  decide

/-- A train in LISTEN whose JOIN time is given. -/
def listening (join : Nat) : State := withTrain { site.train with mode := .listen, listenDone := false, joinTime := some join }

theorem witness_ListenMarks : (listening 70206680).steady ∧ (listening 70206680).train.mode = .listen
    ∧ listenOver (listening 70206680) ∧ (listening 70206681).steady ∧ ¬ listenOver (listening 70206681)
    ∧ site.train.mode ≠ .listen := by
  refine ⟨by decide, by decide, ⟨rfl, 70206680, rfl, by decide, .inr (by decide)⟩, by decide, ?_, by decide⟩
  rintro ⟨-, j, hj, -, hv | hv⟩ <;> obtain rfl : 70206681 = j := by simpa [listening, withTrain] using hj
  · exact absurd hv (by decide)
  · exact absurd hv (by decide)

theorem witness_RunTimers :
    (let s (n : Nat) := withComp { site.comp with unit := .starting, startTimer := some n };
      (s 180).atWork ∧ (s 180).mon.sized ∧ (s 180).comp.unit = .starting ∧ (s 180).comp.startTimer = some 180
        ∧ (s 180).comp.cedePending = false ∧ (s 180).roomy ∧ (s 179).comp.startTimer = some 179
        ∧ (s 179).train.mode ≠ .shutIn)
    ∧ (let s (run idle : Nat) := flowing { site.comp with unit := .running, runTimer := run, zeroDemand := idle };
      (s 600 300).steady ∧ (s 600 300).comp.unit = .running ∧ stopDue (s 600 300) ∧ ¬ stopDue (s 599 300)
        ∧ ¬ stopDue (s 600 299)) := by
  unfold stopDue
  decide

theorem witness_StopTimers :
    (let s (n : Nat) := withComp { site.comp with unit := .tripped, stopTimer := n, feedback := some .stopped };
      (s 600).steady ∧ (s 600).comp.unit = .tripped ∧ (s 600).cfg.autoRestart = 1
        ∧ (s 600).cfg.minStop * 60 ≤ (s 600).comp.stopTimer ∧ (s 600).comp.feedback = some .stopped
        ∧ ¬ (s 599).cfg.minStop * 60 ≤ (s 599).comp.stopTimer)
    ∧ (flowing site.comp).steady ∧ (flowing site.comp).comp.unit = .stopped ∧ startDue (flowing site.comp)
    ∧ (flowing site.comp).roomy ∧ ¬ startDue (flowing { site.comp with starts := [3599, 5, 4] })
    ∧ startDue (flowing { site.comp with starts := [3600, 5, 4] }) ∧ ¬ startDue site
    ∧ site.comp.claimInFlight = false := by
  refine ⟨by decide, by decide, by decide, ?_⟩
  unfold startDue wants
  decide

theorem witness_HistoryTimers : site.steady ∧ (withComp { site.comp with unit := .lockout }).comp.unit = .lockout
    ∧ (let s (age : Nat) := { withComp { site.comp with unit := .queued } with
                               peers := { site.peers with startQueue := [2, 1], headAge := age } };
      (s 210).steady ∧ (s 210).peers.startQueue = 2 :: [1] ∧ (s 210).peers.copySound ∧ 210 ≤ (s 210).peers.headAge
        ∧ (s 209).peers.headAge < 210 ∧ (s 210).comp.unit = .queued ∧ [1].head? = some (s 210).station
        ∧ (s 210).train.mode ≠ .shutIn)
    ∧ (withComp { site.comp with unit := .queued }).comp.unit = .queued := by decide

theorem witness_PhaseMaxima : site.atWork ∧ site.mon.sized
    ∧ (let s (n : Nat) := { site with dryer := { bedA := { state := .heating, phaseTimer := some n } } };
      (s 21600).atWork ∧ ((s 21600).dryer.bed .a).state = .heating ∧ ((s 21600).dryer.bed .a).phaseTimer = some 21600
        ∧ (s 21600).cfg.dryer.heatMaximum * 60 ≤ 21600 ∧ 21599 < (s 21599).cfg.dryer.heatMaximum * 60)
    ∧ (let s := { site with dryer := { bedB := { state := .cooling, phaseTimer := some 10800 } } };
      (s.dryer.bed .b).phaseTimer = some 10800 ∧ s.cfg.dryer.coolMaximum * 60 ≤ 10800)
    ∧ (site.dryer.bed .a).state ≠ .heating := by decide

theorem witness_ApportionsExactly : (List.replicate 17 0).length = 17 ∧ (List.replicate 17 0).sum = 0
    ∧ (0 :: 3 :: List.replicate 15 1).length = 17 ∧ 0 < (0 :: 3 :: List.replicate 15 1).sum := by decide

/-- Slot 1 with an inventory and all of the weight. -/
def stocked (n : Int) : State :=
  { site with acct := { site.acct with slots := [{}, { inventory := n }] ++ List.replicate 15 {} } }
def onlySlot1 : List Nat := [0, 1] ++ List.replicate 15 0

/-- 1,000 l at a CV of 10 kWh a litre and thousand are 10 kWh and fill the booked space of 100,000 exactly; 1,100 l are 11
kWh, pass it, and raise SPACE_OVER with the slot and the site inventory, once (R5). A withdrawal of 11 from 4 leaves 7 to
slot 0 (R43, R44), and a charge of 11 too (R48). -/
theorem test_shortfalls :
    let inj (v : Nat) (s : State) := (bookEnergy .inject v 100000 onlySlot1 none s).2.2
    let rows (s : State) := s.mon.exceptions.map (fun r => (r.code, r.slot, r.value))
    rows (inj 1000 (stocked 99990)) = [] ∧ rows (inj 1100 (stocked 99990)) = [(condCode .spaceOver, 1, 100001)]
      ∧ rows (inj 1100 (inj 1100 (stocked 99990))) = [(condCode .spaceOver, 1, 100001)]
      ∧ rows (bookEnergy .withdraw 1100 100000 onlySlot1 none (stocked 4)).2.2 = [(condCode .capShortfall, 1, 7)]
      ∧ rows (bookFuel .compressor 11 onlySlot1 (stocked 4)) = [(condCode .fuelShortfall, 1, 7)]
      ∧ rows (bookInterval 1100 100000 0 (withTrain { site.train with lastFlow := none }))
        = [(condCode .strayFlow, 0, 11)] := by decide +kernel

/-- A slot moved by a suspense booking that is not configured is not compared (the model's choice, assumption 63). -/
theorem test_space_unconfigured : (compareSpaces (List.replicate 17 1)
    { site with acct := { site.acct with slots := List.replicate 4 {} ++ List.replicate 13 { inventory := 5 } } }).mon
      = site.mon := by decide +kernel

theorem witness_InventorySumLaw : site.sized ∧ site.mon.sized ∧ (bookingWeights .inject site.nom.confirmed).length = 17
    ∧ (bookingWeights .withdraw site.nom.confirmed).getD 0 0 = 0
    ∧ (let s := withBeds .standby .adsorbing;
      (s.dryer.bed .b).state = .adsorbing ∧ (s.dryer.bed (otherBed .b)).state ≠ .adsorbing)
    ∧ ((inMode .inject).train.mode = flowMode .inject ∧ (inMode .withdraw).train.mode = flowMode .withdraw)
    ∧ (site.train.mode ≠ .inject ∧ site.train.mode ≠ .withdraw ∧ 0 < 1 ∧ site.train.lastFlow.getD .inject = .withdraw)
    ∧ (let d : Due := { console := 20, command := 7, arg := 2, litres := 2350, book := 2350 };
      let s := holdingRecord { openRecord with due := some d };
      s.sized ∧ s.train.mode ≠ .config ∧ s.intake.suspense .withdraw = some { openRecord with due := some d } ∧ s.roomy)
    ∧ ((holdingRecord openRecord).intake.suspense .withdraw = some openRecord ∧ openRecord.due = none)
    ∧ (let s := withTrain { site.train with lastFlow := none };
      s.train.mode ≠ .inject ∧ s.train.mode ≠ .withdraw ∧ 0 < 1 ∧ s.train.lastFlow = none)
    ∧ (onlySlot1.length = 17 ∧ onlySlot1.getD 0 0 = 0 ∧ (stocked 4).inventory 1 = 4 ∧ site.cfg.configured 1 = true
      ∧ (site.cfg.shipper 1).space = 100000 ∧ (stocked 4).mon.sized ∧ site.cfg.escalates 12 = true
      ∧ site.mon.exceptions.length < 8)
    ∧ (-5000000 ≤ (-5000000 : Int) ∧ (-5000000 : Int) ≤ 4999999) ∧ (0 ≤ (9999999 : Int) ∧ (9999999 : Int) ≤ 9999999) := by
  refine ⟨site_sized, by decide, by decide, by decide, by decide, by decide, by decide,
    ⟨⟨rfl, rfl, rfl, rfl, nofun, ?_⟩, by decide, rfl, by decide⟩, by decide, by decide, by decide, by decide, by decide⟩
  rintro _ ⟨⟩
  rfl

theorem witness_DayCloses : site.sized ∧ site.mon.sized ∧ nextReport site site.acct.cursor 17
    ∧ nextReport (reporting 2 3) (reporting 2 3).acct.cursor 2 ∧ (∀ e ∈ (reporting 2 3).link.queue, e.onLine = false)
    ∧ (∃ e ∈ (sending sentDay).link.queue, e.owner = .dayCursor ∧ e.onLine = true)
    ∧ (∃ e ∈ (sending sentDay).link.queue, e.owner ≠ .dayCursor)
    ∧ nextReport (reporting 2 3) (2 + 1) 3 ∧ nextReport (reporting 3 3) (3 + 1) 17
    ∧ (reporting 2 3).mon.exceptions.length < 8 ∧ (reporting 2 3).cfg.escalates (condCode .reportLost) = true := by
  refine ⟨site_sized, by decide, fun i hi hj => ?_, ⟨by decide, by decide, .inr (by decide), fun i hi hj => ?_⟩, by decide,
    ⟨sentDay, by decide, by decide⟩, ⟨waitingClaim, by decide, by decide⟩,
    ⟨by decide, by decide, .inr (by decide), fun i hi hj => absurd hj (by omega)⟩, fun i hi hj => ?_, by decide, by decide⟩
  · exact absurd (show 17 ≤ i from hi) (by omega)
  · exact absurd (show 2 ≤ i from hi) (by omega)
  · have : ∀ i < 17, 4 ≤ i → i ≠ 0 ∧ (reporting 3 3).cfg.configured i = false := by decide
    exact this i (by omega) hi

/-- Slots 2 and 3 were left over: REPORT_LOST names slot 2 and two reports; a report of slot 2 on the line stays, belongs to
no close, and leaves slot 3 alone (R9, R11). -/
theorem test_reports_left :
    (closeDay 813 (reporting 2 3)).mon.exceptions.map (fun r => (r.slot, r.value)) = [(2, 2)]
    ∧ (let t := closeDay 813 { reporting 2 0 with link := (sending sentDay).link };
      t.mon.exceptions.map (fun r => (r.slot, r.value)) = [(3, 1)] ∧ (t.link.queue.map (·.owner)).contains .pastClose) := by
  decide +kernel

/-- A train under an hour direction, with a target of 5,000 kW, beds STANDBY and a free path. -/
def under (t : Train) (d : Dir) : State :=
  { withTrain t with
    nom := { hourDir := d, target := 5000 }
    dryer := { bedA := { state := .standby }, bedB := { state := .standby } }
    comp := { site.comp with unit := .running, path := .free }
    intake := { site.intake with lineup := some (flowLineup .inject) } }

/-- Trains that flow in INJECT, ramp down out of it, and dwell since a second. -/
def injecting : Train :=
  { site.train with mode := .inject, lineup := .inject, lastFlow := some .inject, demand := 250000, share := 4 }
def ramping : Train := { injecting with mode := .reversing, phase := some .ramp }
def dwelling (since : Nat) : Train := { site.train with mode := .reversing, phase := some .dwell, dwell := some since }

/-- A minute at a wellhead pressure of 9,000, half of the way into the taper of 2,000 above 8,000. -/
def pressed : Interval := { dryInterval 0 0 with held := { wellhead := some ⟨9000, 0⟩ } }

/-- An hour against the flow: 250,000 falls by the ramp rate of 100,000, and from 100,000 the dwell starts. In the
direction of the flow the demand steps down to the offer's share; the dwell of 10 minutes ends after 600 s; a train in IDLE
enters (R59, R60, R62, R63, R64, R69). -/
theorem test_minute :
    (let t := (modeMinute pressed (under injecting (some .withdraw))).train;
      t.mode = .reversing ∧ t.phase = some .ramp ∧ t.demand = 150000)
    ∧ (let t := (modeMinute pressed (under { ramping with demand := 100000 } (some .withdraw))).train;
      t.mode = .reversing ∧ t.phase = some .dwell ∧ t.demand = 0 ∧ t.dwell = some 70206800 ∧ t.lineup = .closed)
    ∧ (let t := (modeMinute pressed (under ramping (some .inject))).train;
      t.mode = .inject ∧ t.demand = 150000 ∧ t.share = 5000 ∧ t.offer = 600000)
    ∧ (let t := (modeMinute pressed (under (dwelling 70206200) (some .inject))).train;
      t.mode = .inject ∧ t.lineup = .inject ∧ t.demand = 0)
    ∧ (modeMinute pressed (under (dwelling 70206201) (some .inject))).train.phase = some .dwell
    ∧ (modeMinute pressed (under site.train (some .withdraw))).train.mode = .withdraw
    ∧ envelopeLimit figures .withdraw (some 9000) = some 300000 := by decide +kernel

/-- States that meet the clauses of the minute work: a turn, a ramp and a dwell on each side of their tests, a flow with
its direction and without, an entry and none, and a ring of 61 places. -/
theorem witness_MinuteRates : site.train.mode ≠ .config ∧ site.train.lineupSound
    ∧ site.nom.hourDir = none ∧ (inMode .hold).train.lineupSound
    ∧ (nominationHour (morning [])).nom.hourDir = some .withdraw ∧ (nominationHour (morning [])).train.lineupSound
    ∧ (withLink { state := .fault }).link.state = .fault
    ∧ (let s := under injecting (some .withdraw);
      s.train.mode = flowMode .inject ∧ s.nom.hourDir = some (opposite .inject) ∧ s.train.lineupSound)
    ∧ (let s := under ramping (some .inject);
      s.train.mode = .reversing ∧ s.train.phase = some .ramp ∧ s.train.lastFlow = some .inject ∧ s.train.lineupSound)
    ∧ (under ramping none).nom.hourDir ≠ some .inject ∧ (under injecting none).train.mode = flowMode .inject
    ∧ (let s (n : Nat) := under (dwelling n) (some .inject);
      (∀ n, (s n).train.mode = .reversing ∧ (s n).train.phase = some .dwell ∧ (s n).train.lineupSound)
        ∧ (s 0).nom.hourDir ≠ (s 0).train.lastFlow ∧ dwellOver (s 70206200) = true ∧ dwellOver (s 70206201) = false
        ∧ (under (dwelling 0) (some .withdraw)).train.lastFlow = some .withdraw)
    ∧ (let s := under site.train (some .inject);
      s.train.mode = .idle ∧ s.train.lineupSound ∧ mayEnterNow s (modeMinute pressed s) .inject ∧ offersIn s .inject)
    ∧ (¬ mayEnterNow (under site.train (some .inject)) site .inject
      ∧ ¬ offersIn (withTrain { site.train with mode := .hold }) .inject)
    ∧ (let g : Ring := { places := List.replicate 61 0, write := 60, count := 61 }; g.places.length = 61 ∧ g.write < 61) := by
  refine ⟨by decide, ?_, by decide, ?_, by decide +kernel, ?_, by decide, ⟨rfl, rfl, ?_⟩, ⟨rfl, rfl, rfl, rfl⟩, by decide,
    rfl, ⟨fun _ => ⟨rfl, rfl, ?_⟩, by decide, by decide, by decide, rfl⟩, ⟨rfl, ?_, ?_, ?_⟩, ⟨?_, ?_⟩, by decide⟩
  · show site.train.lineup = .closed ∧ site.train.demand = 0 ∧ site.train.phase = none
    decide
  · show (inMode .hold).train.lineup = .closed ∧ (inMode .hold).train.demand = 0 ∧ (inMode .hold).train.phase = none
    decide
  · show site.train.lineup = .closed ∧ site.train.demand = 0 ∧ site.train.phase = none
    decide
  · exact ⟨rfl, rfl, rfl⟩
  · exact ⟨rfl, rfl⟩
  · exact ⟨rfl, rfl, rfl⟩
  · exact ⟨by decide +kernel, rfl, fun h => absurd h.1 (by decide), nofun⟩
  · exact ⟨.inl rfl, fun h => absurd h.1 (by decide), by decide, by decide⟩
  · exact fun h => absurd h.1 (by decide)
  · exact fun h => absurd h.1 (by decide)

theorem witness_FormatsAgree : (Instr.claim 31 255).wellFormed = true ∧ (encodeTelegram (.claim 31 255)).isSome = true
    ∧ (Instr.noms 22 0 255 65535 255 (-2147483648)).wellFormed = true ∧ (Instr.unknownKind 1 0 11).wellFormed = true
    ∧ edgeSample.wellFormed = true ∧ (lineBits (sending sentClaim)).isSome = true
    ∧ sentBytes (sending sentClaim) = some (sealed16 (bytes [1, 6, 0, 0]))
    ∧ (wholeTelegram (sealed16 (bytes [1, 7, 0, 0])) = true
      ∧ fieldAt (sealed16 (bytes [1, 7, 0, 0])) 0 1 % 32 = (sending sentClaim).station)
    ∧ sentBytes site = none := by decide +kernel

/-- A full exception list. -/
def eightRecords : List ExceptionRecord := List.replicate 8 { code := 1, day := 812, second := 7, slot := 0, value := 9 }

/-- An OFFER that waits, with three echo mismatches. -/
def offerWaiting : Entry :=
  { telegram := .offer none 0 0 0 .idle .stopped, owner := .other, mismatches := 3, ticket := 8 }

theorem witness_TransmitQueue :
    (let s := withLink { state := .active, queue := crowd false, refusalMark := true, nextTicket := 12 };
      s.train.mode ≠ .config ∧ s.link.queueSound ∧ s.mon.sized ∧ (∀ e ∈ s.link.queue, replaces .claim e = false)
        ∧ (∀ x ∈ s.link.queue, ∀ y ∈ s.link.queue, x.ticket = y.ticket → x = y) ∧ s.link.queue.length = 12
        ∧ telegramClass sentDay.telegram = 3 ∧ s.link.refusalMark = true
        ∧ ({ telegram := sentDay.telegram, owner := .other, ticket := 11 } : Entry) ∈ s.link.queue.filter
            (fun x => telegramClass .claim < telegramClass x.telegram)
        ∧ ∀ x ∈ s.link.queue, x.ticket ≤ 11)
    ∧ (let s := withLink { state := .active, queue := crowd true, refusalMark := true, nextTicket := 12 };
      s.link.queueSound ∧ s.link.queue.length = 12
        ∧ s.link.queue.filter (fun x => telegramClass .claim < telegramClass x.telegram) = [])
    ∧ site.link.queue.length < 12 ∧ site.link.refusalMark = false
    ∧ (let s := withLink { state := .active, queue := [waitingClaim, offerWaiting] };
      s.train.mode ≠ .config ∧ ∃ e ∈ s.link.queue, replaces (.offer none 1 1 1 .idle .stopped) e = true)
    ∧ site.mon.sized ∧ site.mon.summary.length = 31 ∧ site.train.mode ≠ .config ∧ site.cfg.escalation.testBit 15 = true
    ∧ site.admits ∧ ¬ (withLink { state := .active, refusalMark := true }).admits ∧ atConfig.train.mode = .config
    ∧ site.mon.exceptions.length < 8 ∧ ¬ (eightRecords.length < 8)
    ∧ atConfig.train.mode = .config ∧ (inMode .shutIn).train.mode = .shutIn
    ∧ (withLink { state := .fault }).link.state = .fault ∧ (withComp { site.comp with unit := .lockout }).comp.unit = .lockout
    ∧ true ∈ ({ summary := [true] } : Monitor).summary := by decide +kernel

/-- An OFFER takes the content of the waiting one and its place (R146). The ninth exception is not kept and counts as lost,
and its report says so; with the mark set it is refused, and TX_DROP stands beside it (R147, R157). Of the causes 4 and 7 the
pins show 4 (R159). -/
theorem test_offer_replaced : (enqueue (.offer none 1 1 1 .idle .stopped) .other
    (withLink { state := .active, queue := [waitingClaim, offerWaiting] })).link.queue
      = [waitingClaim, { offerWaiting with telegram := .offer none 1 1 1 .idle .stopped }] := by decide +kernel
theorem test_ninth_exception :
    let full : Monitor := { site.mon with exceptions := eightRecords, lostCount := 5 }
    let record : ExceptionRecord := { code := condCode .dewHigh, day := 812, second := 50000, slot := 0, value := 3 }
    let t := raise .dewHigh 0 3 { site with mon := full }
    t.mon.exceptions = full.exceptions ∧ t.mon.lostCount = 6 ∧ causePins t = 7
      ∧ t.link.queue.map (·.telegram) = [.condition { record := record, counter := 1, kept := false, lostCount := 6 }]
      ∧ (let u := raise .dewHigh 0 3 (withLink { state := .fault, refusalMark := true });
        u.link.queue = [] ∧ u.mon.counters.getD (condCode .txDrop - 1) 0 = 1 ∧ causePins u = 4) := by decide +kernel

theorem witness_ShippersStayWhole : (∀ n u l, (queued [.clockSecond]).pending.head? ≠ some (.powerOnReset n u l))
    ∧ (queued [.clockSecond]).sized ∧ (queued [.clockSecond]).shippersSound
    ∧ ∃ t, step (queued [.clockSecond]) = .next t :=
  ⟨fun _ _ _ => by simp [queued], site_sized, by decide, _, rfl⟩

theorem witness_QueuesStaySound : (queued [.claim 2 0]).link.queueSound ∧ (queued [.claim 2 0]).peers.copySound
    ∧ ∃ t, step (queued [.claim 2 0]) = .next t := ⟨by decide, by decide, _, rfl⟩

theorem witness_CommandsStaySound : (queued [.clockSecond]).train.lineupSound ∧ (queued [.clockSecond]).comp.commandSound
    ∧ (queued [.clockSecond]).setpointSound ∧ ∃ t, step (queued [.clockSecond]) = .next t := by
  refine ⟨?_, by decide, by decide, _, rfl⟩
  show site.train.lineup = .closed ∧ site.train.demand = 0 ∧ site.train.phase = none
  decide

theorem witness_BedsStaySound : (∀ n u l, (queued [.clockSecond]).pending.head? ≠ some (.powerOnReset n u l))
    ∧ (queued [.clockSecond]).dryer.sound ∧ ∃ t, step (queued [.clockSecond]) = .next t :=
  ⟨fun _ _ _ => by simp [queued], by decide, _, rfl⟩

end Sys2Proof.Tests
end

section
/-! PROOFS. An INVT of a peer (R24, R32): what the part takes of it into its view, and what it leaves as it was. -/

namespace Sys2Proof.Machine

variable (s : State)

/-! ### The handing of SETPOINT fields -/

/-- Of the intake the handing writes only the fields handed and the sending of them (R132). -/
theorem handAll_intake : (handAll s).intake = s.intake.handing (handAll s).intake := by
  rw [Intake.mk.injEq]; simp

/-- The handing of SETPOINT fields changes nothing but the SETPOINT sending (R71, R88, R106, R132). -/
theorem handAll_eq_handing : handAll s = { s with intake := s.intake.handing (handAll s).intake } := by
  rw [← handAll_intake]; exact handAll_eq s

/-! ### The half record -/

/-- A view hears its half alone: the record of the other half stays, and no other half number has a record (R24). -/
theorem PeerView.hear_eq (half : Nat) (inventories : List Int) (v : PeerView) :
    v.hear half inventories = { v with half1 := if half = 1 then some inventories else v.half1
                                       half2 := if half = 2 then some inventories else v.half2 } := by
  match half with
  | 0 | 1 | 2 | _ + 3 => simp [PeerView.hear]

theorem PeerView.hear_of_unknown_half {half : Nat} (h1 : half ≠ 1) (h2 : half ≠ 2) (inventories : List Int)
    (v : PeerView) : v.hear half inventories = v := by
  simp [PeerView.hear_eq, h1, h2]

/-! ### The INVT taken -/

theorem takeInvt_of_unknown_half {half : Nat} (h1 : half ≠ 1) (h2 : half ≠ 2) (src : Nat) (inventories : List Int) :
    takeInvt src half inventories s = s := by
  simp [takeInvt, h1, h2]

/-- The peer tables after an INVT: the view of its source hears the half, every other view stays (R24). The test of LISTEN
and the sequencer's tests that a change of the view brings about write no peer table. -/
theorem takeInvt_peers (src half : Nat) (inventories : List Int) :
    (takeInvt src half inventories s).peers
      = { s.peers with view := s.peers.view.map (fun v => if v.station = src then v.hear half inventories else v) } := by
  by_cases hh : half = 1 ∨ half = 2
  · simp [takeInvt, hh]
  · obtain ⟨h1, h2⟩ := not_or.mp hh
    simp [takeInvt_of_unknown_half s h1 h2, PeerView.hear_of_unknown_half h1 h2]

/-- What an INVT leaves as it was: the nominations with the confirmed hour, the accounts, the clock, the dryer. -/
theorem takeInvt_frame (src half : Nat) (inventories : List Int) :
    (takeInvt src half inventories s).nom = s.nom ∧ (takeInvt src half inventories s).acct.slots = s.acct.slots ∧
    (takeInvt src half inventories s).clock = s.clock ∧ (takeInvt src half inventories s).dryer = s.dryer ∧
    (takeInvt src half inventories s).link.restartPending = s.link.restartPending := by
  unfold takeInvt; split <;> simp

/-- An INVT of a peer that the part hears is taken, and the event ends with the handing of the SETPOINT fields (R149). -/
theorem invt_exec {s : State} {src dst : Nat} (h : s.hears src dst) (hp : src ∈ s.cfg.expected) (half day hour : Nat)
    (inventories : List Int) :
    exec (.invt src dst half day hour inventories) s = .next (handAll (takeInvt src half inventories s)) := by
  have harm : exec (.invt src dst half day hour inventories) s = execInvt src dst half day hour inventories s := rfl
  have hsteady : (takeInvt src half inventories s).link.restartPending = false := by
    simpa [takeInvt_frame] using h.1.1.2
  rw [harm, execInvt, heard_exec h 10 _ _ (by simpa [fromTrain] using hp), finish_eq_handAll _ hsteady]

/-- Settles O22: an INVT writes one half record of its source's view, and the handing that ends the event writes only the
SETPOINT sending. -/
theorem invtTaken : Obligations.InvtTaken := by
  intro s src dst half day hour inventories hears hpeer
  obtain ⟨hnom, hslots, hclock, hdryer, -⟩ := takeInvt_frame s src half inventories
  refine ⟨_, invt_exec hears hpeer half day hour inventories, ?peers, ?unknown, ?frame⟩
  case peers => simp only [handAll_frame, takeInvt_peers, PeerView.hear_eq]
  case unknown =>
    intro h1 h2
    rw [takeInvt_of_unknown_half s h1 h2]
    exact handAll_eq_handing s
  case frame => simp [hnom, hslots, hclock, hdryer]

end Sys2Proof.Machine
end

section
/-! PROOFS. Largest-remainder apportionment (R41, R42): the slots in the order of their remainders, the units left over
after the rounding down, and the shares they make. -/

namespace Sys2Proof.Machine

/-! ### The order of the remainders -/

/-- The slots that take part in an apportionment: those with a weight (R41). -/
def participants (w : List Nat) : Finset Nat := {i ∈ Finset.range w.length | 0 < w.getD i 0}

/-- The order of R41, step 3: the larger remainder comes first, the lower slot first among equals. -/
abbrev comesBefore (rem : List Nat) (j i : Nat) : Prop :=
  rem.getD i 0 < rem.getD j 0 ∨ (rem.getD i 0 = rem.getD j 0 ∧ j < i)

variable {w rem : List Nat} {i j : Nat}

theorem mem_participants : i ∈ participants w ↔ i < w.length ∧ 0 < w.getD i 0 := by
  simp only [participants, Finset.mem_filter, Finset.mem_range]

theorem comesBefore_trans {k : Nat} (hkj : comesBefore rem k j) (hji : comesBefore rem j i) :
    comesBefore rem k i := by omega

/-- The rank of a slot counts the participants that come before it. -/
theorem remainderRank_eq_card :
    remainderRank w rem i = {j ∈ participants w | comesBefore rem j i}.card := by
  rw [participants, Finset.filter_filter]
  refine congrArg List.length (List.filter_congr fun j _ => ?_)
  simp only [comesBefore, gt_iff_lt, Bool.decide_and, Bool.decide_or, eq_comm]

/-- A participant that comes before a slot has the smaller rank. -/
theorem remainderRank_lt_of_comesBefore (hj : j ∈ participants w) (hji : comesBefore rem j i) :
    remainderRank w rem j < remainderRank w rem i := by
  simp only [remainderRank_eq_card]
  refine Finset.card_lt_card ⟨fun k hk => ?_, fun hsub => ?_⟩
  · obtain ⟨hk, hkj⟩ := Finset.mem_filter.mp hk
    exact Finset.mem_filter.mpr ⟨hk, comesBefore_trans hkj hji⟩
  · have hjj := (Finset.mem_filter.mp (hsub (Finset.mem_filter.mpr ⟨hj, hji⟩))).2
    omega

/-- No participant comes before itself, so a rank is below their number. -/
theorem remainderRank_lt_card (hi : i ∈ participants w) : remainderRank w rem i < (participants w).card := by
  rw [remainderRank_eq_card]
  refine Finset.card_lt_card (Finset.filter_ssubset.mpr ⟨i, hi, ?_⟩)
  omega

theorem remainderRank_injOn : Set.InjOn (remainderRank w rem) (participants w) := by
  intro i hi j hj hrank
  by_contra hne
  have htotal : comesBefore rem i j ∨ comesBefore rem j i := by omega
  obtain hij | hji := htotal
  · exact hrank.not_lt (remainderRank_lt_of_comesBefore hi hij)
  · exact hrank.not_gt (remainderRank_lt_of_comesBefore hj hji)

/-- The ranks of the participants are 0, 1, 2 and so on, each once. -/
theorem image_remainderRank : (participants w).image (remainderRank w rem) = Finset.range (participants w).card := by
  refine Finset.eq_of_subset_of_card_le (fun n hn => ?_) ?_
  · obtain ⟨i, hi, rfl⟩ := Finset.mem_image.mp hn
    exact Finset.mem_range.mpr (remainderRank_lt_card hi)
  · rw [Finset.card_range, Finset.card_image_of_injOn remainderRank_injOn]

/-- As many participants have a rank below `k` as `k` says, while there are so many. -/
theorem card_remainderRank_lt {k : Nat} (hk : k ≤ (participants w).card) :
    {i ∈ participants w | remainderRank w rem i < k}.card = k := by
  have himage : {i ∈ participants w | remainderRank w rem i < k}.image (remainderRank w rem) = Finset.range k := by
    rw [← Finset.filter_image (p := (· < k)), image_remainderRank]
    ext n
    simp only [Finset.mem_filter, Finset.mem_range]
    omega
  rw [← Finset.card_image_of_injOn (remainderRank_injOn.mono (Finset.filter_subset _ _)), himage, Finset.card_range]

/-! ### The units left over -/

variable (amount : Nat)

/-- The exact proportion of a slot, rounded down (R41, step 1). -/
def quotient (w : List Nat) (i : Nat) : Nat := amount * w.getD i 0 / w.sum

/-- What the rounding down of a slot's proportion leaves, in parts of the sum of the weights (R41, step 1). -/
def remainder (w : List Nat) (i : Nat) : Nat := amount * w.getD i 0 % w.sum

/-- The units that the quotients leave to give out (R41, step 2). -/
def leftover (w : List Nat) : Nat := amount - ∑ i ∈ Finset.range w.length, quotient amount w i

/-- The sum over a list of values as the sum over its slots. -/
theorem sum_map_eq_sum_range (f : Nat → Nat) (w : List Nat) :
    (w.map f).sum = ∑ i ∈ Finset.range w.length, f (w.getD i 0) := by
  have hslots : w.map f = (List.range w.length).map (fun i => f (w.getD i 0)) :=
    List.ext_getElem (by simp) (fun i hi _ => by
      have hi : i < w.length := by simpa using hi
      simp [hi])
  rw [hslots]; rfl

/-- The quotients and the remainders together are the whole amount, in parts of the sum of the weights. -/
theorem sum_quotient_add_sum_remainder (w : List Nat) :
    w.sum * ∑ i ∈ Finset.range w.length, quotient amount w i + ∑ i ∈ Finset.range w.length, remainder amount w i
      = w.sum * amount := by
  have hsum : w.sum = ∑ i ∈ Finset.range w.length, w.getD i 0 := by simpa using sum_map_eq_sum_range id w
  calc w.sum * ∑ i ∈ Finset.range w.length, quotient amount w i + ∑ i ∈ Finset.range w.length, remainder amount w i
      = ∑ i ∈ Finset.range w.length, amount * w.getD i 0 := by
        simp only [Finset.mul_sum, ← Finset.sum_add_distrib, quotient, remainder, Nat.div_add_mod]
    _ = w.sum * amount := by rw [← Finset.mul_sum, ← hsum, Nat.mul_comm]

/-- Only a participant has a remainder, and it is below the sum of the weights. -/
theorem sum_remainder_le (hw : 0 < w.sum) :
    ∑ i ∈ Finset.range w.length, remainder amount w i ≤ w.sum * (participants w).card := by
  calc ∑ i ∈ Finset.range w.length, remainder amount w i
      = ∑ i ∈ participants w, remainder amount w i := by
        refine (Finset.sum_filter_of_ne fun i _ hi => ?_).symm
        refine Nat.pos_of_ne_zero fun h0 => hi ?_
        rw [remainder, h0, Nat.mul_zero, Nat.zero_mod]
    _ ≤ (participants w).card • w.sum := Finset.sum_le_card_nsmul _ _ _ fun i _ => (Nat.mod_lt _ hw).le
    _ = w.sum * (participants w).card := by rw [smul_eq_mul, Nat.mul_comm]

theorem sum_quotient_le (hw : 0 < w.sum) : ∑ i ∈ Finset.range w.length, quotient amount w i ≤ amount :=
  Nat.le_of_mul_le_mul_left (Nat.le.intro (sum_quotient_add_sum_remainder amount w)) hw

/-- There is a participant for every unit left over. -/
theorem leftover_le_card (hw : 0 < w.sum) : leftover amount w ≤ (participants w).card := by
  refine Nat.le_of_mul_le_mul_left ?_ hw
  rw [leftover, Nat.mul_sub, ← sum_quotient_add_sum_remainder amount w, Nat.add_sub_cancel_left]
  exact sum_remainder_le amount hw

/-! ### The shares -/

/-- A slot receives one of the units left over: it takes part, and its rank is below their number (R41, step 3). -/
abbrev takesUnit (w : List Nat) (i : Nat) : Prop :=
  0 < w.getD i 0 ∧ remainderRank w (w.map (fun x => amount * x % w.sum)) i < leftover amount w

theorem apportion_of_no_weight (hw : w.sum = 0) :
    apportion amount w = amount :: List.replicate (w.length - 1) 0 := if_pos hw

/-- The entries of the lists of quotients and of remainders that `apportion` makes. -/
theorem quotients_getD (i : Nat) : (w.map (fun x => amount * x / w.sum)).getD i 0 = quotient amount w i := by
  simpa only [quotient, Nat.mul_zero, Nat.zero_div] using List.getD_map w 0 fun x => amount * x / w.sum

theorem remainders_getD (i : Nat) : (w.map (fun x => amount * x % w.sum)).getD i 0 = remainder amount w i := by
  simpa only [remainder, Nat.mul_zero, Nat.zero_mod] using List.getD_map w 0 fun x => amount * x % w.sum

theorem apportion_of_weight (hw : 0 < w.sum) :
    apportion amount w
      = (List.range w.length).map (fun i => quotient amount w i + if takesUnit amount w i then 1 else 0) := by
  rw [apportion, if_neg hw.ne']
  simp only [quotients_getD, sum_map_eq_sum_range]
  rfl

theorem apportion_getD (hw : 0 < w.sum) (hi : i < w.length) :
    (apportion amount w).getD i 0 = quotient amount w i + if takesUnit amount w i then 1 else 0 := by
  simp [apportion_of_weight amount hw, hi]

/-- A slot's share is its quotient, and one more exactly if it receives a unit. -/
theorem apportion_getD_eq_succ_iff (hw : 0 < w.sum) (hi : i < w.length) :
    (apportion amount w).getD i 0 = quotient amount w i + 1 ↔ takesUnit amount w i := by
  simp only [apportion_getD amount hw hi, Nat.add_left_cancel_iff, ite_eq_left_iff, zero_ne_one, imp_false, not_not]

/-- A unit goes to no slot before every participant that comes before it has one. -/
theorem takesUnit_of_comesBefore (hj : j ∈ participants w) (hi : takesUnit amount w i)
    (hji : comesBefore (w.map (fun x => amount * x % w.sum)) j i) : takesUnit amount w j :=
  ⟨(mem_participants.mp hj).2, (remainderRank_lt_of_comesBefore hj hji).trans hi.2⟩

/-- The slots that receive a unit are as many as the units left over. -/
theorem sum_takesUnit (hw : 0 < w.sum) :
    (∑ i ∈ Finset.range w.length, if takesUnit amount w i then 1 else 0) = leftover amount w := by
  rw [← Finset.card_filter, ← Finset.filter_filter]
  exact card_remainderRank_lt (leftover_le_card amount hw)

theorem apportion_length (hw : 0 < w.length) : (apportion amount w).length = w.length := by
  obtain h0 | hpos := w.sum.eq_zero_or_pos
  · rw [apportion_of_no_weight amount h0, List.length_cons, List.length_replicate, Nat.sub_add_cancel hw]
  · simp [apportion_of_weight amount hpos]

/-- The shares add up to the amount exactly (R41, R42). -/
theorem apportion_sum : (apportion amount w).sum = amount := by
  obtain h0 | hpos := w.sum.eq_zero_or_pos
  · simp [apportion_of_no_weight amount h0]
  · calc (apportion amount w).sum
        = ∑ i ∈ Finset.range w.length, (quotient amount w i + if takesUnit amount w i then 1 else 0) := by
          rw [apportion_of_weight amount hpos]; rfl
      _ = (∑ i ∈ Finset.range w.length, quotient amount w i) + leftover amount w := by
          rw [Finset.sum_add_distrib, sum_takesUnit amount hpos]
      _ = amount := Nat.add_sub_cancel' (sum_quotient_le amount hpos)

/-- Settles O50: the participants' ranks are 0, 1, 2 and so on, and there is one of them for every unit left over, so the
units given out are exactly those the quotients leave. -/
theorem apportionsExactly : Obligations.ApportionsExactly := by
  intro amount w hlen
  refine ⟨hlen ▸ apportion_length amount (by omega), apportion_sum amount, ?noWeight,
    fun hw i hi => ⟨?zeroWeight, ?roundedDownOrUp, ?remainderOrder⟩⟩
  case noWeight =>
    intro h0
    rw [apportion_of_no_weight amount h0, hlen]
  case zeroWeight =>
    intro hwi
    have hnone : ¬ takesUnit amount w i := fun hunit => hwi.not_gt hunit.1
    rw [apportion_getD amount hw (hlen ▸ hi), if_neg hnone, quotient, hwi, Nat.mul_zero, Nat.zero_div]
  case roundedDownOrUp =>
    rw [apportion_getD amount hw (hlen ▸ hi)]
    split
    · exact .inr rfl
    · exact .inl rfl
  case remainderOrder =>
    intro j hj hwj hshare horder
    have hunit := (apportion_getD_eq_succ_iff amount hw (hlen ▸ hi)).mp hshare
    refine (apportion_getD_eq_succ_iff amount hw (hlen ▸ hj)).mpr
      (takesUnit_of_comesBefore amount (mem_participants.mpr ⟨hlen ▸ hj, hwj⟩) hunit ?_)
    simpa only [comesBefore, remainders_getD, remainder] using horder

end Sys2Proof.Machine
end

section
/-! PROOFS. The ORDER RELEASE (R57, R67): how its outcome and the state it leaves follow from the train mode, the halt set,
the field-lost flag and the test of LISTEN. -/

namespace Sys2Proof.Machine

variable {s : State}

/-! ### The train taken to HOLD or LISTEN (R57, R65) -/

/-- HOLD stops the train: no demand, and the lineup CLOSED (R65). -/
theorem enterHold_train : (enterHold s).train.mode = .hold ∧ (enterHold s).train.demand = 0
    ∧ (enterHold s).train.lineup = .closed := by
  simp [enterHold, queueOffer, stopTrain, setDemand]

/-- The time in LISTEN is counted from the JOIN time; no other field of the train bears on it (R57). -/
theorem listenOver_onTrain {f : Train → Train} (hf : (f s.train).joinTime = s.train.joinTime) :
    listenOver (s.onTrain f) ↔ listenOver s := by
  unfold listenOver
  rw [State.onTrain_train, hf]
  rfl

/-- With no station halting and the field there, entry into LISTEN is its test (R57). -/
theorem enterListen_eq_listenTest (hh : s.link.haltSet = []) (hf : s.intake.fieldLost = false) :
    enterListen s = listenTest (s.onTrain (fun t => { t with mode := .listen })) := by
  simp [enterListen, hh, hf]

/-! ### The release (R67), branch by branch -/

theorem release_of_fieldLost (hf : s.intake.fieldLost = true) : release s = enterHold s := if_pos hf

theorem release_of_listenDone (hf : s.intake.fieldLost = false) (hl : s.train.listenDone = true) :
    release s = s.onTrain (fun t => { t with mode := .idle }) := by
  simp [release, hf, hl]

theorem release_of_not_listenDone (hh : s.link.haltSet = []) (hf : s.intake.fieldLost = false)
    (hl : s.train.listenDone = false) :
    release s = listenTest (s.onTrain (fun t => { t with mode := .listen })) := by
  rw [← enterListen_eq_listenTest hh hf]
  simp [release, hf, hl]

/-- LISTEN is over at once when its time is over (R57). -/
theorem release_of_listenOver (hh : s.link.haltSet = []) (hf : s.intake.fieldLost = false)
    (hl : s.train.listenDone = false) (ho : listenOver s) :
    (release s).train = { s.train with mode := .idle, listenDone := true } := by
  rw [release_of_not_listenDone hh hf hl, listenTest_pos ⟨rfl, (listenOver_onTrain rfl).mpr ho⟩]
  rfl

theorem release_of_not_listenOver (hh : s.link.haltSet = []) (hf : s.intake.fieldLost = false)
    (hl : s.train.listenDone = false) (ho : ¬ listenOver s) :
    (release s).train = { s.train with mode := .listen } := by
  rw [release_of_not_listenDone hh hf hl, listenTest_neg fun h => ho ((listenOver_onTrain rfl).mp h.2)]
  rfl

/-- With no station halting, a train released is in HOLD, IDLE or LISTEN (R67). -/
theorem release_mode (hh : s.link.haltSet = []) : (release s).train.mode = .hold ∨ (release s).train.mode = .idle
    ∨ (release s).train.mode = .listen := by
  cases hf : s.intake.fieldLost with
  | true => exact .inl (release_of_fieldLost hf ▸ enterHold_train.1)
  | false =>
    cases hl : s.train.listenDone with
    | true => exact .inr (.inl (by rw [release_of_listenDone hf hl]; rfl))
    | false =>
      by_cases ho : listenOver s
      · exact .inr (.inl (by rw [release_of_listenOver hh hf hl ho]))
      · exact .inr (.inr (by rw [release_of_not_listenOver hh hf hl ho]))

/-- A release queues at most one telegram, the OFFER of an entry into HOLD (R82). -/
theorem release_room {n : Nat} (hh : s.link.haltSet = []) (h : s.room n) (hn : n < 8) : (release s).room (n + 1) := by
  cases hf : s.intake.fieldLost with
  | true =>
    rw [release_of_fieldLost hf]
    exact enqueue_room _ _ _ (by simpa [State.room] using h) hn
  | false =>
    have hlink : (release s).link = s.link := by
      cases hl : s.train.listenDone with
      | true => rw [release_of_listenDone hf hl]; rfl
      | false => simp [release_of_not_listenDone hh hf hl]
    exact State.room.mono (by simpa [State.room, hlink] using h) (Nat.le_succ n)

/-! ### The order answered (R67) -/

/-- The outcome of an ORDER RELEASE by the table of R67. -/
def releaseOutcome (s : State) : OrderOutcome :=
  if s.train.mode ≠ .shutIn then .refusedState else if s.link.haltSet ≠ [] then .refusedHalt else .done

theorem answerRelease_outcome : (answerRelease s).2 = some (releaseOutcome s) := by
  unfold answerRelease releaseOutcome
  split
  · rfl
  · split <;> rfl

/-- Out of SHUT_IN, or with a station halting, a RELEASE is refused and changes nothing (R67). -/
theorem answerRelease_refused (h : s.train.mode ≠ .shutIn ∨ s.link.haltSet ≠ []) : (answerRelease s).1 = s := by
  unfold answerRelease
  split
  · rfl
  · next hm => rw [if_pos (h.resolve_left hm)]

theorem answerRelease_done (hm : s.train.mode = .shutIn) (hh : s.link.haltSet = []) :
    (answerRelease s).1 = sequencerReact (release s) := by
  simp [answerRelease, hm, hh]

/-- A RELEASE is refused without a change, or takes effect in a train shut in while no station is halting (R67). -/
theorem answerRelease_cases : (answerRelease s).1 = s
    ∨ s.link.haltSet = [] ∧ (answerRelease s).1 = sequencerReact (release s) := by
  by_cases h : s.train.mode ≠ .shutIn ∨ s.link.haltSet ≠ []
  · exact .inl (answerRelease_refused h)
  · obtain ⟨hm, hh⟩ := not_or.mp h
    exact .inr ⟨not_not.mp hh, answerRelease_done (not_not.mp hm) (not_not.mp hh)⟩

/-- What a RELEASE leaves as it was, refused or done: the halt set, the accounts, the nominations, the dryer, the clock, the
peer tables. -/
theorem answerRelease_frame :
    (answerRelease s).1.link.haltSet = s.link.haltSet ∧ (answerRelease s).1.acct.slots = s.acct.slots ∧
    (answerRelease s).1.nom = s.nom ∧ (answerRelease s).1.dryer = s.dryer ∧ (answerRelease s).1.clock = s.clock ∧
    (answerRelease s).1.peers = s.peers ∧ (answerRelease s).1.link.restartPending = s.link.restartPending := by
  rcases answerRelease_cases (s := s) with h | ⟨-, h⟩ <;> simp [h]

theorem answerRelease_not_config (hc : s.train.mode ≠ .config) : (answerRelease s).1.train.mode ≠ .config := by
  rcases answerRelease_cases (s := s) with h | ⟨hh, h⟩
  · rwa [h]
  · rcases release_mode hh with hr | hr | hr <;> simp [h, hr]

/-- The OFFER of HOLD and the sequencer's telegrams take at most three places of the queue. -/
theorem answerRelease_room {n : Nat} (h : s.room n) (hn : n < 6) : (answerRelease s).1.room (n + 3) := by
  rcases answerRelease_cases (s := s) with hr | ⟨hh, hr⟩ <;> rw [hr]
  · exact h.mono (by omega)
  · exact sequencerReact_room _ (release_room hh h (by omega)) (by omega)

/-- ORDER RELEASE of a console the part obeys: the release, the reply, the handing of the SETPOINT fields (R149, R160). -/
theorem orderRelease_exec {src dst : Nat} (h : s.obeys src dst) (arg litres : Nat) :
    exec (.orderRelease src dst arg litres) s
      = .next (handAll (replyTo .other src 2 arg litres (releaseOutcome s) (answerRelease s).1)) := by
  have harm : exec (.orderRelease src dst arg litres) s = ordered src dst 2 arg litres answerRelease s := rfl
  have hsteady : (answerRelease s).1.link.restartPending = false := by
    obtain ⟨-, -, -, -, -, -, hrestart⟩ := answerRelease_frame (s := s)
    rw [hrestart]
    exact h.1.1.1.2
  rw [harm, obeyed_exec h 2 arg litres answerRelease _ _ (Prod.ext rfl answerRelease_outcome) hsteady]

/-- ALERT cause 2 is pending exactly in SHUT_IN (R159). -/
theorem two_mem_alertCauses : 2 ∈ alertCauses s ↔ s.train.mode = .shutIn := by
  simp [alertCauses]

/-- Settles O29: the outcome and the train follow the branches of the release; the reply and the handing that end the event
write neither the train nor the compressor. -/
theorem orderRelease : Obligations.OrderRelease := by
  intro s src dst arg litres hobeys
  obtain ⟨hhalt, hslots, hnom, hdryer, hclock, hpeers, -⟩ := answerRelease_frame (s := s)
  refine ⟨_, releaseOutcome s, orderRelease_exec hobeys arg litres, ?reply, ?notShutIn, ?halted, ?released, ?frame⟩
  case reply =>
    intro hroomy
    exact handed_reply_waits _ _ _ _ _ _ (answerRelease_not_config hobeys.1.1.2)
      (answerRelease_room hroomy (by decide)) (by decide)
  case notShutIn =>
    intro hm
    exact ⟨if_pos hm, by simp [answerRelease_refused (.inl hm)]⟩
  case halted =>
    intro hm hh
    exact ⟨by simp [releaseOutcome, hm, hh], by simp [answerRelease_refused (.inr hh)]⟩
  case released =>
    intro hm hh
    have htrain : (handAll (replyTo .other src 2 arg litres (releaseOutcome s) (answerRelease s).1)).train
        = (release s).train := by simp [answerRelease_done hm hh]
    rw [two_mem_alertCauses, htrain]
    refine ⟨by simp [releaseOutcome, hm, hh], ?leftShutIn, fun hf => ?hold, fun hf hl => ?idle,
      fun hf hl => ⟨release_of_listenOver hh hf hl, release_of_not_listenOver hh hf hl⟩⟩
    case leftShutIn => rcases release_mode hh with hr | hr | hr <;> simp [hr]
    case hold => exact release_of_fieldLost hf ▸ enterHold_train
    case idle => rw [release_of_listenDone hf hl]; rfl
  case frame => simp [hhalt, hslots, hnom, hdryer, hclock, hpeers]

end Sys2Proof.Machine
end

section
/-! PROOFS. The ORDER UNLOCK (R89, R100): a tripped or locked-out unit stopped afresh, and the claim of a start that the
sequencer's tests may make of it. -/

namespace Sys2Proof.Machine

variable {s : State}

/-! ### The unit unlocked (R100) -/

/-- The unit is TRIPPED or LOCKOUT, so an UNLOCK takes effect (R100). -/
abbrev State.blocked (s : State) : Prop := s.comp.unit = .tripped ∨ s.comp.unit = .lockout

/-- The unit STOPPED with its trip history emptied, before the sequencer's tests (R100). -/
def unlock (s : State) : State := s.onComp (fun c => { c.setUnit .stopped with trips := [] })

theorem answerUnlock_of_blocked (h : s.blocked) : answerUnlock s = (sequencerReact (unlock s), some .done) := if_pos h

theorem answerUnlock_of_not_blocked (h : ¬ s.blocked) : answerUnlock s = (s, some .refusedState) := if_neg h

@[simp] theorem unlock_frame : (unlock s).link = s.link ∧ (unlock s).acct = s.acct ∧ (unlock s).nom = s.nom ∧
    (unlock s).dryer = s.dryer ∧ (unlock s).clock = s.clock ∧ (unlock s).peers = s.peers ∧ (unlock s).train = s.train :=
  ⟨rfl, rfl, rfl, rfl, rfl, rfl, rfl⟩

theorem unlock_room {n : Nat} (h : s.room n) : (unlock s).room n := by simpa [State.room] using h

/-- The sequencer's tests of the unlocked unit change at most its claim in flight (R89, R90). -/
theorem sequencerReact_unlock_comp :
    (sequencerReact (unlock s)).comp
      = { s.comp with unit := .stopped, command := .stop, trips := []
                      claimInFlight := (sequencerReact (unlock s)).comp.claimInFlight } :=
  sequencerReact_still (.inl rfl)

/-- A start due in the unlocked unit is claimed at once when the queue has room (R89, R90). -/
theorem sequencerReact_unlock_claims {n : Nat} (hc : s.train.mode ≠ .config) (h : s.room n) (hn : n < 12)
    (hdue : startDue (unlock s)) :
    (sequencerReact (unlock s)).comp.claimInFlight = true ∧ (sequencerReact (unlock s)).waits .claim := by
  rw [sequencerReact_due hdue]
  exact queueClaim_of_room (by simpa using hc) (unlock_room h) hn

/-! ### The order answered (R100, R160) -/

/-- A reply replaces no telegram, so with room in the queue what waits goes on waiting (R146). -/
theorem replyTo_keeps_waits {n : Nat} (m : Telegram) (o : Owner) (console command arg litres : Nat) (r : OrderOutcome)
    (h : s.room n) (hn : n < 12) (hw : s.waits m) : (replyTo o console command arg litres r s).waits m :=
  enqueue_waits s m _ o h hn hw fun _ _ => by simp [replaces]

/-- ORDER UNLOCK of a console the part obeys: the answer, the reply, the handing of the SETPOINT fields (R149, R160). -/
theorem orderUnlock_exec {src dst : Nat} {o : OrderOutcome} {u : State} (h : s.obeys src dst) (arg litres : Nat)
    (hanswer : answerUnlock s = (u, some o)) (hlink : u.link.restartPending = s.link.restartPending) :
    exec (.orderUnlock src dst arg litres) s = .next (handAll (replyTo .other src 3 arg litres o u)) := by
  have harm : exec (.orderUnlock src dst arg litres) s = ordered src dst 3 arg litres answerUnlock s := rfl
  have ⟨⟨⟨⟨_, hsteady⟩, _⟩, _⟩, _⟩ := h
  rw [harm, obeyed_exec h 3 arg litres answerUnlock o u hanswer (hlink.trans hsteady)]

/-- ALERT cause 5 is not pending while the unit is STOPPED (R159). -/
theorem five_notMem_alertCauses_of_stopped (h : s.comp.unit = .stopped) : 5 ∉ alertCauses s := by
  simp [alertCauses, State.compAlert, h]

/-- Settles O30: a blocked unit is unlocked and put to the sequencer's tests, which in a STOPPED unit can only claim; the
reply and the handing that end the event keep that claim waiting and write neither the unit nor the train. -/
theorem orderUnlock : Obligations.OrderUnlock := by
  intro s src dst arg litres hobeys blocked after
  have hconfig : s.train.mode ≠ .config := hobeys.1.1.2
  by_cases hb : s.blocked
  · refine ⟨_, orderUnlock_exec hobeys arg litres (answerUnlock_of_blocked hb) (by simp), fun _ => ⟨?comp, ?alert⟩,
      fun _ hroomy hdue => ?claim, fun hnot => absurd hb hnot, fun hroomy => ⟨.done, fun _ => rfl,
      fun hnot => absurd hb hnot, ?reply⟩, by simp⟩
    case comp => simpa [after] using sequencerReact_unlock_comp
    case alert =>
      refine five_notMem_alertCauses_of_stopped ?_
      simpa using congrArg Compressor.unit (sequencerReact_unlock_comp (s := s))
    case claim =>
      obtain ⟨hflight, hwaits⟩ := sequencerReact_unlock_claims hconfig hroomy (by decide) hdue
      have hroom := sequencerReact_room _ (unlock_room hroomy) (by decide)
      exact ⟨by simpa using hflight,
        (handAll_waits _ _).mpr (replyTo_keeps_waits _ _ _ _ _ _ _ hroom (by decide) hwaits)⟩
    case reply =>
      exact handed_reply_waits _ _ _ _ _ _ (by simpa using hconfig)
        (sequencerReact_room _ (unlock_room hroomy) (by decide)) (by decide)
  · refine ⟨_, orderUnlock_exec hobeys arg litres (answerUnlock_of_not_blocked hb) rfl, fun hyes => absurd hyes hb,
      fun hyes => absurd hyes hb, fun _ => by simp, fun hroomy => ⟨.refusedState, fun hyes => absurd hyes hb,
      fun _ => rfl, ?reply⟩, by simp⟩
    case reply => exact handed_reply_waits _ _ _ _ _ _ hconfig hroomy (by decide)

end Sys2Proof.Machine
end

section
/-! PROOFS. What each block's work leaves as it was. A frame lemma for each operation, in the order of the model's files,
stated through bundles of fields that simp opens and uses field by field; proofs about commands cite these and do not
unfold the operations. -/

namespace Sys2Proof.Machine

/-! ### Bundles of fields -/

/-- The pins, the command queue, the memory port with the external memory, the clock and the nominations are as before. -/
@[simp] abbrev keepsSite (s t : State) : Prop :=
  t.powered = s.powered ∧ t.straps = s.straps ∧ t.station = s.station ∧ t.pending = s.pending ∧ t.ext = s.ext
    ∧ t.freeDraws = s.freeDraws ∧ t.port = s.port ∧ t.clock = s.clock ∧ t.nom = s.nom

/-- Of the link only the queue with its mark and its tickets has moved. -/
@[simp] abbrev keepsWire (s t : State) : Prop :=
  t.link.state = s.link.state ∧ t.link.join = s.link.join ∧ t.link.joinFailures = s.link.joinFailures
    ∧ t.link.haltSet = s.link.haltSet ∧ t.link.receiveErrors = s.link.receiveErrors ∧ t.link.discards = s.link.discards
    ∧ t.link.restartPending = s.link.restartPending

/-- Of the account table all but the slots and the outstanding mark are as before. -/
@[simp] abbrev keepsClose (s t : State) : Prop :=
  t.acct.closedDay = s.acct.closedDay ∧ t.acct.closed = s.acct.closed ∧ t.acct.provisional = s.acct.provisional
    ∧ t.acct.cursor = s.acct.cursor ∧ t.acct.restoredTotals = s.acct.restoredTotals

/-- Of the account table at most the outstanding mark has moved. -/
@[simp] abbrev keepsBooks (s t : State) : Prop :=
  t.acct.slots = s.acct.slots ∧ t.acct.carryInject = s.acct.carryInject ∧ t.acct.carryWithdraw = s.acct.carryWithdraw
    ∧ keepsClose s t

/-- The four hour sums are as before. -/
@[simp] abbrev keepsSums (s t : State) : Prop :=
  t.mon.sumInjected = s.mon.sumInjected ∧ t.mon.sumWithdrawn = s.mon.sumWithdrawn
    ∧ t.mon.sumCompFuel = s.mon.sumCompFuel ∧ t.mon.sumHeater = s.mon.sumHeater


variable (s : State)

/-! ### Allocation -/

@[simp] theorem compareSpace_frame (slot : Nat) : keepsSite s (compareSpace s slot) ∧ keepsWire s (compareSpace s slot)
    ∧ keepsClose s (compareSpace s slot) ∧ keepsSums s (compareSpace s slot)
    ∧ (compareSpace s slot).acct.carryInject = s.acct.carryInject
    ∧ (compareSpace s slot).acct.carryWithdraw = s.acct.carryWithdraw
    ∧ (compareSpace s slot).acct.outstanding = s.acct.outstanding ∧ (compareSpace s slot).peers = s.peers
    ∧ (compareSpace s slot).train = s.train ∧ (compareSpace s slot).comp = s.comp
    ∧ (compareSpace s slot).dryer = s.dryer ∧ (compareSpace s slot).intake = s.intake := by
  unfold compareSpace; split <;> simp

@[simp] theorem compareSpaces_frame (shares : List Nat) : keepsSite s (compareSpaces shares s)
    ∧ keepsWire s (compareSpaces shares s) ∧ keepsClose s (compareSpaces shares s) ∧ keepsSums s (compareSpaces shares s)
    ∧ (compareSpaces shares s).acct.carryInject = s.acct.carryInject
    ∧ (compareSpaces shares s).acct.carryWithdraw = s.acct.carryWithdraw
    ∧ (compareSpaces shares s).acct.outstanding = s.acct.outstanding ∧ (compareSpaces shares s).peers = s.peers
    ∧ (compareSpaces shares s).train = s.train ∧ (compareSpaces shares s).comp = s.comp
    ∧ (compareSpaces shares s).dryer = s.dryer ∧ (compareSpaces shares s).intake = s.intake := by
  unfold compareSpaces
  generalize List.filter _ (List.range 17) = l
  induction l generalizing s with
  | nil => simp
  | cons slot rest ih => simpa using ih (compareSpace s slot)

@[simp] theorem Accounts.setCarry_frame (a : Accounts) (f : Flow) (c : Int) : (a.setCarry f c).slots = a.slots
    ∧ (a.setCarry f c).closedDay = a.closedDay ∧ (a.setCarry f c).closed = a.closed
    ∧ (a.setCarry f c).provisional = a.provisional ∧ (a.setCarry f c).cursor = a.cursor
    ∧ (a.setCarry f c).restoredTotals = a.restoredTotals ∧ (a.setCarry f c).outstanding = a.outstanding := by
  cases f <;> simp [Accounts.setCarry]

@[simp] theorem addHourEnergy_frame (f : Flow) (e : Nat) (m : Monitor) :
    (addHourEnergy f e m).sticky = m.sticky ∧ (addHourEnergy f e m).counters = m.counters
      ∧ (addHourEnergy f e m).exceptions = m.exceptions ∧ (addHourEnergy f e m).lostCount = m.lostCount
      ∧ (addHourEnergy f e m).summary = m.summary ∧ (addHourEnergy f e m).sumCompFuel = m.sumCompFuel
      ∧ (addHourEnergy f e m).sumHeater = m.sumHeater := by
  cases f <;> simp [addHourEnergy]

@[simp] theorem bookEnergy_frame (f : Flow) (v h : Nat) (w : List Nat) (bed : Option Bed) :
    keepsSite s (bookEnergy f v h w bed s).2.2 ∧ keepsWire s (bookEnergy f v h w bed s).2.2
      ∧ keepsClose s (bookEnergy f v h w bed s).2.2
      ∧ (bookEnergy f v h w bed s).2.2.acct.outstanding = s.acct.outstanding
      ∧ (bookEnergy f v h w bed s).2.2.peers = s.peers ∧ (bookEnergy f v h w bed s).2.2.train = s.train
      ∧ (bookEnergy f v h w bed s).2.2.comp = s.comp ∧ (bookEnergy f v h w bed s).2.2.intake = s.intake
      ∧ (bookEnergy f v h w bed s).2.2.mon.sumCompFuel = s.mon.sumCompFuel
      ∧ (bookEnergy f v h w bed s).2.2.mon.sumHeater = s.mon.sumHeater := by
  unfold bookEnergy; cases f <;> dsimp only <;> split <;> simp

@[simp] theorem bookFuel_close (k : FuelKind) (n : Nat) (w : List Nat) : keepsClose s (bookFuel k n w s)
    ∧ (bookFuel k n w s).acct.carryInject = s.acct.carryInject
    ∧ (bookFuel k n w s).acct.carryWithdraw = s.acct.carryWithdraw
    ∧ (bookFuel k n w s).acct.outstanding = s.acct.outstanding := by
  unfold bookFuel; dsimp only; split <;> simp

@[simp] theorem bookRegeneration_close (bed : Option Bed) (g : Nat) : keepsClose s (bookRegeneration bed g s)
    ∧ (bookRegeneration bed g s).acct.carryInject = s.acct.carryInject
    ∧ (bookRegeneration bed g s).acct.carryWithdraw = s.acct.carryWithdraw
    ∧ (bookRegeneration bed g s).acct.outstanding = s.acct.outstanding := by
  unfold bookRegeneration; cases bed <;> simp

@[simp] theorem chargeBed_close (bed : Bed) : keepsClose s (chargeBed bed s)
    ∧ (chargeBed bed s).acct.carryInject = s.acct.carryInject
    ∧ (chargeBed bed s).acct.carryWithdraw = s.acct.carryWithdraw
    ∧ (chargeBed bed s).acct.outstanding = s.acct.outstanding := by
  unfold chargeBed; simp

@[simp] theorem takeBedOut_close (bed : Bed) : keepsClose s (takeBedOut bed s)
    ∧ (takeBedOut bed s).acct.carryInject = s.acct.carryInject
    ∧ (takeBedOut bed s).acct.carryWithdraw = s.acct.carryWithdraw
    ∧ (takeBedOut bed s).acct.outstanding = s.acct.outstanding := by
  unfold takeBedOut; dsimp only; split <;> simp

@[simp] theorem bedFault_close (bed : Bed) : keepsClose s (bedFault bed s)
    ∧ (bedFault bed s).acct.carryInject = s.acct.carryInject ∧ (bedFault bed s).acct.carryWithdraw = s.acct.carryWithdraw
    ∧ (bedFault bed s).acct.outstanding = s.acct.outstanding := by
  unfold bedFault; simp

@[simp] theorem bookInterval_frame (v h fuel : Nat) : keepsSite s (bookInterval v h fuel s)
    ∧ keepsWire s (bookInterval v h fuel s) ∧ keepsClose s (bookInterval v h fuel s)
    ∧ (bookInterval v h fuel s).acct.outstanding = s.acct.outstanding ∧ (bookInterval v h fuel s).peers = s.peers
    ∧ (bookInterval v h fuel s).train = s.train ∧ (bookInterval v h fuel s).comp = s.comp
    ∧ (bookInterval v h fuel s).intake = s.intake ∧ (bookInterval v h fuel s).mon.sumHeater = s.mon.sumHeater := by
  unfold bookInterval; dsimp only; split
  · simp
  · split <;> simp

@[simp] theorem abandonReports_frame : keepsSite s (abandonReports s) ∧ keepsWire s (abandonReports s)
    ∧ keepsSums s (abandonReports s) ∧ (abandonReports s).acct = s.acct ∧ (abandonReports s).peers = s.peers
    ∧ (abandonReports s).train = s.train ∧ (abandonReports s).comp = s.comp ∧ (abandonReports s).dryer = s.dryer
    ∧ (abandonReports s).intake = s.intake := by
  unfold abandonReports; dsimp only; split <;> simp [Link.withdraw, Link.withQueue]

@[simp] theorem closeDay_frame (d : Nat) : keepsSite s (closeDay d s) ∧ keepsWire s (closeDay d s)
    ∧ keepsSums s (closeDay d s) ∧ (closeDay d s).acct.carryInject = s.acct.carryInject
    ∧ (closeDay d s).acct.carryWithdraw = s.acct.carryWithdraw ∧ (closeDay d s).peers = s.peers
    ∧ (closeDay d s).train = s.train ∧ (closeDay d s).comp = s.comp ∧ (closeDay d s).dryer = s.dryer
    ∧ (closeDay d s).intake = s.intake := by
  unfold closeDay; simp

/-! ### Nominations -/

@[simp] theorem takeNomination_frame (slot day hour : Nat) (rate : Int) :
    keepsWire s (takeNomination slot day hour rate s) ∧ keepsSums s (takeNomination slot day hour rate s)
      ∧ (takeNomination slot day hour rate s).powered = s.powered
      ∧ (takeNomination slot day hour rate s).straps = s.straps
      ∧ (takeNomination slot day hour rate s).station = s.station
      ∧ (takeNomination slot day hour rate s).pending = s.pending ∧ (takeNomination slot day hour rate s).ext = s.ext
      ∧ (takeNomination slot day hour rate s).freeDraws = s.freeDraws
      ∧ (takeNomination slot day hour rate s).port = s.port ∧ (takeNomination slot day hour rate s).clock = s.clock
      ∧ (takeNomination slot day hour rate s).acct = s.acct ∧ (takeNomination slot day hour rate s).peers = s.peers
      ∧ (takeNomination slot day hour rate s).train = s.train ∧ (takeNomination slot day hour rate s).comp = s.comp
      ∧ (takeNomination slot day hour rate s).dryer = s.dryer
      ∧ (takeNomination slot day hour rate s).intake = s.intake := by
  unfold takeNomination; split <;> simp

@[simp] theorem nominationHour_frame : (nominationHour s).powered = s.powered ∧ (nominationHour s).straps = s.straps
    ∧ (nominationHour s).station = s.station ∧ (nominationHour s).pending = s.pending ∧ (nominationHour s).ext = s.ext
    ∧ (nominationHour s).freeDraws = s.freeDraws ∧ (nominationHour s).port = s.port
    ∧ (nominationHour s).clock = s.clock ∧ (nominationHour s).acct = s.acct ∧ (nominationHour s).peers = s.peers
    ∧ (nominationHour s).train = s.train ∧ (nominationHour s).comp = s.comp ∧ (nominationHour s).dryer = s.dryer
    ∧ (nominationHour s).intake = s.intake ∧ (nominationHour s).mon = s.mon ∧ (nominationHour s).link = s.link := by
  simp [nominationHour, confirmHour, bringIntoEffect]

/-! ### The dryer -/

@[simp] theorem dryerWater_frame (w : Bool) (r : Interval) : keepsSite s (dryerWater w r s)
    ∧ (dryerWater w r s).acct = s.acct ∧ (dryerWater w r s).peers = s.peers ∧ (dryerWater w r s).train = s.train
    ∧ (dryerWater w r s).comp = s.comp ∧ (dryerWater w r s).intake = s.intake ∧ (dryerWater w r s).mon = s.mon
    ∧ (dryerWater w r s).link = s.link := by
  unfold dryerWater; split <;> (try split) <;> simp

@[simp] theorem dryerFuel_frame (r : Interval) : keepsSite s (dryerFuel r s) ∧ keepsWire s (dryerFuel r s)
    ∧ keepsClose s (dryerFuel r s) ∧ (dryerFuel r s).acct.carryInject = s.acct.carryInject
    ∧ (dryerFuel r s).acct.carryWithdraw = s.acct.carryWithdraw
    ∧ (dryerFuel r s).acct.outstanding = s.acct.outstanding
    ∧ (dryerFuel r s).peers = s.peers ∧ (dryerFuel r s).train = s.train ∧ (dryerFuel r s).comp = s.comp
    ∧ (dryerFuel r s).intake = s.intake := by
  unfold dryerFuel; dsimp only; split
  · simp
  · split <;> simp

@[simp] theorem dryerDew_frame (w : Bool) (r : Interval) : keepsSite s (dryerDew w r s) ∧ keepsWire s (dryerDew w r s)
    ∧ keepsSums s (dryerDew w r s) ∧ (dryerDew w r s).acct = s.acct ∧ (dryerDew w r s).peers = s.peers
    ∧ (dryerDew w r s).train = s.train ∧ (dryerDew w r s).comp = s.comp ∧ (dryerDew w r s).intake = s.intake := by
  unfold dryerDew; dsimp only; repeat' split
  all_goals simp

@[simp] theorem dryerPhase_frame (bed : Bed) (before : BedState) (r : Interval) : keepsSite s (dryerPhase bed before r s)
    ∧ keepsWire s (dryerPhase bed before r s) ∧ keepsClose s (dryerPhase bed before r s)
    ∧ (dryerPhase bed before r s).acct.carryInject = s.acct.carryInject
    ∧ (dryerPhase bed before r s).acct.carryWithdraw = s.acct.carryWithdraw
    ∧ (dryerPhase bed before r s).acct.outstanding = s.acct.outstanding
    ∧ (dryerPhase bed before r s).peers = s.peers ∧ (dryerPhase bed before r s).train = s.train
    ∧ (dryerPhase bed before r s).comp = s.comp ∧ (dryerPhase bed before r s).intake = s.intake := by
  unfold dryerPhase; repeat' split
  all_goals simp

@[simp] theorem dryerSwitch_frame : keepsSite s (dryerSwitch s) ∧ (dryerSwitch s).acct = s.acct
    ∧ (dryerSwitch s).peers = s.peers ∧ (dryerSwitch s).train = s.train ∧ (dryerSwitch s).comp = s.comp
    ∧ (dryerSwitch s).intake = s.intake ∧ (dryerSwitch s).mon = s.mon ∧ (dryerSwitch s).link = s.link := by
  unfold dryerSwitch; split <;> (try split) <;> simp

@[simp] theorem dryerLimitStep_frame (r : Interval) : keepsSite s (dryerLimitStep r s)
    ∧ keepsWire s (dryerLimitStep r s) ∧ keepsSums s (dryerLimitStep r s) ∧ (dryerLimitStep r s).acct = s.acct
    ∧ (dryerLimitStep r s).peers = s.peers ∧ (dryerLimitStep r s).train = s.train
    ∧ (dryerLimitStep r s).comp = s.comp ∧ (dryerLimitStep r s).intake = s.intake := by
  unfold dryerLimitStep; dsimp only; split <;> simp

@[simp] theorem dryerMinute_frame (r : Interval) : keepsSite s (dryerMinute r s) ∧ keepsWire s (dryerMinute r s)
    ∧ keepsClose s (dryerMinute r s) ∧ (dryerMinute r s).acct.carryInject = s.acct.carryInject
    ∧ (dryerMinute r s).acct.carryWithdraw = s.acct.carryWithdraw
    ∧ (dryerMinute r s).acct.outstanding = s.acct.outstanding ∧ (dryerMinute r s).peers = s.peers
    ∧ (dryerMinute r s).train = s.train ∧ (dryerMinute r s).comp = s.comp := by
  simp [dryerMinute]

/-! ### The compressor -/

@[simp] theorem Compressor.toStopping_frame (c : Compressor) : c.toStopping.path = c.path
    ∧ c.toStopping.capacity = c.capacity ∧ c.toStopping.claimInFlight = c.claimInFlight
    ∧ c.toStopping.cedePending = c.cedePending ∧ c.toStopping.starts = c.starts ∧ c.toStopping.trips = c.trips
    ∧ c.toStopping.runTimer = c.runTimer ∧ c.toStopping.stopTimer = 0 ∧ c.toStopping.startTimer = none
    ∧ c.toStopping.zeroDemand = c.zeroDemand ∧ c.toStopping.feedback = c.feedback ∧ c.toStopping.awaiting = c.awaiting
    ∧ c.toStopping.startLimit = c.startLimit ∧ c.toStopping.fuelCarry = c.fuelCarry
    ∧ c.toStopping.unit = .stopping ∧ c.toStopping.command = .stop := by
  simp [Compressor.toStopping, commandOf]

@[simp] theorem countDiscard_frame : keepsSite s (countDiscard s) ∧ (countDiscard s).acct = s.acct
    ∧ (countDiscard s).peers = s.peers ∧ (countDiscard s).train = s.train ∧ (countDiscard s).comp = s.comp
    ∧ (countDiscard s).dryer = s.dryer ∧ (countDiscard s).intake = s.intake ∧ (countDiscard s).mon = s.mon
    ∧ (countDiscard s).link = { s.link with discards := satAdd top16 s.link.discards 1 } := by
  simp [countDiscard]

@[simp] theorem addToCopy_frame (n : Nat) : keepsSite s (addToCopy n s) ∧ (addToCopy n s).acct = s.acct
    ∧ (addToCopy n s).train = s.train ∧ (addToCopy n s).comp = s.comp ∧ (addToCopy n s).dryer = s.dryer
    ∧ (addToCopy n s).intake = s.intake ∧ (addToCopy n s).mon = s.mon ∧ (addToCopy n s).link = s.link := by
  simp [addToCopy]

@[simp] theorem takeClaim_frame (n : Nat) : keepsSite s (takeClaim n s) ∧ (takeClaim n s).acct = s.acct
    ∧ (takeClaim n s).train = s.train ∧ (takeClaim n s).comp = s.comp ∧ (takeClaim n s).dryer = s.dryer
    ∧ (takeClaim n s).intake = s.intake ∧ (takeClaim n s).mon = s.mon
    ∧ (takeClaim n s).link.restartPending = s.link.restartPending := by
  unfold takeClaim; split <;> (try split) <;> simp

@[simp] theorem ownClaimEcho_frame : keepsSite s (ownClaimEcho s) ∧ keepsBooks s (ownClaimEcho s)
    ∧ keepsSums s (ownClaimEcho s) ∧ (ownClaimEcho s).train = s.train ∧ (ownClaimEcho s).dryer = s.dryer
    ∧ (ownClaimEcho s).link.state = s.link.state ∧ (ownClaimEcho s).link.join = s.link.join
    ∧ (ownClaimEcho s).link.haltSet = s.link.haltSet
    ∧ (ownClaimEcho s).link.restartPending = s.link.restartPending := by
  unfold ownClaimEcho; dsimp only; repeat' split
  all_goals simp

@[simp] theorem ownCedeEcho_frame : keepsSite s (ownCedeEcho s) ∧ (ownCedeEcho s).acct = s.acct
    ∧ (ownCedeEcho s).train = s.train ∧ (ownCedeEcho s).dryer = s.dryer ∧ (ownCedeEcho s).mon = s.mon
    ∧ (ownCedeEcho s).link = s.link := by
  simp [ownCedeEcho]

@[simp] theorem timeOutStart_frame : keepsSite s (timeOutStart s) ∧ keepsBooks s (timeOutStart s)
    ∧ keepsSums s (timeOutStart s) ∧ keepsWire s (timeOutStart s) ∧ (timeOutStart s).peers = s.peers
    ∧ (timeOutStart s).train = s.train ∧ (timeOutStart s).dryer = s.dryer ∧ (timeOutStart s).intake = s.intake := by
  unfold timeOutStart; split <;> simp

@[simp] theorem takeTrip_frame : keepsSite s (takeTrip s) ∧ keepsBooks s (takeTrip s) ∧ keepsSums s (takeTrip s)
    ∧ keepsWire s (takeTrip s) ∧ (takeTrip s).peers = s.peers ∧ (takeTrip s).train = s.train
    ∧ (takeTrip s).dryer = s.dryer ∧ (takeTrip s).intake = s.intake := by
  unfold takeTrip; dsimp only; split <;> split <;> simp

@[simp] theorem autoRestart_frame : keepsSite s (autoRestart s) ∧ (autoRestart s).acct = s.acct
    ∧ (autoRestart s).peers = s.peers ∧ (autoRestart s).train = s.train ∧ (autoRestart s).dryer = s.dryer
    ∧ (autoRestart s).intake = s.intake ∧ (autoRestart s).mon = s.mon ∧ (autoRestart s).link = s.link := by
  unfold autoRestart; split <;> simp

@[simp] theorem settleAfterReset_frame (fb : Feedback) : keepsSite s (settleAfterReset fb s)
    ∧ (settleAfterReset fb s).acct = s.acct ∧ (settleAfterReset fb s).peers = s.peers
    ∧ (settleAfterReset fb s).train = s.train ∧ (settleAfterReset fb s).dryer = s.dryer
    ∧ (settleAfterReset fb s).intake = s.intake ∧ (settleAfterReset fb s).mon = s.mon
    ∧ (settleAfterReset fb s).link = s.link := by
  cases fb <;> simp [settleAfterReset]

/-- Of the intake at most what is handed and sent has moved. -/
@[simp] abbrev keepsMeters (s t : State) : Prop :=
  t.intake.held = s.intake.held ∧ t.intake.latestCv = s.intake.latestCv ∧ t.intake.lastSequence = s.intake.lastSequence
    ∧ t.intake.fieldTimer = s.intake.fieldTimer ∧ t.intake.lateRaised = s.intake.lateRaised
    ∧ t.intake.fieldLost = s.intake.fieldLost ∧ t.intake.checkFailures = s.intake.checkFailures
    ∧ t.intake.sequenceGaps = s.intake.sequenceGaps ∧ t.intake.hourSamples = s.intake.hourSamples
    ∧ t.intake.lineup = s.intake.lineup ∧ t.intake.meter = s.intake.meter ∧ t.intake.meterSpan = s.intake.meterSpan
    ∧ t.intake.compFuel = s.intake.compFuel ∧ t.intake.heaterFuel = s.intake.heaterFuel
    ∧ t.intake.volume = s.intake.volume ∧ t.intake.compWh = s.intake.compWh ∧ t.intake.heaterWh = s.intake.heaterWh
    ∧ t.intake.samples = s.intake.samples ∧ t.intake.suspInject = s.intake.suspInject
    ∧ t.intake.suspWithdraw = s.intake.suspWithdraw

@[simp] theorem ownClaimEcho_meters : keepsMeters s (ownClaimEcho s) := by
  unfold ownClaimEcho; dsimp only; repeat' split
  all_goals simp

@[simp] theorem ownCedeEcho_meters : keepsMeters s (ownCedeEcho s) := by
  simp [ownCedeEcho]

@[simp] theorem dryerMinute_meters (r : Interval) : keepsMeters s (dryerMinute r s) := by
  simp [dryerMinute]

@[simp] theorem feedbackTable_frame (before : Option Feedback) (fb : Feedback) : keepsSite s (feedbackTable before fb s)
    ∧ keepsBooks s (feedbackTable before fb s) ∧ keepsSums s (feedbackTable before fb s)
    ∧ keepsWire s (feedbackTable before fb s) ∧ keepsMeters s (feedbackTable before fb s)
    ∧ (feedbackTable before fb s).peers = s.peers ∧ (feedbackTable before fb s).train = s.train
    ∧ (feedbackTable before fb s).dryer = s.dryer := by
  unfold feedbackTable; split <;> (try split) <;> simp

@[simp] theorem takeFeedback_frame (fb : Option Feedback) : keepsSite s (takeFeedback fb s)
    ∧ keepsBooks s (takeFeedback fb s) ∧ keepsSums s (takeFeedback fb s) ∧ keepsWire s (takeFeedback fb s)
    ∧ keepsMeters s (takeFeedback fb s) ∧ (takeFeedback fb s).peers = s.peers ∧ (takeFeedback fb s).train = s.train
    ∧ (takeFeedback fb s).dryer = s.dryer := by
  unfold takeFeedback; split
  · simp
  · dsimp only; split <;> simp

@[simp] theorem startLimitTest_frame : keepsSite s (startLimitTest s) ∧ keepsWire s (startLimitTest s)
    ∧ keepsSums s (startLimitTest s) ∧ (startLimitTest s).acct = s.acct ∧ (startLimitTest s).peers = s.peers
    ∧ (startLimitTest s).train = s.train ∧ (startLimitTest s).dryer = s.dryer
    ∧ (startLimitTest s).intake = s.intake := by
  unfold startLimitTest; split <;> (try split) <;> simp

@[simp] theorem sequencerMinute_frame (r : Interval) : keepsSite s (sequencerMinute r s) ∧ keepsWire s (sequencerMinute r s)
    ∧ keepsSums s (sequencerMinute r s) ∧ (sequencerMinute r s).acct = s.acct ∧ (sequencerMinute r s).peers = s.peers
    ∧ (sequencerMinute r s).train = s.train ∧ (sequencerMinute r s).dryer = s.dryer
    ∧ (sequencerMinute r s).intake = s.intake := by
  simp [sequencerMinute]

end Sys2Proof.Machine
end

section
/-! PROOFS. What the work of the mode controller, the intake, the memory port, the clock, the link and the orders leaves as
it was. -/

namespace Sys2Proof.Machine

variable (s : State)

/-- Of the sequencer at most the zero-demand timer has moved. -/
@[simp] abbrev keepsUnit (s t : State) : Prop :=
  t.comp.path = s.comp.path ∧ t.comp.capacity = s.comp.capacity ∧ t.comp.unit = s.comp.unit
    ∧ t.comp.command = s.comp.command ∧ t.comp.claimInFlight = s.comp.claimInFlight
    ∧ t.comp.cedePending = s.comp.cedePending ∧ t.comp.starts = s.comp.starts ∧ t.comp.trips = s.comp.trips
    ∧ t.comp.runTimer = s.comp.runTimer ∧ t.comp.stopTimer = s.comp.stopTimer ∧ t.comp.startTimer = s.comp.startTimer
    ∧ t.comp.feedback = s.comp.feedback ∧ t.comp.awaiting = s.comp.awaiting ∧ t.comp.startLimit = s.comp.startLimit
    ∧ t.comp.fuelCarry = s.comp.fuelCarry

/-! ### The train mode controller -/

@[simp] theorem setDemand_unit (d : Int) : keepsUnit s (setDemand d s) ∧ (setDemand d s).train.demand = d := by
  unfold setDemand; simp

@[simp] theorem applyHold_unit : keepsUnit s (applyHold s) := by
  unfold applyHold; split <;> simp

/-- An OFFER handed to the queue evicts no telegram of the sequencer (R148). -/
@[simp] theorem queueOffer_frame : keepsSite s (queueOffer s) ∧ keepsWire s (queueOffer s) ∧ keepsBooks s (queueOffer s)
    ∧ keepsSums s (queueOffer s) ∧ (queueOffer s).peers = s.peers ∧ (queueOffer s).train = s.train
    ∧ (queueOffer s).comp = s.comp ∧ (queueOffer s).dryer = s.dryer ∧ (queueOffer s).intake = s.intake := by
  have hcomp := (enqueue_comp (s := s) (offerTelegram s) .other).2.2 (by simp [offerTelegram, telegramClass])
  simp [queueOffer, hcomp]

@[simp] theorem stopTrain_unit (m : Mode) : keepsUnit s (stopTrain m s) := by
  unfold stopTrain; simp

/-- The train as a stop leaves it (R63, R65, R66, R79). -/
theorem stopTrain_train (m : Mode) : (stopTrain m s).train =
    { s.train with mode := m, phase := none, lineup := .closed, offer := 0, share := 0, demand := 0
                   dwell := if s.train.mode = .reversing ∧ s.train.phase = some .ramp then some s.clock.index
                     else s.train.dwell } := by
  simp [stopTrain, setDemand]

@[simp] theorem enterHold_unit : keepsUnit s (enterHold s) := by simp [enterHold]
@[simp] theorem enterShutIn_unit : keepsUnit s (enterShutIn s) := by simp [enterShutIn]

theorem enterHold_train_eq : (enterHold s).train = (stopTrain .hold s).train := by simp [enterHold]
theorem enterShutIn_train_eq : (enterShutIn s).train = (stopTrain .shutIn s).train := by simp [enterShutIn]

@[simp] theorem enterListen_unit : keepsUnit s (enterListen s) := by
  unfold enterListen; dsimp only; split <;> (try split) <;> simp

@[simp] theorem fieldLostMode_frame : keepsSite s (fieldLostMode s) ∧ keepsWire s (fieldLostMode s)
    ∧ keepsBooks s (fieldLostMode s) ∧ keepsSums s (fieldLostMode s) ∧ keepsUnit s (fieldLostMode s)
    ∧ (fieldLostMode s).peers = s.peers ∧ (fieldLostMode s).dryer = s.dryer
    ∧ (fieldLostMode s).intake = s.intake := by
  unfold fieldLostMode; split <;> simp

@[simp] theorem endHold_frame : keepsSite s (endHold s) ∧ keepsWire s (endHold s) ∧ keepsBooks s (endHold s)
    ∧ keepsSums s (endHold s) ∧ keepsUnit s (endHold s) ∧ (endHold s).peers = s.peers ∧ (endHold s).dryer = s.dryer
    ∧ (endHold s).intake = s.intake := by
  unfold endHold; split <;> (try split) <;> simp

@[simp] theorem release_unit : keepsUnit s (release s) := by
  unfold release; split <;> (try split) <;> simp

@[simp] theorem reversalMoves_frame : keepsSite s (reversalMoves s).1 ∧ (reversalMoves s).1.acct = s.acct
    ∧ (reversalMoves s).1.peers = s.peers ∧ (reversalMoves s).1.intake = s.intake ∧ (reversalMoves s).1.mon = s.mon
    ∧ (reversalMoves s).1.link = s.link ∧ keepsUnit s (reversalMoves s).1 := by
  unfold reversalMoves; split <;> (try split) <;> simp

@[simp] theorem endDwell_frame : keepsSite s (endDwell s) ∧ (endDwell s).acct = s.acct ∧ (endDwell s).peers = s.peers
    ∧ (endDwell s).comp = s.comp ∧ (endDwell s).dryer = s.dryer ∧ (endDwell s).intake = s.intake
    ∧ (endDwell s).mon = s.mon ∧ (endDwell s).link = s.link := by
  unfold endDwell; split <;> (try split) <;> simp

@[simp] theorem offerStep_frame (r : Interval) : keepsSite s (offerStep r s) ∧ (offerStep r s).acct = s.acct
    ∧ (offerStep r s).peers = s.peers ∧ (offerStep r s).comp = s.comp ∧ (offerStep r s).dryer = s.dryer
    ∧ (offerStep r s).intake = s.intake ∧ (offerStep r s).mon = s.mon ∧ (offerStep r s).link = s.link := by
  simp [offerStep]

@[simp] theorem entryStep_frame : keepsSite s (entryStep s).1 ∧ (entryStep s).1.acct = s.acct
    ∧ (entryStep s).1.peers = s.peers ∧ (entryStep s).1.intake = s.intake ∧ (entryStep s).1.mon = s.mon
    ∧ (entryStep s).1.link = s.link ∧ keepsUnit s (entryStep s).1 := by
  unfold entryStep; split <;> (try split) <;> simp

@[simp] theorem demandStep_frame (stays : Bool) : keepsSite s (demandStep stays s) ∧ (demandStep stays s).acct = s.acct
    ∧ (demandStep stays s).peers = s.peers ∧ (demandStep stays s).intake = s.intake
    ∧ (demandStep stays s).mon = s.mon ∧ (demandStep stays s).link = s.link ∧ (demandStep stays s).dryer = s.dryer
    ∧ keepsUnit s (demandStep stays s) := by
  simp [demandStep]

@[simp] theorem zeroStep_frame : keepsSite s (zeroStep s) ∧ (zeroStep s).acct = s.acct ∧ (zeroStep s).peers = s.peers
    ∧ (zeroStep s).comp = s.comp ∧ (zeroStep s).dryer = s.dryer ∧ (zeroStep s).intake = s.intake
    ∧ (zeroStep s).mon = s.mon ∧ (zeroStep s).link = s.link := by
  simp [zeroStep]

@[simp] theorem modeMinute_frame (r : Interval) : keepsSite s (modeMinute r s) ∧ keepsWire s (modeMinute r s)
    ∧ keepsBooks s (modeMinute r s) ∧ keepsSums s (modeMinute r s) ∧ keepsUnit s (modeMinute r s)
    ∧ (modeMinute r s).peers = s.peers ∧ (modeMinute r s).intake = s.intake := by
  simp [modeMinute, directionStep]

/-! ### The measurement intake -/

@[simp] theorem raiseCv_frame (r : Interval) : keepsSite s (raiseCv r s) ∧ keepsWire s (raiseCv r s)
    ∧ keepsSums s (raiseCv r s) ∧ (raiseCv r s).acct = s.acct ∧ (raiseCv r s).peers = s.peers
    ∧ (raiseCv r s).train = s.train ∧ (raiseCv r s).comp = s.comp ∧ (raiseCv r s).dryer = s.dryer
    ∧ (raiseCv r s).intake = s.intake := by
  unfold raiseCv; split <;> (try split) <;> simp

@[simp] theorem closeInterval_frame : keepsSite s (closeInterval s).2 ∧ keepsWire s (closeInterval s).2
    ∧ keepsSums s (closeInterval s).2 ∧ (closeInterval s).2.acct = s.acct ∧ (closeInterval s).2.peers = s.peers
    ∧ (closeInterval s).2.train = s.train ∧ (closeInterval s).2.comp = s.comp ∧ (closeInterval s).2.dryer = s.dryer
    ∧ (closeInterval s).2.intake.suspInject = s.intake.suspInject
    ∧ (closeInterval s).2.intake.suspWithdraw = s.intake.suspWithdraw
    ∧ (closeInterval s).2.intake.handed = s.intake.handed := by
  simp [closeInterval]

@[simp] theorem replyDue_frame (d : Due) (o : OrderOutcome) : keepsSite s (replyDue d o s) ∧ keepsWire s (replyDue d o s)
    ∧ keepsSums s (replyDue d o s) ∧ (replyDue d o s).acct = s.acct ∧ (replyDue d o s).peers = s.peers
    ∧ (replyDue d o s).train = s.train ∧ (replyDue d o s).comp = s.comp ∧ (replyDue d o s).dryer = s.dryer
    ∧ (replyDue d o s).intake = s.intake := by
  simp [replyDue]

@[simp] theorem toSuspense_frame (span : Nat) (v : Option Nat) : keepsSite s (toSuspense span v s)
    ∧ keepsWire s (toSuspense span v s) ∧ keepsSums s (toSuspense span v s) ∧ (toSuspense span v s).acct = s.acct
    ∧ (toSuspense span v s).peers = s.peers ∧ (toSuspense span v s).train = s.train
    ∧ (toSuspense span v s).comp = s.comp ∧ (toSuspense span v s).dryer = s.dryer := by
  unfold toSuspense; dsimp only; split
  · simp
  · split <;> simp

@[simp] theorem suspenseOldTest_frame (f : Flow) : keepsSite s (suspenseOldTest f s) ∧ keepsWire s (suspenseOldTest f s)
    ∧ keepsSums s (suspenseOldTest f s) ∧ (suspenseOldTest f s).acct = s.acct ∧ (suspenseOldTest f s).peers = s.peers
    ∧ (suspenseOldTest f s).train = s.train ∧ (suspenseOldTest f s).comp = s.comp
    ∧ (suspenseOldTest f s).dryer = s.dryer := by
  unfold suspenseOldTest; split <;> (try split) <;> simp

@[simp] theorem bookSuspense_frame (f : Flow) (bed : Option Bed) : keepsSite s (bookSuspense f bed s)
    ∧ keepsWire s (bookSuspense f bed s) ∧ keepsClose s (bookSuspense f bed s)
    ∧ (bookSuspense f bed s).acct.outstanding = s.acct.outstanding ∧ (bookSuspense f bed s).peers = s.peers
    ∧ (bookSuspense f bed s).train = s.train ∧ (bookSuspense f bed s).comp = s.comp := by
  unfold bookSuspense; split
  · simp
  · split <;> simp

@[simp] theorem takeDifference_frame (dv span : Nat) (b : Bool) : keepsSite s (takeDifference dv span b s)
    ∧ keepsWire s (takeDifference dv span b s) ∧ keepsSums s (takeDifference dv span b s)
    ∧ (takeDifference dv span b s).acct = s.acct ∧ (takeDifference dv span b s).peers = s.peers
    ∧ (takeDifference dv span b s).train = s.train ∧ (takeDifference dv span b s).comp = s.comp
    ∧ (takeDifference dv span b s).dryer = s.dryer := by
  unfold takeDifference; dsimp only; repeat' split
  all_goals simp

@[simp] theorem takeMeter_frame (p : Sample) : keepsSite s (takeMeter p s) ∧ keepsWire s (takeMeter p s)
    ∧ keepsSums s (takeMeter p s) ∧ (takeMeter p s).acct = s.acct ∧ (takeMeter p s).peers = s.peers
    ∧ (takeMeter p s).train = s.train ∧ (takeMeter p s).comp = s.comp ∧ (takeMeter p s).dryer = s.dryer := by
  unfold takeMeter; dsimp only; repeat' split
  all_goals simp

@[simp] theorem takeFuels_frame (p : Sample) : keepsSite s (takeFuels p s) ∧ (takeFuels p s).acct = s.acct
    ∧ (takeFuels p s).peers = s.peers ∧ (takeFuels p s).train = s.train ∧ (takeFuels p s).comp = s.comp
    ∧ (takeFuels p s).dryer = s.dryer ∧ (takeFuels p s).mon = s.mon ∧ (takeFuels p s).link = s.link
    ∧ (takeFuels p s).intake.suspInject = s.intake.suspInject
    ∧ (takeFuels p s).intake.suspWithdraw = s.intake.suspWithdraw := by
  simp [takeFuels]

@[simp] theorem acceptSample_frame (p : Sample) : keepsSite s (acceptSample p s) ∧ keepsWire s (acceptSample p s)
    ∧ keepsBooks s (acceptSample p s) ∧ keepsSums s (acceptSample p s) ∧ (acceptSample p s).peers = s.peers
    ∧ (acceptSample p s).dryer = s.dryer := by
  unfold acceptSample; dsimp only; split <;> simp

@[simp] theorem takeSample_frame (r : Option Sample) : keepsSite s (takeSample r s).1 ∧ keepsWire s (takeSample r s).1
    ∧ keepsBooks s (takeSample r s).1 ∧ keepsSums s (takeSample r s).1 ∧ (takeSample r s).1.peers = s.peers
    ∧ (takeSample r s).1.dryer = s.dryer := by
  unfold takeSample; split
  · simp
  · split <;> simp

@[simp] theorem fieldLateTest_frame : keepsSite s (fieldLateTest s) ∧ keepsWire s (fieldLateTest s)
    ∧ keepsSums s (fieldLateTest s) ∧ (fieldLateTest s).acct = s.acct ∧ (fieldLateTest s).peers = s.peers
    ∧ (fieldLateTest s).train = s.train ∧ (fieldLateTest s).comp = s.comp ∧ (fieldLateTest s).dryer = s.dryer
    ∧ (fieldLateTest s).intake.suspInject = s.intake.suspInject
    ∧ (fieldLateTest s).intake.suspWithdraw = s.intake.suspWithdraw := by
  unfold fieldLateTest; split <;> simp

@[simp] theorem fieldLostTest_frame : keepsSite s (fieldLostTest s) ∧ keepsWire s (fieldLostTest s)
    ∧ keepsBooks s (fieldLostTest s) ∧ keepsSums s (fieldLostTest s) ∧ keepsUnit s (fieldLostTest s)
    ∧ (fieldLostTest s).peers = s.peers ∧ (fieldLostTest s).dryer = s.dryer
    ∧ (fieldLostTest s).intake.suspInject = s.intake.suspInject
    ∧ (fieldLostTest s).intake.suspWithdraw = s.intake.suspWithdraw := by
  unfold fieldLostTest; split <;> simp

/-! ### The memory port and the resets -/

@[simp] theorem beginWrite_frame : (beginWrite s).powered = s.powered ∧ (beginWrite s).straps = s.straps
    ∧ (beginWrite s).station = s.station ∧ (beginWrite s).pending = s.pending
    ∧ (beginWrite s).freeDraws = s.freeDraws ∧ (beginWrite s).clock = s.clock ∧ (beginWrite s).nom = s.nom
    ∧ (beginWrite s).acct = s.acct ∧ (beginWrite s).peers = s.peers ∧ (beginWrite s).train = s.train
    ∧ (beginWrite s).comp = s.comp ∧ (beginWrite s).dryer = s.dryer ∧ (beginWrite s).intake = s.intake
    ∧ (beginWrite s).mon = s.mon ∧ (beginWrite s).link = s.link := by
  unfold beginWrite; split <;> simp

/-- The pins, the command queue, the draws, the clock and the nominations are as before, and all blocks but the memory. -/
@[simp] abbrev keepsBlocks (s t : State) : Prop :=
  t.powered = s.powered ∧ t.straps = s.straps ∧ t.station = s.station ∧ t.pending = s.pending ∧ t.clock = s.clock
    ∧ t.nom = s.nom ∧ t.acct = s.acct ∧ t.peers = s.peers ∧ t.train = s.train ∧ t.comp = s.comp ∧ t.dryer = s.dryer
    ∧ t.intake = s.intake

@[simp] theorem takeCheckpoint_frame : keepsBlocks s (takeCheckpoint s) ∧ (takeCheckpoint s).mon = s.mon
    ∧ (takeCheckpoint s).link = s.link ∧ (takeCheckpoint s).freeDraws = s.freeDraws
    ∧ (takeCheckpoint s).port.image = s.port.image := by
  unfold takeCheckpoint; dsimp only; split <;> simp

@[simp] theorem completeWrite_frame : keepsBlocks s (completeWrite s) ∧ (completeWrite s).mon = s.mon
    ∧ (completeWrite s).link = s.link ∧ (completeWrite s).freeDraws = s.freeDraws
    ∧ (completeWrite s).port.image = s.port.image := by
  unfold completeWrite; split <;> simp [MemoryPort.writeNext]

/-- An abandoned write changes the external memory and the count of free values alone (R166). Stated with the memory
named, so that no proof evaluates the free bytes of a whole slot. -/
theorem abandonWrite_eq : ∃ e n, abandonWrite s = { s with ext := e, freeDraws := n } := by
  refine ⟨s.ext.spoil (slotOfSeq s.port.nextSeq) (partialBytes s.freeDraws), s.freeDraws + 1, ?_⟩
  rw [abandonWrite, State.onExt]

@[simp] theorem abandonWrite_frame : keepsBlocks s (abandonWrite s) ∧ (abandonWrite s).mon = s.mon
    ∧ (abandonWrite s).link = s.link ∧ (abandonWrite s).port = s.port := by
  obtain ⟨e, n, h⟩ := abandonWrite_eq s
  simp [h]

@[simp] theorem failWrite_frame : keepsBlocks s (failWrite s) ∧ keepsWire s (failWrite s) ∧ keepsSums s (failWrite s)
    ∧ (failWrite s).port.image = s.port.image := by
  obtain ⟨e, n, h⟩ := abandonWrite_eq s
  unfold failWrite; rw [h]; split <;> simp [MemoryPort.writeNext]

@[simp] theorem raiseRestore_frame : keepsWire s (raiseRestore s) ∧ keepsSums s (raiseRestore s)
    ∧ (raiseRestore s).powered = s.powered ∧ (raiseRestore s).straps = s.straps
    ∧ (raiseRestore s).station = s.station ∧ (raiseRestore s).pending = s.pending ∧ (raiseRestore s).ext = s.ext
    ∧ (raiseRestore s).freeDraws = s.freeDraws ∧ (raiseRestore s).port = { s.port with note := none }
    ∧ (raiseRestore s).clock = s.clock ∧ (raiseRestore s).nom = s.nom ∧ (raiseRestore s).acct = s.acct
    ∧ (raiseRestore s).peers = s.peers ∧ (raiseRestore s).train = s.train ∧ (raiseRestore s).comp = s.comp
    ∧ (raiseRestore s).dryer = s.dryer ∧ (raiseRestore s).intake = s.intake := by
  unfold raiseRestore; dsimp only; split <;> simp

@[simp] theorem firstSetpoint_frame : keepsSite s (firstSetpoint s) ∧ keepsMeters s (firstSetpoint s)
    ∧ (firstSetpoint s).acct = s.acct ∧ (firstSetpoint s).peers = s.peers ∧ (firstSetpoint s).train = s.train
    ∧ (firstSetpoint s).comp = s.comp ∧ (firstSetpoint s).dryer = s.dryer ∧ (firstSetpoint s).mon = s.mon
    ∧ (firstSetpoint s).link = s.link := by
  simp [firstSetpoint]

@[simp] theorem leaveConfig_frame (b : Bool) : (leaveConfig b s).powered = s.powered
    ∧ (leaveConfig b s).straps = s.straps ∧ (leaveConfig b s).station = s.station
    ∧ (leaveConfig b s).pending = s.pending ∧ (leaveConfig b s).ext = s.ext
    ∧ (leaveConfig b s).freeDraws = s.freeDraws ∧ (leaveConfig b s).port.image = s.port.image
    ∧ (leaveConfig b s).port.nextSeq = s.port.nextSeq ∧ (leaveConfig b s).port.writing = s.port.writing
    ∧ (leaveConfig b s).port.waiting = s.port.waiting ∧ (leaveConfig b s).port.stamp = s.port.stamp
    ∧ (leaveConfig b s).port.catchUp = s.port.catchUp ∧ (leaveConfig b s).clock = s.clock
    ∧ (leaveConfig b s).nom = s.nom ∧ keepsBooks s (leaveConfig b s) ∧ keepsSums s (leaveConfig b s)
    ∧ keepsMeters s (leaveConfig b s) ∧ (leaveConfig b s).peers = s.peers ∧ keepsUnit s (leaveConfig b s)
    ∧ (leaveConfig b s).dryer = s.dryer ∧ (leaveConfig b s).link.haltSet = s.link.haltSet
    ∧ (leaveConfig b s).link.receiveErrors = s.link.receiveErrors
    ∧ (leaveConfig b s).link.discards = s.link.discards ∧ (leaveConfig b s).link.joinFailures = s.link.joinFailures
    ∧ (leaveConfig b s).link.restartPending = s.link.restartPending := by
  unfold leaveConfig; dsimp only; split <;> (try split) <;> simp

@[simp] theorem cutWrite_frame : keepsBlocks s (cutWrite s) ∧ (cutWrite s).mon = s.mon ∧ (cutWrite s).link = s.link
    ∧ (cutWrite s).port = s.port := by
  unfold cutWrite; split <;> simp

/-! ### The clock -/

@[simp] theorem queueInvt_frame (half : Nat) : keepsSite s (queueInvt half s) ∧ keepsWire s (queueInvt half s)
    ∧ keepsBooks s (queueInvt half s) ∧ keepsSums s (queueInvt half s) ∧ (queueInvt half s).peers = s.peers
    ∧ (queueInvt half s).train = s.train ∧ (queueInvt half s).comp = s.comp ∧ (queueInvt half s).dryer = s.dryer
    ∧ (queueInvt half s).intake = s.intake := by
  have hcomp := (enqueue_comp (s := s) (.invt half s.clock.day s.clock.hour (halfInventories half s)) .other).2.2
    (by simp [telegramClass])
  simp [queueInvt, hcomp]

@[simp] theorem queueInvts_frame : keepsSite s (queueInvts s) ∧ keepsWire s (queueInvts s) ∧ keepsBooks s (queueInvts s)
    ∧ keepsSums s (queueInvts s) ∧ (queueInvts s).peers = s.peers ∧ (queueInvts s).train = s.train
    ∧ (queueInvts s).comp = s.comp ∧ (queueInvts s).dryer = s.dryer ∧ (queueInvts s).intake = s.intake := by
  simp [queueInvts]

@[simp] theorem hourlyReport_frame : keepsSite s (hourlyReport s) ∧ keepsBooks s (hourlyReport s)
    ∧ (hourlyReport s).peers = s.peers ∧ (hourlyReport s).train = s.train ∧ (hourlyReport s).comp = s.comp
    ∧ (hourlyReport s).dryer = s.dryer ∧ (hourlyReport s).link.state = s.link.state
    ∧ (hourlyReport s).link.join = s.link.join ∧ (hourlyReport s).link.joinFailures = s.link.joinFailures
    ∧ (hourlyReport s).link.haltSet = s.link.haltSet ∧ (hourlyReport s).link.restartPending = s.link.restartPending
    ∧ (hourlyReport s).intake = { s.intake with checkFailures := 0, sequenceGaps := 0, hourSamples := 0 } := by
  have hcomp := (enqueue_comp (s := s) (.hourly (hourlyOf s)) .other).2.2 (by simp [telegramClass])
  simp [hourlyReport, hcomp]

@[simp] theorem meterMinute_frame : keepsSite s (meterMinute s).2 ∧ keepsWire s (meterMinute s).2
    ∧ keepsClose s (meterMinute s).2 ∧ (meterMinute s).2.acct.outstanding = s.acct.outstanding
    ∧ (meterMinute s).2.peers = s.peers ∧ (meterMinute s).2.train = s.train
    ∧ (meterMinute s).2.comp = { s.comp with fuelCarry := (formFuel s.intake.compWh s.comp.fuelCarry).2 } := by
  simp [meterMinute, closeInterval, intervalRecord]

@[simp] theorem trainMinute_frame (r : Interval) : keepsSite s (trainMinute r s) ∧ keepsWire s (trainMinute r s)
    ∧ keepsBooks s (trainMinute r s) ∧ keepsSums s (trainMinute r s) ∧ (trainMinute r s).peers = s.peers
    ∧ (trainMinute r s).intake = s.intake := by
  simp [trainMinute]

@[simp] theorem reportHour_frame : (reportHour s).powered = s.powered ∧ (reportHour s).straps = s.straps
    ∧ (reportHour s).station = s.station ∧ (reportHour s).pending = s.pending
    ∧ (reportHour s).freeDraws = s.freeDraws ∧ (reportHour s).clock = s.clock ∧ (reportHour s).nom = s.nom
    ∧ keepsBooks s (reportHour s) ∧ (reportHour s).peers = s.peers ∧ (reportHour s).train = s.train
    ∧ (reportHour s).comp = s.comp ∧ (reportHour s).dryer = s.dryer ∧ (reportHour s).link.state = s.link.state
    ∧ (reportHour s).link.join = s.link.join ∧ (reportHour s).link.joinFailures = s.link.joinFailures
    ∧ (reportHour s).link.haltSet = s.link.haltSet ∧ (reportHour s).link.restartPending = s.link.restartPending
    ∧ (reportHour s).port.image = s.port.image
    ∧ (reportHour s).intake = { s.intake with checkFailures := 0, sequenceGaps := 0, hourSamples := 0 } := by
  simp [reportHour]

/-- What a boundary instant leaves as it was: the pins, the command queue, the clock, the peers, the link's state. -/
@[simp] theorem boundary_frame (hour : Bool) (d : Option Nat) : (boundary hour d s).powered = s.powered
    ∧ (boundary hour d s).straps = s.straps ∧ (boundary hour d s).station = s.station
    ∧ (boundary hour d s).pending = s.pending ∧ (boundary hour d s).freeDraws = s.freeDraws
    ∧ (boundary hour d s).clock = s.clock ∧ (boundary hour d s).peers = s.peers
    ∧ (boundary hour d s).link.state = s.link.state ∧ (boundary hour d s).link.join = s.link.join
    ∧ (boundary hour d s).link.joinFailures = s.link.joinFailures
    ∧ (boundary hour d s).link.haltSet = s.link.haltSet
    ∧ (boundary hour d s).link.restartPending = s.link.restartPending
    ∧ (boundary hour d s).port.image = s.port.image := by
  unfold boundary; cases hour <;> cases d <;> dsimp only <;> split <;> simp

@[simp] theorem countAdvanced_frame : keepsSite s (countAdvanced s) ∧ (countAdvanced s).acct = s.acct
    ∧ (countAdvanced s).train = s.train ∧ (countAdvanced s).mon = s.mon ∧ (countAdvanced s).link = s.link := by
  simp [countAdvanced]

@[simp] theorem raiseAdvance_frame (day : Nat) : (raiseAdvance day s).powered = s.powered
    ∧ (raiseAdvance day s).straps = s.straps ∧ (raiseAdvance day s).station = s.station
    ∧ (raiseAdvance day s).pending = s.pending ∧ (raiseAdvance day s).clock = s.clock
    ∧ (raiseAdvance day s).peers = s.peers
    ∧ (raiseAdvance day s).link.restartPending = s.link.restartPending
    ∧ (raiseAdvance day s).link.state = s.link.state ∧ (raiseAdvance day s).port.image = s.port.image := by
  unfold raiseAdvance; split <;> simp

@[simp] theorem takeSecond_frame : (takeSecond s).powered = s.powered ∧ (takeSecond s).straps = s.straps
    ∧ (takeSecond s).station = s.station ∧ (takeSecond s).pending = s.pending
    ∧ (takeSecond s).link.restartPending = s.link.restartPending
    ∧ (takeSecond s).link.state = s.link.state ∧ (takeSecond s).port.image = s.port.image := by
  unfold takeSecond; split <;> simp

@[simp] theorem stepClock_frame (d : Int) : (stepClock d s).powered = s.powered ∧ (stepClock d s).straps = s.straps
    ∧ (stepClock d s).station = s.station ∧ (stepClock d s).pending = s.pending ∧ (stepClock d s).ext = s.ext
    ∧ (stepClock d s).freeDraws = s.freeDraws ∧ (stepClock d s).port = s.port ∧ (stepClock d s).nom = s.nom
    ∧ (stepClock d s).acct = s.acct ∧ (stepClock d s).comp = s.comp ∧ (stepClock d s).dryer = s.dryer
    ∧ (stepClock d s).intake = s.intake ∧ (stepClock d s).mon = s.mon ∧ (stepClock d s).link = s.link := by
  simp [stepClock]

/-- The pins, the command queue, the image and the link's service are as before. -/
@[simp] abbrev keepsSeat (s t : State) : Prop :=
  t.powered = s.powered ∧ t.straps = s.straps ∧ t.station = s.station ∧ t.pending = s.pending
    ∧ t.link.restartPending = s.link.restartPending ∧ t.port.image = s.port.image

@[simp] theorem raiseStep_frame (second day : Nat) (d : Int) : keepsSeat s (raiseStep second day d s)
    ∧ (raiseStep second day d s).link.state = s.link.state ∧ (raiseStep second day d s).clock = s.clock
    ∧ (raiseStep second day d s).peers = s.peers := by
  simp [raiseStep]

@[simp] theorem applyDifference_frame (d : Int) : keepsSeat s (applyDifference d s)
    ∧ (applyDifference d s).link.state = s.link.state := by
  unfold applyDifference; dsimp only; repeat' split
  all_goals simp

@[simp] theorem refuseStep_frame (d : Int) (r : Nat × Int) : keepsSeat s (refuseStep d r s)
    ∧ (refuseStep d r s).link.state = s.link.state ∧ keepsSums s (refuseStep d r s) ∧ keepsWire s (refuseStep d r s)
    ∧ (refuseStep d r s).acct = s.acct ∧ (refuseStep d r s).nom = s.nom ∧ (refuseStep d r s).peers = s.peers
    ∧ (refuseStep d r s).train = s.train ∧ (refuseStep d r s).comp = s.comp ∧ (refuseStep d r s).dryer = s.dryer
    ∧ (refuseStep d r s).intake = s.intake ∧ (refuseStep d r s).port = s.port ∧ (refuseStep d r s).ext = s.ext
    ∧ (refuseStep d r s).clock = { s.clock with refused := some r } := by
  simp [refuseStep]

@[simp] theorem largeStep_frame (d : Int) : keepsSeat s (largeStep d s) ∧ (largeStep d s).link.state = s.link.state := by
  unfold largeStep; repeat' split
  all_goals simp

@[simp] theorem catchUp_frame : keepsSeat s (catchUp s) ∧ (catchUp s).link.state = s.link.state
    ∧ (catchUp s).clock = s.clock ∧ (catchUp s).peers = s.peers := by
  unfold catchUp; dsimp only; repeat' split
  all_goals simp

@[simp] theorem adoptTime_frame (day second : Nat) : keepsSeat s (adoptTime day second s)
    ∧ (adoptTime day second s).link.state = s.link.state := by
  simp [adoptTime]

@[simp] theorem takeTime_frame (day second : Nat) : keepsSeat s (takeTime day second s)
    ∧ (takeTime day second s).link.state = s.link.state := by
  unfold takeTime; dsimp only; repeat' split
  all_goals simp

end Sys2Proof.Machine
end

section
/-! PROOFS. What the link's and the orders' work, a line reset and the end of an event leave as it was; and, command by
command, which commands reach the memory, the clock and the nominations at all. -/

namespace Sys2Proof.Machine

open Sys2Proof (Instr)

variable (s : State)

/-! ### The line reset and the end of an event -/

/-- What a line reset keeps: the supply, the pins' number, the command queue, the external memory, the memory port but for
its note, the standing time, the nominations, the accounts, the beds (R12, R32, R107, R143, R163). -/
@[simp] abbrev keepsReset (s t : State) : Prop :=
  t.powered = s.powered ∧ t.straps = s.straps ∧ t.pending = s.pending ∧ t.ext = s.ext ∧ t.freeDraws = s.freeDraws
    ∧ t.nom = s.nom ∧ t.port.image = s.port.image ∧ t.port.nextSeq = s.port.nextSeq
    ∧ t.port.writing = s.port.writing ∧ t.port.waiting = s.port.waiting ∧ t.port.stamp = s.port.stamp
    ∧ t.port.catchUp = s.port.catchUp ∧ t.clock.day = s.clock.day ∧ t.clock.second = s.clock.second
    ∧ t.clock.synced = s.clock.synced ∧ t.clock.holdBack = s.clock.holdBack ∧ keepsBooks s t ∧ t.dryer = s.dryer

@[simp] theorem lineResetBlocks_frame : keepsReset s (lineResetBlocks s) ∧ keepsSums s (lineResetBlocks s)
    ∧ (lineResetBlocks s).station = s.straps ∧ (lineResetBlocks s).port = s.port
    ∧ (lineResetBlocks s).clock = { s.clock with refused := none }
    ∧ (lineResetBlocks s).acct = { s.acct with outstanding := false } ∧ (lineResetBlocks s).comp = s.comp.lineReset
    ∧ (lineResetBlocks s).train = s.train.lineReset s.clock.index ∧ (lineResetBlocks s).intake = s.intake.lineReset
    ∧ (lineResetBlocks s).link = s.link.lineReset ∧ (lineResetBlocks s).mon = s.mon := by
  simp [lineResetBlocks]

@[simp] theorem lineReset_frame : keepsReset s (lineReset s) ∧ keepsSums s (lineReset s)
    ∧ (lineReset s).station = s.straps ∧ (lineReset s).link.restartPending = false := by
  simp [lineReset, Link.lineReset]

@[simp] theorem settleRestart_frame : keepsReset s (settleRestart s) ∧ keepsSums s (settleRestart s) := by
  unfold settleRestart; split <;> simp

@[simp] theorem finish_frame : keepsReset s (finish s) ∧ keepsSums s (finish s) := by
  simp [finish]

@[simp] theorem settle_frame : keepsSite s (settle s) ∧ keepsWire s (settle s) ∧ keepsBooks s (settle s)
    ∧ keepsSums s (settle s) ∧ keepsMeters s (settle s) ∧ (settle s).peers = s.peers ∧ (settle s).dryer = s.dryer := by
  simp [settle]

/-! ### The link controller and the peer tables -/

@[simp] theorem enterFault_frame (v : Int) : keepsSite s (enterFault v s) ∧ keepsBooks s (enterFault v s)
    ∧ keepsSums s (enterFault v s) ∧ (enterFault v s).peers = s.peers ∧ (enterFault v s).dryer = s.dryer
    ∧ (enterFault v s).intake = s.intake ∧ (enterFault v s).link.haltSet = s.link.haltSet
    ∧ (enterFault v s).link.restartPending = s.link.restartPending ∧ (enterFault v s).link.state = .fault
    ∧ (enterFault v s).link.join = .absent := by
  simp [enterFault, Link.quit]

@[simp] theorem takeDuplicate_frame (k : Nat) : keepsSite s (takeDuplicate k s) ∧ keepsBooks s (takeDuplicate k s)
    ∧ keepsSums s (takeDuplicate k s) ∧ (takeDuplicate k s).peers = s.peers ∧ (takeDuplicate k s).dryer = s.dryer
    ∧ (takeDuplicate k s).intake = s.intake ∧ (takeDuplicate k s).link.haltSet = s.link.haltSet
    ∧ (takeDuplicate k s).link.restartPending = s.link.restartPending
    ∧ (takeDuplicate k s).link.state = .silent := by
  unfold takeDuplicate; split
  · next h => simp [h]
  · simp [Link.quit]

@[simp] theorem countReceiveError_frame : keepsSite s (countReceiveError s) ∧ (countReceiveError s).acct = s.acct
    ∧ (countReceiveError s).peers = s.peers ∧ (countReceiveError s).train = s.train
    ∧ (countReceiveError s).comp = s.comp ∧ (countReceiveError s).dryer = s.dryer
    ∧ (countReceiveError s).intake = s.intake ∧ (countReceiveError s).mon = s.mon
    ∧ (countReceiveError s).link = { s.link with receiveErrors := satAdd top16 s.link.receiveErrors 1 } := by
  simp [countReceiveError]

@[simp] theorem countBrokenEcho_frame : keepsSite s (countBrokenEcho s) ∧ (countBrokenEcho s).acct = s.acct
    ∧ (countBrokenEcho s).peers = s.peers ∧ (countBrokenEcho s).train = s.train ∧ (countBrokenEcho s).comp = s.comp
    ∧ (countBrokenEcho s).dryer = s.dryer ∧ (countBrokenEcho s).intake = s.intake ∧ (countBrokenEcho s).mon = s.mon
    ∧ (countBrokenEcho s).link.state = s.link.state ∧ (countBrokenEcho s).link.queue = s.link.queue
    ∧ (countBrokenEcho s).link.refusalMark = s.link.refusalMark ∧ (countBrokenEcho s).link.join = s.link.join
    ∧ (countBrokenEcho s).link.joinFailures = s.link.joinFailures
    ∧ (countBrokenEcho s).link.haltSet = s.link.haltSet
    ∧ (countBrokenEcho s).link.restartPending = s.link.restartPending
    ∧ (countBrokenEcho s).link.nextTicket = s.link.nextTicket := by
  unfold countBrokenEcho; split <;> simp

@[simp] theorem takeOffer_frame (src dir o target : Nat) : keepsSite s (takeOffer src dir o target s)
    ∧ keepsWire s (takeOffer src dir o target s) ∧ keepsSums s (takeOffer src dir o target s)
    ∧ (takeOffer src dir o target s).acct = s.acct ∧ (takeOffer src dir o target s).train = s.train
    ∧ (takeOffer src dir o target s).comp = s.comp ∧ (takeOffer src dir o target s).dryer = s.dryer
    ∧ (takeOffer src dir o target s).intake = s.intake
    ∧ (takeOffer src dir o target s).peers.startQueue = s.peers.startQueue
    ∧ (takeOffer src dir o target s).peers.headAge = s.peers.headAge
    ∧ (takeOffer src dir o target s).peers.view = s.peers.view := by
  unfold takeOffer; dsimp only; split <;> (try split) <;> simp [Peers.setOffer]

@[simp] theorem takeInvt_site (src half : Nat) (inv : List Int) : keepsSite s (takeInvt src half inv s)
    ∧ keepsWire s (takeInvt src half inv s) ∧ keepsBooks s (takeInvt src half inv s)
    ∧ keepsSums s (takeInvt src half inv s) ∧ (takeInvt src half inv s).dryer = s.dryer
    ∧ (takeInvt src half inv s).intake = s.intake := by
  unfold takeInvt; split <;> simp

@[simp] theorem takeJoin_frame (src : Nat) : keepsSite s (takeJoin src s) ∧ keepsWire s (takeJoin src s)
    ∧ keepsBooks s (takeJoin src s) ∧ keepsSums s (takeJoin src s) ∧ (takeJoin src s).train = s.train
    ∧ (takeJoin src s).dryer = s.dryer ∧ keepsMeters s (takeJoin src s) := by
  simp [takeJoin]

@[simp] theorem shutIn_frame : keepsSite s (shutIn s) ∧ keepsWire s (shutIn s) ∧ keepsBooks s (shutIn s)
    ∧ keepsSums s (shutIn s) ∧ (shutIn s).peers = s.peers ∧ (shutIn s).dryer = s.dryer
    ∧ (shutIn s).intake = s.intake := by
  unfold shutIn; split <;> simp

@[simp] theorem takeHalt_frame (src : Nat) : keepsSite s (takeHalt src s) ∧ keepsBooks s (takeHalt src s)
    ∧ keepsSums s (takeHalt src s) ∧ (takeHalt src s).peers = s.peers ∧ (takeHalt src s).dryer = s.dryer
    ∧ (takeHalt src s).intake = s.intake ∧ (takeHalt src s).link.state = s.link.state
    ∧ (takeHalt src s).link.join = s.link.join
    ∧ (takeHalt src s).link.restartPending = s.link.restartPending := by
  unfold takeHalt; dsimp only; split <;> (try split) <;> simp

@[simp] theorem takeResume_frame (src : Nat) : keepsSite s (takeResume src s) ∧ (takeResume src s).acct = s.acct
    ∧ (takeResume src s).peers = s.peers ∧ (takeResume src s).train = s.train ∧ (takeResume src s).comp = s.comp
    ∧ (takeResume src s).dryer = s.dryer ∧ (takeResume src s).intake = s.intake ∧ (takeResume src s).mon = s.mon
    ∧ (takeResume src s).link = { s.link with haltSet := s.link.haltSet.filter (· != src) } := by
  simp [takeResume]

@[simp] theorem tellSent_frame (e : Entry) : keepsSite s (tellSent e s) ∧ (tellSent e s).train = s.train
    ∧ (tellSent e s).dryer = s.dryer ∧ (tellSent e s).acct.slots = s.acct.slots ∧ keepsMeters s (tellSent e s)
    ∧ keepsSums s (tellSent e s) ∧ (tellSent e s).link.restartPending = s.link.restartPending
    ∧ (tellSent e s).link.state = s.link.state ∧ (tellSent e s).link.join = s.link.join := by
  unfold tellSent; split <;> simp

@[simp] theorem joinDone_frame : keepsSite s (joinDone s) ∧ (joinDone s).acct = s.acct ∧ (joinDone s).peers = s.peers
    ∧ (joinDone s).comp = s.comp ∧ (joinDone s).dryer = s.dryer ∧ (joinDone s).intake = s.intake
    ∧ (joinDone s).mon = s.mon
    ∧ (joinDone s).link = { s.link with state := .active, join := .absent, joinFailures := 0 } := by
  simp [joinDone]

@[simp] theorem echoIntact_frame : keepsSite s (echoIntact s) ∧ (echoIntact s).dryer = s.dryer
    ∧ (echoIntact s).acct.slots = s.acct.slots ∧ keepsMeters s (echoIntact s) ∧ keepsSums s (echoIntact s)
    ∧ (echoIntact s).link.restartPending = s.link.restartPending := by
  unfold echoIntact; split
  · simp
  · split <;> simp [Link.remove, Link.withQueue]

@[simp] theorem joinMismatch_frame : keepsSite s (joinMismatch s) ∧ keepsBooks s (joinMismatch s)
    ∧ keepsSums s (joinMismatch s) ∧ (joinMismatch s).peers = s.peers ∧ (joinMismatch s).dryer = s.dryer
    ∧ (joinMismatch s).intake = s.intake ∧ (joinMismatch s).link.restartPending = s.link.restartPending := by
  unfold joinMismatch; split <;> (try dsimp only) <;> (try split) <;> simp

@[simp] theorem failEntry_frame (e : Entry) : keepsSite s (failEntry e s) ∧ keepsBooks s (failEntry e s)
    ∧ keepsSums s (failEntry e s) ∧ (failEntry e s).peers = s.peers ∧ (failEntry e s).train = s.train
    ∧ (failEntry e s).dryer = s.dryer ∧ (failEntry e s).intake = s.intake
    ∧ (failEntry e s).link.restartPending = s.link.restartPending
    ∧ (failEntry e s).link.state = s.link.state := by
  unfold failEntry; dsimp only; split <;> simp [Link.remove, Link.withQueue]

@[simp] theorem echoMismatch_frame : keepsSite s (echoMismatch s) ∧ keepsBooks s (echoMismatch s)
    ∧ keepsSums s (echoMismatch s) ∧ (echoMismatch s).peers = s.peers ∧ (echoMismatch s).dryer = s.dryer
    ∧ (echoMismatch s).intake = s.intake ∧ (echoMismatch s).link.restartPending = s.link.restartPending := by
  unfold echoMismatch; split
  · simp
  · split
    · simp
    · dsimp only; split <;> simp [Link.mismatch]

@[simp] theorem lineHeld_frame : keepsSite s (lineHeld s) ∧ keepsBooks s (lineHeld s) ∧ keepsSums s (lineHeld s)
    ∧ (lineHeld s).peers = s.peers ∧ (lineHeld s).dryer = s.dryer ∧ (lineHeld s).intake = s.intake
    ∧ (lineHeld s).link.restartPending = s.link.restartPending := by
  unfold lineHeld; split <;> (try split) <;> simp

@[simp] theorem queueDayReport_frame (slot : Nat) : keepsSite s (queueDayReport slot s)
    ∧ keepsWire s (queueDayReport slot s) ∧ keepsSums s (queueDayReport slot s)
    ∧ (queueDayReport slot s).acct.slots = s.acct.slots ∧ (queueDayReport slot s).peers = s.peers
    ∧ (queueDayReport slot s).train = s.train ∧ (queueDayReport slot s).dryer = s.dryer
    ∧ (queueDayReport slot s).intake = s.intake ∧ (queueDayReport slot s).comp = s.comp := by
  have hcomp (t : State) (r : DayReport) : (enqueue (.day r) .dayCursor t).comp = t.comp :=
    (enqueue_comp (.day r) .dayCursor).2.2 (by simp [telegramClass])
  unfold queueDayReport; dsimp only; split <;> simp [hcomp]

@[simp] theorem dayReportStep_frame : keepsSite s (dayReportStep s) ∧ keepsWire s (dayReportStep s)
    ∧ keepsSums s (dayReportStep s) ∧ (dayReportStep s).acct.slots = s.acct.slots
    ∧ (dayReportStep s).peers = s.peers ∧ (dayReportStep s).train = s.train ∧ (dayReportStep s).comp = s.comp
    ∧ (dayReportStep s).dryer = s.dryer ∧ (dayReportStep s).intake = s.intake := by
  unfold dayReportStep; split <;> (try split) <;> simp

/-! ### Orders and timers -/

@[simp] theorem answerShut_frame : keepsSite s (answerShut s).1 ∧ keepsWire s (answerShut s).1
    ∧ keepsBooks s (answerShut s).1 ∧ keepsSums s (answerShut s).1 ∧ (answerShut s).1.peers = s.peers
    ∧ (answerShut s).1.dryer = s.dryer ∧ (answerShut s).1.intake = s.intake := by
  simp [answerShut]

@[simp] theorem answerRelease_site : keepsSite s (answerRelease s).1 ∧ keepsWire s (answerRelease s).1
    ∧ keepsBooks s (answerRelease s).1 ∧ keepsSums s (answerRelease s).1 ∧ (answerRelease s).1.peers = s.peers
    ∧ (answerRelease s).1.dryer = s.dryer ∧ (answerRelease s).1.intake = s.intake := by
  rcases answerRelease_cases (s := s) with h | ⟨-, h⟩ <;> simp [h]

@[simp] theorem answerUnlock_frame : keepsSite s (answerUnlock s).1 ∧ keepsWire s (answerUnlock s).1
    ∧ keepsBooks s (answerUnlock s).1 ∧ keepsSums s (answerUnlock s).1 ∧ (answerUnlock s).1.peers = s.peers
    ∧ (answerUnlock s).1.train = s.train ∧ (answerUnlock s).1.dryer = s.dryer
    ∧ (answerUnlock s).1.intake = s.intake := by
  unfold answerUnlock; split <;> simp

@[simp] theorem answerBedOut_frame (arg : Nat) : keepsSite s (answerBedOut arg s).1
    ∧ keepsWire s (answerBedOut arg s).1 ∧ keepsClose s (answerBedOut arg s).1
    ∧ (answerBedOut arg s).1.acct.outstanding = s.acct.outstanding ∧ (answerBedOut arg s).1.peers = s.peers
    ∧ keepsUnit s (answerBedOut arg s).1 ∧ (answerBedOut arg s).1.intake = s.intake := by
  unfold answerBedOut; split
  · simp
  · dsimp only; split <;> simp

@[simp] theorem answerBedIn_frame (arg : Nat) : keepsSite s (answerBedIn arg s).1 ∧ (answerBedIn arg s).1.acct = s.acct
    ∧ (answerBedIn arg s).1.peers = s.peers ∧ (answerBedIn arg s).1.train = s.train
    ∧ (answerBedIn arg s).1.comp = s.comp ∧ (answerBedIn arg s).1.intake = s.intake
    ∧ (answerBedIn arg s).1.mon = s.mon ∧ (answerBedIn arg s).1.link = s.link := by
  unfold answerBedIn; split <;> (try split) <;> simp

@[simp] theorem answerSuspense_frame (b : Bool) (src c arg l : Nat) : keepsSite s (answerSuspense b src c arg l s).1
    ∧ (answerSuspense b src c arg l s).1.acct = s.acct ∧ (answerSuspense b src c arg l s).1.peers = s.peers
    ∧ (answerSuspense b src c arg l s).1.train = s.train ∧ (answerSuspense b src c arg l s).1.comp = s.comp
    ∧ (answerSuspense b src c arg l s).1.dryer = s.dryer ∧ (answerSuspense b src c arg l s).1.mon = s.mon
    ∧ (answerSuspense b src c arg l s).1.link = s.link := by
  unfold answerSuspense; repeat' split
  all_goals simp

@[simp] theorem answerClear_frame : keepsSite s (answerClear s).1 ∧ (answerClear s).1.acct = s.acct
    ∧ (answerClear s).1.peers = s.peers ∧ (answerClear s).1.train = s.train ∧ (answerClear s).1.comp = s.comp
    ∧ (answerClear s).1.dryer = s.dryer ∧ (answerClear s).1.intake = s.intake ∧ (answerClear s).1.link = s.link := by
  simp [answerClear]

/-- An order's telegram adds the reply to what the order's block has done (R160). -/
theorem takeOrder_cases (src c arg l : Nat) (answer : State → State × Option OrderOutcome) :
    takeOrder src c arg l answer s = (answer s).1
      ∨ ∃ o, takeOrder src c arg l answer s = replyTo .other src c arg l o (answer s).1 := by
  unfold takeOrder; dsimp only; split
  · exact .inr ⟨_, rfl⟩
  · exact .inl rfl

@[simp] theorem takeRestart_frame (src c arg l : Nat) : keepsReset s (takeRestart src c arg l s)
    ∧ keepsSums s (takeRestart src c arg l s) := by
  unfold takeRestart; split <;> (try split) <;> simp

@[simp] theorem ageOutTrips_frame : keepsSite s (ageOutTrips s) ∧ (ageOutTrips s).acct = s.acct
    ∧ (ageOutTrips s).peers = s.peers ∧ (ageOutTrips s).train = s.train ∧ (ageOutTrips s).dryer = s.dryer
    ∧ (ageOutTrips s).intake = s.intake ∧ (ageOutTrips s).mon = s.mon ∧ (ageOutTrips s).link = s.link
    ∧ (ageOutTrips s).comp.unit = s.comp.unit ∧ (ageOutTrips s).comp.command = s.comp.command := by
  simp [ageOutTrips]

@[simp] theorem phaseExpiry_frame (bed : Bed) (p : BedState) (m : Nat) : keepsSite s (phaseExpiry bed p m s)
    ∧ keepsWire s (phaseExpiry bed p m s) ∧ keepsClose s (phaseExpiry bed p m s)
    ∧ (phaseExpiry bed p m s).acct.outstanding = s.acct.outstanding ∧ (phaseExpiry bed p m s).peers = s.peers
    ∧ (phaseExpiry bed p m s).train = s.train ∧ (phaseExpiry bed p m s).comp = s.comp
    ∧ (phaseExpiry bed p m s).intake = s.intake := by
  unfold phaseExpiry; split <;> simp

@[simp] theorem setpointDone_frame : keepsSite s (setpointDone s) ∧ (setpointDone s).acct = s.acct
    ∧ (setpointDone s).peers = s.peers ∧ (setpointDone s).train = s.train ∧ (setpointDone s).comp = s.comp
    ∧ (setpointDone s).dryer = s.dryer ∧ (setpointDone s).mon = s.mon ∧ (setpointDone s).link = s.link
    ∧ (setpointDone s).intake.handed = s.intake.handed
    ∧ (setpointDone s).intake.suspInject = s.intake.suspInject
    ∧ (setpointDone s).intake.suspWithdraw = s.intake.suspWithdraw := by
  unfold setpointDone
  cases h : s.intake.sending with
  | none => simp [h]
  | some p => cases hagain : s.intake.sendAgain <;> simp [h, hagain]

@[simp] theorem sampleStep_frame (r : Option Sample) : keepsReset s (sampleStep r s) ∧ keepsSums s (sampleStep r s) := by
  unfold sampleStep; dsimp only; split <;> simp

end Sys2Proof.Machine
end

section
/-! PROOFS. What a command can do, said once: the work of its block, how its event ends, and the five ways a command can
come out. Every invariant is derived from `exec_cases`. -/

namespace Sys2Proof.Machine

open Sys2Proof (Instr)

/-- The work of a command's block, before its event ends. -/
def work : Instr → State → State
  | .powerOnReset n u l, s => powerOn n u l s
  | .lineReset n, s => lineReset { s with straps := n }
  | .powerLoss, s => blank s false s.straps
  | .clockSecond, s => takeSecond s
  | .dayReportQueue, s => dayReportStep s
  | .time _ _ day second, s => takeTime day second s
  | .noms _ _ slot day hour rate, s => takeNomination slot day hour rate s
  | .offer src _ dir offer _ target _ _, s => takeOffer src dir offer target s
  | .invt src _ half _ _ inventories, s => takeInvt src half inventories s
  | .claim src _, s => takeClaim src s
  | .cede src _, s => sequencerReact (removeFromCopy src s)
  | .join src _, s => takeJoin src s
  | .halt src _ _, s => takeHalt src s
  | .resume src _, s => takeResume src s
  | .orderShut src _ arg l, s => takeOrder src 1 arg l answerShut s
  | .orderRelease src _ arg l, s => takeOrder src 2 arg l answerRelease s
  | .orderUnlock src _ arg l, s => takeOrder src 3 arg l answerUnlock s
  | .orderBedOut src _ arg l, s => takeOrder src 4 arg l (answerBedOut arg) s
  | .orderBedIn src _ arg l, s => takeOrder src 5 arg l (answerBedIn arg) s
  | .orderAccept src _ arg l, s => takeOrder src 6 arg l (answerSuspense true src 6 arg l) s
  | .orderCorrect src _ arg l, s => takeOrder src 7 arg l (answerSuspense false src 7 arg l) s
  | .orderClear src _ arg l, s => takeOrder src 8 arg l answerClear s
  | .orderRestart src _ arg l, s => takeRestart src 9 arg l s
  | .orderUnknownCommand src _ c arg l, s => takeOrder src c arg l (fun s => (s, some .refusedArg)) s
  | .dupStation kind, s => takeDuplicate kind s
  | .sendStart, s => s.onLink Link.start
  | .arbitrationLost, s => s.onLink Link.lose
  | .echoIntact, s => echoIntact s
  | .echoMismatch, s => echoMismatch s
  | .lineHeld, s => lineHeld s
  | .faultIdleWait, s => s.onLink Link.recover
  | .sample record, s => (takeSample record s).1
  | .setpointSendDone, s => setpointDone s
  | .fieldLate, s => fieldLateTest s
  | .fieldLost, s => fieldLostTest s
  | .suspenseOld f, s => suspenseOldTest f s
  | .listen30sMark, s | .listen120sMark, s => listenTest s
  | .startTimeout, s => timeOutStart s
  | .minStopElapsed, s => autoRestart s
  | .tripHistoryAgeOut, s => ageOutTrips s
  | .headHoldExpiry, s => expireHead s
  | .heatMaximum bed, s => phaseExpiry bed .heating s.cfg.dryer.heatMaximum s
  | .coolMaximum bed, s => phaseExpiry bed .cooling s.cfg.dryer.coolMaximum s
  | .checkpointWriteDone, s => completeWrite s
  | .ckptFail, s => failWrite s
  | .holdBackRunOut, s | .report _ _, s | .unknownKind _ _ _, s | .receiveError, s | .minRunElapsed, s
  | .zeroDemand300s, s | .startHistoryAgeOut, s => s

/-- The commands after whose work nothing is handed: the resets, the loss of power, and those that move the line, the
memory port or the SETPOINT's sending alone. -/
def endsPlainly : Instr → Bool
  | .powerOnReset .. | .powerLoss | .lineReset _ | .holdBackRunOut | .sendStart | .arbitrationLost | .faultIdleWait
  | .setpointSendDone | .checkpointWriteDone => true
  | _ => false

/-- How the event of a command ends whose block has left the state `u`: with nothing more, with the handing of the SETPOINT
fields, with the sequencer's tests before it, and after an accepted SAMPLE with its own SETPOINT. -/
inductive EndsIn (c : Instr) (u : State) : State → Prop where
  | plain (h : endsPlainly c = true) : EndsIn c u u
  | finished : EndsIn c u (finish u)
  | settled : EndsIn c u (settleRestart (settle u))
  | sampled : EndsIn c u (settleRestart (requestSetpoint (settle u)))

/-- A SAMPLE whose check fails, counted (R122). -/
def countCheckFailure (s : State) : State :=
  s.onIntake (fun i => { i with checkFailures := satAdd top16 i.checkFailures 1 })

@[simp] theorem countCheckFailure_frame (s : State) : keepsSite s (countCheckFailure s)
    ∧ (countCheckFailure s).acct = s.acct ∧ (countCheckFailure s).peers = s.peers
    ∧ (countCheckFailure s).train = s.train ∧ (countCheckFailure s).comp = s.comp
    ∧ (countCheckFailure s).dryer = s.dryer ∧ (countCheckFailure s).mon = s.mon
    ∧ (countCheckFailure s).link = s.link ∧ (countCheckFailure s).intake.handed = s.intake.handed
    ∧ (countCheckFailure s).intake.suspInject = s.intake.suspInject
    ∧ (countCheckFailure s).intake.suspWithdraw = s.intake.suspWithdraw := by
  simp [countCheckFailure]

/-- The ways a command can come out: nothing done, a receive error, a discard or a failed SAMPLE counted, a telegram under
the part's own number taken as a duplicate's, or the block's work and the end of the event (R122, R149, R152). -/
inductive Outcomes (c : Instr) (s : State) : State → Prop where
  | ignored : Outcomes c s s
  | received : Outcomes c s (countReceiveError s)
  | discarded : Outcomes c s (countDiscard s)
  | failed : Outcomes c s (countCheckFailure s)
  | duplicate (kind : Nat) : Outcomes c s (finish (takeDuplicate kind s))
  | worked {t : State} (h : EndsIn c (work c s) t) : Outcomes c s t

variable {c : Instr} {s t : State}

theorem whilePowered_next {f : State → State} (h : whilePowered f s = .next t) : t = s ∨ s.powered = true ∧ t = f s := by
  unfold whilePowered at h
  injection h with h
  split at h
  · next hp => exact .inr ⟨hp, h.symm⟩
  · exact .inl h.symm

/-- A command that does its block's work while the part has its supply. -/
theorem whilePowered_outcome {f : State → State} (h : whilePowered f s = .next t) (hf : Outcomes c s (f s)) :
    Outcomes c s t := by
  rcases whilePowered_next h with rfl | ⟨-, rfl⟩
  · exact .ignored
  · exact hf

/-- A telegram that passes the filter of R149 is taken by its block, or comes out as one of the filter's other cases. -/
theorem received_outcome {src dst kind : Nat} {recognised : State → Bool} {take : State → State}
    (h : received src dst kind recognised take s = .next t) (hwork : take s = work c s) : Outcomes c s t := by
  refine whilePowered_outcome h ?_
  unfold filterTelegram
  repeat' split
  · exact .ignored
  · exact .received
  · exact .duplicate kind
  · exact .ignored
  · exact .worked (hwork ▸ .finished)
  · exact .discarded

theorem halt_outcome {src dst kind : Nat} {take : State → State}
    (h : whilePowered (filterHalt src dst kind take) s = .next t) (hwork : take s = work c s) : Outcomes c s t := by
  refine whilePowered_outcome h ?_
  unfold filterHalt
  repeat' split
  · exact .ignored
  · exact .received
  · exact .duplicate kind
  · exact .ignored
  · exact .worked (hwork ▸ .finished)

/-- A command that ends its event with the handing of the SETPOINT fields alone. -/
theorem finished_outcome {f : State → State} (h : whilePowered (fun s => finish (f s)) s = .next t)
    (hwork : f s = work c s) : Outcomes c s t :=
  whilePowered_outcome h (.worked (hwork ▸ .finished))

theorem timed_outcome {f : State → State} (h : timed f s = .next t) (hwork : f s = work c s) : Outcomes c s t :=
  whilePowered_outcome h (.worked (hwork ▸ .settled))

theorem plain_outcome {f : State → State} (h : whilePowered f s = .next t) (hwork : f s = work c s)
    (hplain : endsPlainly c = true) : Outcomes c s t := whilePowered_outcome h (.worked (hwork ▸ .plain hplain))

/-- An order's command is an ORDER telegram that the block answers (R160). -/
theorem ordered_outcome {src dst k arg l : Nat} {answer : State → State × Option OrderOutcome}
    (h : ordered src dst k arg l answer s = .next t) (hwork : takeOrder src k arg l answer s = work c s) :
    Outcomes c s t := received_outcome h hwork

theorem sample_outcome {r : Option Sample} (h : execSample r s = .next t) : Outcomes (.sample r) s t := by
  refine whilePowered_outcome h ?_
  cases r with
  | none => exact .failed
  | some p =>
    by_cases hp : s.intake.lastSequence = some p.sequence
    · have hsame : sampleStep (some p) s = s := by simp [sampleStep, takeSample, hp]
      rw [hsame]
      exact .ignored
    · have hstep : sampleStep (some p) s = settleRestart (requestSetpoint (settle (work (.sample (some p)) s))) := by
        simp [sampleStep, takeSample, hp, work]
      rw [hstep]
      exact .worked .sampled

theorem receiveError_outcome (h : execReceiveError s = .next t) : Outcomes .receiveError s t := by
  refine whilePowered_outcome h ?_
  split
  · exact .ignored
  · exact .received

theorem dupStation_outcome {kind : Nat} (h : execDupStation kind s = .next t) : Outcomes (.dupStation kind) s t := by
  refine whilePowered_outcome h ?_
  split
  · exact .ignored
  · exact .duplicate kind

theorem sendStart_outcome (h : execSendStart s = .next t) : Outcomes .sendStart s t := by
  refine whilePowered_outcome h ?_
  split
  · exact .ignored
  · exact .worked (.plain rfl)

theorem report_outcome {src dst : Nat} (h : execReport src dst s = .next t) : Outcomes (.report src dst) s t := by
  refine whilePowered_outcome h ?_
  split
  · exact .received
  · split
    · exact .duplicate 11
    · exact .ignored

/-- What a command can do, in every state: the one case analysis over the commands. -/
theorem exec_cases (h : exec c s = .next t) : Outcomes c s t := by
  cases c with
  | powerOnReset n u l => injection h with h; exact .worked (h ▸ .plain rfl)
  | powerLoss =>
    injection h with h
    split at h
    · exact .worked (h ▸ .plain rfl)
    · exact h ▸ .ignored
  | lineReset n => exact plain_outcome (f := fun s => lineReset { s with straps := n }) h rfl rfl
  | halt src dst reason => exact halt_outcome h rfl
  | resume src dst => exact halt_outcome h rfl
  | report src dst => exact report_outcome h
  | receiveError => exact receiveError_outcome h
  | dupStation kind => exact dupStation_outcome h
  | sendStart => exact sendStart_outcome h
  | sample r => exact sample_outcome h
  | holdBackRunOut => exact plain_outcome (f := fun s => s) h rfl rfl
  | arbitrationLost => exact plain_outcome (f := (·.onLink Link.lose)) h rfl rfl
  | faultIdleWait => exact plain_outcome (f := (·.onLink Link.recover)) h rfl rfl
  | setpointSendDone => exact plain_outcome (f := setpointDone) h rfl rfl
  | checkpointWriteDone => exact plain_outcome (f := completeWrite) h rfl rfl
  | clockSecond => exact finished_outcome (f := takeSecond) h rfl
  | dayReportQueue => exact finished_outcome (f := dayReportStep) h rfl
  | echoIntact => exact finished_outcome (f := echoIntact) h rfl
  | echoMismatch => exact finished_outcome (f := echoMismatch) h rfl
  | lineHeld => exact finished_outcome (f := lineHeld) h rfl
  | ckptFail => exact finished_outcome (f := failWrite) h rfl
  | fieldLate => exact timed_outcome (f := fieldLateTest) h rfl
  | fieldLost => exact timed_outcome (f := fieldLostTest) h rfl
  | suspenseOld flow => exact timed_outcome (f := suspenseOldTest flow) h rfl
  | listen30sMark | listen120sMark => exact timed_outcome (f := listenTest) h rfl
  | startTimeout => exact timed_outcome (f := timeOutStart) h rfl
  | minStopElapsed => exact timed_outcome (f := autoRestart) h rfl
  | minRunElapsed | zeroDemand300s | startHistoryAgeOut => exact timed_outcome (f := fun s => s) h rfl
  | tripHistoryAgeOut => exact timed_outcome (f := ageOutTrips) h rfl
  | headHoldExpiry => exact timed_outcome (f := expireHead) h rfl
  | heatMaximum bed => exact timed_outcome (f := fun s => phaseExpiry bed .heating s.cfg.dryer.heatMaximum s) h rfl
  | coolMaximum bed => exact timed_outcome (f := fun s => phaseExpiry bed .cooling s.cfg.dryer.coolMaximum s) h rfl
  | time src dst day second => exact received_outcome (take := takeTime day second) h rfl
  | noms src dst slot day hour rate => exact received_outcome (take := takeNomination slot day hour rate) h rfl
  | offer src dst dir quantity share target => exact received_outcome (take := takeOffer src dir quantity target) h rfl
  | invt src dst half day hour inv => exact received_outcome (take := takeInvt src half inv) h rfl
  | claim src dst => exact received_outcome (take := takeClaim src) h rfl
  | cede src dst => exact received_outcome (take := fun s => sequencerReact (removeFromCopy src s)) h rfl
  | join src dst => exact received_outcome (take := takeJoin src) h rfl
  | unknownKind src dst kind => exact received_outcome (take := fun s => s) h rfl
  | orderRestart src dst arg l => exact received_outcome (take := takeRestart src 9 arg l) h rfl
  | orderShut src dst arg l => exact ordered_outcome (answer := answerShut) h rfl
  | orderRelease src dst arg l => exact ordered_outcome (answer := answerRelease) h rfl
  | orderUnlock src dst arg l => exact ordered_outcome (answer := answerUnlock) h rfl
  | orderBedOut src dst arg l => exact ordered_outcome (answer := answerBedOut arg) h rfl
  | orderBedIn src dst arg l => exact ordered_outcome (answer := answerBedIn arg) h rfl
  | orderAccept src dst arg l => exact ordered_outcome (answer := answerSuspense true src 6 arg l) h rfl
  | orderCorrect src dst arg l => exact ordered_outcome (answer := answerSuspense false src 7 arg l) h rfl
  | orderClear src dst arg l => exact ordered_outcome (answer := answerClear) h rfl
  | orderUnknownCommand src dst c arg l => exact ordered_outcome (answer := fun s => (s, some .refusedArg)) h rfl

/-- A step runs the front command on the state with the rest of the queue, or idles. -/
theorem step_cases (h : step s = .next t) :
    t = s ∨ ∃ c rest, s.pending = c :: rest ∧ Outcomes c { s with pending := rest } t := by
  unfold step at h
  split at h
  · injection h with h; exact .inl h.symm
  · next c rest hp => exact .inr ⟨c, rest, hp, exec_cases h⟩

/-! ### Predicates that every command keeps -/

/-- A predicate that what surrounds a block's work keeps: the counts of the filters, a duplicate's telegram, the sequencer's
tests with the hold, the handing of SETPOINT fields and the reset of a restart. -/
structure KeptByEnds (P : State → Prop) : Prop where
  receiveError : ∀ s, P s → P (countReceiveError s)
  discard : ∀ s, P s → P (countDiscard s)
  failed : ∀ s, P s → P (countCheckFailure s)
  duplicate : ∀ kind s, P s → P (takeDuplicate kind s)
  hand : ∀ s, P s → P (handAll s)
  settle : ∀ s, P s → P (settle s)
  request : ∀ s, P s → P (requestSetpoint s)
  restart : ∀ s, P s → P (lineReset s)

variable {P : State → Prop}

theorem KeptByEnds.settleRestart (hP : KeptByEnds P) (h : P s) : P (settleRestart s) := by
  unfold Machine.settleRestart
  split
  · exact hP.restart s h
  · exact h

theorem KeptByEnds.finish (hP : KeptByEnds P) (h : P s) : P (finish s) := hP.settleRestart (hP.hand s h)

theorem KeptByEnds.endsIn (hP : KeptByEnds P) {u : State} (hu : P u) (h : EndsIn c u t) : P t := by
  cases h with
  | plain _ => exact hu
  | finished => exact hP.finish hu
  | settled => exact hP.settleRestart (hP.settle u hu)
  | sampled => exact hP.settleRestart (hP.request _ (hP.settle u hu))

/-- A predicate that a command's block keeps, and what surrounds its work, holds after the command. -/
theorem KeptByEnds.outcome (hP : KeptByEnds P) (hs : P s) (hwork : P (work c s)) (h : Outcomes c s t) : P t := by
  cases h with
  | ignored => exact hs
  | received => exact hP.receiveError s hs
  | discarded => exact hP.discard s hs
  | failed => exact hP.failed s hs
  | duplicate kind => exact hP.finish (hP.duplicate kind s hs)
  | worked h => exact hP.endsIn hwork h

/-- A predicate that speaks of nothing of the command queue is kept by a step when the front command's block keeps it. -/
theorem KeptByEnds.step (hP : KeptByEnds P) (hqueue : ∀ s q, P s → P { s with pending := q })
    (hwork : ∀ c rest, s.pending = c :: rest → P { s with pending := rest } → P (work c { s with pending := rest }))
    (hs : P s) (h : Machine.step s = .next t) : P t := by
  rcases step_cases h with rfl | ⟨c, rest, hp, hout⟩
  · exact hs
  · have hs' := hqueue s rest hs
    exact hP.outcome hs' (hwork c rest hp hs') hout

/-! ### Predicates that the clock's work keeps -/

/-- An unsynchronized clock with a time taken on, before the test of LISTEN and the catch-up (R57, R78, R137). -/
def adoptedTime (day second : Nat) (s : State) : State :=
  { s with
    clock := { s.clock with day := day, second := second, synced := true, refused := none }
    peers := { s.peers with
      offers := s.peers.offers.map (PeerOffer.move (secondDifference s.clock.index (day * 86400 + second))) }
    train := { s.train with
      joinTime := s.train.joinTime.map (moveIndex · (secondDifference s.clock.index (day * 86400 + second))) } }

theorem adoptTime_eq (day second : Nat) (s : State) :
    adoptTime day second s = catchUp (handMode (listenTest (adoptedTime day second s))) := rfl

/-- One instant's work is what the claims say of it (R136). -/
theorem boundary_eq_instantWork (hour : Bool) (endingDay : Option Nat) (s : State) :
    boundary hour endingDay s = instantWork hour endingDay s := by
  cases endingDay <;> rfl

/-- A predicate that the parts of one boundary instant keep. -/
structure KeptByInstant (P : State → Prop) : Prop where
  meter : ∀ s, P s → P (meterMinute s).2
  close : ∀ day s, P s → P (closeDay day s)
  nominate : ∀ s, P s → P (nominationHour s)
  train : ∀ r s, P s → P (trainMinute r s)
  report : ∀ s, P s → P (reportHour s)

theorem KeptByInstant.boundary (hP : KeptByInstant P) (hour : Bool) (endingDay : Option Nat) (hs : P s) :
    P (boundary hour endingDay s) := by
  have hclose (u : State) (hu : P u) : P (endingDay.elim u (closeDay · u)) := by
    cases endingDay with
    | none => exact hu
    | some day => exact hP.close day u hu
  have hnominate (u : State) (hu : P u) : P (if hour then nominationHour u else u) := by
    split
    · exact hP.nominate u hu
    · exact hu
  rw [boundary_eq_instantWork]
  unfold instantWork
  dsimp only
  split
  · exact hnominate _ (hclose _ hs)
  · have htrain := hP.train (meterMinute s).1 _ (hnominate _ (hclose _ (hP.meter s hs)))
    cases hour with
    | true => exact hP.report _ htrain
    | false => exact htrain

/-- A predicate that the parts of one boundary instant keep, and the moves of the clock with the counts that follow it. -/
structure KeptByClock (P : State → Prop) : Prop extends KeptByInstant P where
  clock : ∀ f s, P s → P (s.onClock f)
  tick : ∀ s, P s → P (s.onIntake Intake.tick)
  advance : ∀ s, P s → P (countAdvanced s)
  stepClock : ∀ d s, P s → P (stepClock d s)
  adopted : ∀ day second s, P s → P (adoptedTime day second s)
  listen : ∀ s, P s → P (handMode (listenTest s))
  port : ∀ f s, P s → P (s.onPort f)
  refuse : ∀ d r s, P s → P (refuseStep d r s)

theorem KeptByClock.takeSecond (hP : KeptByClock P) (hs : P s) : P (takeSecond s) := by
  unfold Machine.takeSecond
  split
  · exact hP.tick _ (hP.clock _ s hs)
  · have hcount := hP.advance _ (hP.clock Clock.advance s hs)
    unfold raiseAdvance
    split
    · exact hP.toKeptByInstant.boundary _ _ hcount
    · exact hcount

theorem KeptByClock.applyDifference (hP : KeptByClock P) (d : Int) (hs : P s) : P (applyDifference d s) := by
  unfold Machine.applyDifference raiseStep
  have hstep := hP.clock (fun c => { c with holdBack := 0, refused := none }) _ (hP.stepClock d s hs)
  dsimp only
  split
  · split
    · exact hP.toKeptByInstant.boundary _ _ hstep
    · exact hstep
  · split
    · exact hstep
    · exact hP.clock _ s hs

theorem KeptByClock.largeStep (hP : KeptByClock P) (d : Int) (hs : P s) : P (largeStep d s) := by
  unfold Machine.largeStep
  repeat' split
  · exact hP.refuse d _ s hs
  · exact hP.refuse d _ s hs
  · exact hP.applyDifference d hs
  · exact hP.refuse d _ s hs

theorem KeptByClock.adoptTime (hP : KeptByClock P) (day second : Nat) (hs : P s) : P (adoptTime day second s) := by
  have hlisten := hP.listen _ (hP.adopted day second s hs)
  rw [adoptTime_eq]
  unfold catchUp
  dsimp only
  split
  · split
    · exact hP.port _ _ hlisten
    · split
      · exact hP.toKeptByInstant.boundary _ _ (hP.port _ _ hlisten)
      · exact hP.port _ _ hlisten
  · exact hlisten

theorem KeptByClock.takeTime (hP : KeptByClock P) (day second : Nat) (hs : P s) : P (takeTime day second s) := by
  unfold Machine.takeTime
  dsimp only
  repeat' split
  · exact hs
  · exact hP.adoptTime day second hs
  · exact hP.applyDifference _ hs
  · exact hP.largeStep _ hs

end Sys2Proof.Machine
end

section
/-! PROOFS. The external memory's canonical form (assumption 2): only a checkpoint write touches its cells, and a write
keeps the form (R166, R170). -/

namespace Sys2Proof.Machine

open Sys2Proof (Instr)

variable (s : State)

/-! ### The cells that the clock's work leaves -/

@[simp] theorem reportHour_cells : (reportHour s).ext.cells = s.ext.cells := by simp [reportHour]

/-- A boundary instant begins a write at most: every byte stays as it is (R166). -/
@[simp] theorem boundary_cells (hour : Bool) (d : Option Nat) : (boundary hour d s).ext.cells = s.ext.cells := by
  unfold boundary; cases hour <;> cases d <;> dsimp only <;> split <;> simp

@[simp] theorem takeSecond_cells : (takeSecond s).ext.cells = s.ext.cells := by
  unfold takeSecond raiseAdvance; split <;> (try split) <;> simp

@[simp] theorem applyDifference_cells (d : Int) : (applyDifference d s).ext.cells = s.ext.cells := by
  unfold applyDifference; dsimp only; repeat' split
  all_goals simp [raiseStep]

@[simp] theorem adoptTime_cells (day second : Nat) : (adoptTime day second s).ext.cells = s.ext.cells := by
  unfold adoptTime catchUp; dsimp only; repeat' split
  all_goals simp

@[simp] theorem takeTime_cells (day second : Nat) : (takeTime day second s).ext.cells = s.ext.cells := by
  unfold takeTime largeStep; dsimp only; repeat' split
  all_goals simp

/-! ### The cells that a write leaves -/

variable {s}

theorem failWrite_wf (h : Memory.wf s.ext.cells) : Memory.wf (failWrite s).ext.cells := by
  unfold failWrite
  split
  · exact h
  · simpa using abandonWrite_wf s h

theorem cutWrite_wf (h : Memory.wf s.ext.cells) : Memory.wf (cutWrite s).ext.cells := by
  unfold cutWrite
  split
  · exact abandonWrite_wf s h
  · exact h

/-- A power-on reset changes the external memory only by the loss of power it begins with (R163, assumption 15). -/
theorem powerOn_ext (n : Nat) (u : Bool) (l : List Nat) : (powerOn n u l s).ext = (cutWrite s).ext := by
  unfold powerOn restoreRing
  dsimp only
  split
  · rfl
  · simp only [handAll_frame, leaveConfig_frame]
    split <;> rfl

/-! ### Every command -/

theorem keptByEnds_wf : KeptByEnds (fun s => Memory.wf s.ext.cells) := by
  constructor <;> intros <;> simpa

theorem work_wf (c : Instr) (h : Memory.wf s.ext.cells) : Memory.wf (work c s).ext.cells := by
  have order (src k arg l : Nat) (answer : State → State × Option OrderOutcome)
      (ha : (answer s).1.ext = s.ext) : Memory.wf (takeOrder src k arg l answer s).ext.cells := by
    rcases takeOrder_cases s src k arg l answer with ho | ⟨o, ho⟩ <;> simpa [ho, ha] using h
  cases c with
  | powerOnReset n u l => simpa [work, powerOn_ext] using cutWrite_wf h
  | powerLoss => exact cutWrite_wf h
  | checkpointWriteDone => exact completeWrite_wf s h
  | ckptFail => exact failWrite_wf h
  | orderShut | orderRelease | orderUnlock | orderBedOut | orderBedIn | orderAccept | orderCorrect | orderClear
  | orderUnknownCommand => exact order _ _ _ _ _ (by simp)
  | _ => simpa [work] using h

/-- Settles O11: outside the memory port no work writes a cell, and the port's writes keep the form. -/
theorem memoryStaysCanonical : Obligations.MemoryStaysCanonical := fun _ _ hs h =>
  keptByEnds_wf.step (fun _ _ hp => hp) (fun c _ _ hp => work_wf c hp) hs h

end Sys2Proof.Machine
end

section
/-! PROOFS. The two dryer beds: never both ADSORBING, never both HEATING (R111, R112, R117). -/

namespace Sys2Proof.Machine

open Sys2Proof (Instr Bed)

/-! ### One bed's record -/

@[simp] theorem otherBed_otherBed (bed : Bed) : otherBed (otherBed bed) = bed := by cases bed <;> rfl

@[simp] theorem otherBed_ne (bed : Bed) : otherBed bed ≠ bed := by cases bed <;> simp [otherBed]

@[simp] theorem ne_otherBed (bed : Bed) : bed ≠ otherBed bed := by cases bed <;> simp [otherBed]

/-- Two beds: one of them, or the other. -/
theorem bed_eq_or_other (bed x : Bed) : x = bed ∨ x = otherBed bed := by cases bed <;> cases x <;> simp [otherBed]

variable (d : Dryer) (bed : Bed) (f : BedRecord → BedRecord)

@[simp] theorem Dryer.onBed_bed_same : (d.onBed bed f).bed bed = f (d.bed bed) := by cases bed <;> rfl

@[simp] theorem Dryer.onBed_bed_other : (d.onBed bed f).bed (otherBed bed) = d.bed (otherBed bed) := by
  cases bed <;> rfl

@[simp] theorem Dryer.onBed_other_bed : (d.onBed (otherBed bed) f).bed bed = d.bed bed := by cases bed <;> rfl

@[simp] theorem Dryer.onBed_frame : (d.onBed bed f).idleCarry = d.idleCarry ∧ (d.onBed bed f).dewHigh = d.dewHigh
    ∧ (d.onBed bed f).limit = d.limit ∧ (d.onBed bed f).dryBlock = d.dryBlock := by
  cases bed <;> simp [Dryer.onBed]

/-- What the beds are in decides whether the dryer is sound. -/
theorem Dryer.sound_iff : d.sound ↔ ∀ bed, ¬ ((d.bed bed).state = .adsorbing ∧ (d.bed (otherBed bed)).state = .adsorbing)
    ∧ ¬ ((d.bed bed).state = .heating ∧ (d.bed (otherBed bed)).state = .heating) := by
  constructor
  · rintro ⟨hads, hheat⟩ (_ | _)
    · exact ⟨hads, hheat⟩
    · exact ⟨fun h => hads h.symm, fun h => hheat h.symm⟩
  · intro h; exact h .a

variable {d bed f} {d' : Dryer}

theorem Dryer.sound_of_states (h : d.sound) (hs : ∀ x, (d'.bed x).state = (d.bed x).state) : d'.sound := by
  rw [Dryer.sound_iff] at h ⊢; simpa [hs] using h

/-- A bed's record replaced: the other bed must not be ADSORBING, or HEATING, where the new record is. -/
theorem Dryer.sound_onBed (hads : (f (d.bed bed)).state = .adsorbing → (d.bed (otherBed bed)).state ≠ .adsorbing)
    (hheat : (f (d.bed bed)).state = .heating → (d.bed (otherBed bed)).state ≠ .heating) : (d.onBed bed f).sound := by
  rw [Dryer.sound_iff]
  intro x
  obtain rfl | rfl := bed_eq_or_other bed x <;> simp <;> tauto

/-- A bed's record replaced by one in the same state. -/
theorem Dryer.sound_onBed_same (h : d.sound) (hf : (f (d.bed bed)).state = (d.bed bed).state) : (d.onBed bed f).sound := by
  have hbed := (Dryer.sound_iff d).mp h bed
  exact Dryer.sound_onBed (by rw [hf]; tauto) (by rw [hf]; tauto)

/-- A bed taken to a state that is neither ADSORBING nor HEATING. -/
theorem Dryer.sound_onBed_calm (hads : (f (d.bed bed)).state ≠ .adsorbing) (hheat : (f (d.bed bed)).state ≠ .heating) :
    (d.onBed bed f).sound := Dryer.sound_onBed (fun h => absurd h hads) (fun h => absurd h hheat)

/-! ### Which bed is in a state -/

theorem Dryer.adsorbing_eq_none : d.adsorbing = none ↔ ∀ x, (d.bed x).state ≠ .adsorbing := by
  unfold Dryer.adsorbing
  constructor
  · intro h
    split at h
    · cases h
    · split at h
      · cases h
      · rintro (_ | _) <;> assumption
  · intro h; exact (if_neg (h .a)).trans (if_neg (h .b))

theorem Dryer.adsorbing_eq_some (h : d.adsorbing = some bed) : (d.bed bed).state = .adsorbing := by
  unfold Dryer.adsorbing at h
  split at h
  · next ha => injection h with h; exact h ▸ ha
  · split at h
    · next hb => injection h with h; exact h ▸ hb
    · cases h

theorem Dryer.heating_eq_some (h : d.heating = some bed) : (d.bed bed).state = .heating := by
  unfold Dryer.heating at h
  split at h
  · next ha => injection h with h; exact h ▸ ha
  · split at h
    · next hb => injection h with h; exact h ▸ hb
    · cases h

/-! ### The operations on the beds -/

variable {s : State}

/-- A bed is taken to ADSORBING only while none is (R111). -/
theorem takeBedIn_sound (h : s.dryer.sound) : (takeBedIn s).dryer.sound := by
  unfold takeBedIn
  split
  · next bed hnone _ =>
    split
    · have hno := Dryer.adsorbing_eq_none.mp hnone
      exact Dryer.sound_onBed (fun _ => hno _) (by simp)
    · exact h
  · exact h

/-- A charge leaves the beds in their states (R115). -/
@[simp] theorem bookRegeneration_state (o : Option Bed) (g : Nat) (x : Bed) :
    ((bookRegeneration o g s).dryer.bed x).state = (s.dryer.bed x).state := by
  cases o with
  | none => simp [bookRegeneration]
  | some bed => obtain rfl | rfl := bed_eq_or_other bed x <;> simp [bookRegeneration]

@[simp] theorem chargeBed_state (bed x : Bed) : ((chargeBed bed s).dryer.bed x).state = (s.dryer.bed x).state := by
  obtain rfl | rfl := bed_eq_or_other bed x <;> simp [chargeBed]

theorem chargeBed_sound (h : s.dryer.sound) : (chargeBed bed s).dryer.sound := Dryer.sound_of_states h (by simp)

theorem takeBedOut_sound : (takeBedOut bed s).dryer.sound := by
  have hout : (s.dryer.onBed bed (enterOut s.cfg.dryer.capacity)).sound :=
    Dryer.sound_onBed_calm (by simp [enterOut]) (by simp [enterOut])
  unfold takeBedOut
  dsimp only
  split
  · exact chargeBed_sound hout
  · exact chargeBed_sound hout
  · exact takeBedIn_sound hout
  · exact hout
  · exact hout

theorem bedFault_sound : (bedFault bed s).dryer.sound := takeBedOut_sound

theorem addPassage_sound {o : Option Bed} {shares : List Nat} (h : d.sound) : (addPassage o shares d).sound := by
  cases o with
  | none => exact h
  | some bed => exact Dryer.sound_onBed_same h rfl

theorem bookEnergy_sound {fl : Flow} {v hh : Nat} {w : List Nat} {o : Option Bed} (h : s.dryer.sound) :
    (bookEnergy fl v hh w o s).2.2.dryer.sound := by
  unfold bookEnergy
  cases fl <;> dsimp only <;> split
  · simpa using h
  · simpa using h
  · simpa using addPassage_sound h
  · simpa using addPassage_sound h

theorem bookInterval_sound {v hh fuel : Nat} (h : s.dryer.sound) : (bookInterval v hh fuel s).dryer.sound := by
  unfold bookInterval
  dsimp only
  split
  · simpa using h
  · split
    · simpa using bookEnergy_sound h
    · simpa using bookEnergy_sound h

theorem bookSuspense_sound {fl : Flow} {o : Option Bed} (h : s.dryer.sound) : (bookSuspense fl o s).dryer.sound := by
  unfold bookSuspense
  split
  · exact h
  · split
    · exact h
    · simpa using bookEnergy_sound h

theorem dryerWater_sound {w : Bool} {r : Interval} (h : s.dryer.sound) : (dryerWater w r s).dryer.sound := by
  unfold dryerWater
  split
  · split
    · exact Dryer.sound_onBed_same h rfl
    · exact h
  · exact h

theorem dryerFuel_sound {r : Interval} (h : s.dryer.sound) : (dryerFuel r s).dryer.sound := by
  unfold dryerFuel
  split
  · exact Dryer.sound_onBed_same h rfl
  · dsimp only
    split
    · exact h
    · exact Dryer.sound_of_states h (fun x => bookRegeneration_state _ _ x)

theorem dryerDew_sound {w : Bool} {r : Interval} (h : s.dryer.sound) : (dryerDew w r s).dryer.sound := by
  unfold dryerDew
  dsimp only
  repeat' split
  · exact h
  · exact h
  · exact h
  · simpa using h
  · exact h

/-- The end of a phase leaves its bed COOLING or STANDBY, and takes in a bed only by R111 (R113, R114). -/
theorem dryerPhase_sound {before : BedState} {r : Interval} (h : s.dryer.sound) :
    (dryerPhase bed before r s).dryer.sound := by
  unfold dryerPhase
  repeat' split
  · exact h
  · exact Dryer.sound_onBed_calm (by simp) (by simp)
  · exact h
  · exact takeBedIn_sound (chargeBed_sound (Dryer.sound_onBed_calm (by simp) (by simp)))
  · exact h
  · exact h
  · exact h
  · exact h

/-- The switch puts the ADSORBING bed into HEATING and the STANDBY one in its place (R112). -/
theorem dryerSwitch_sound (h : s.dryer.sound) : (dryerSwitch s).dryer.sound := by
  unfold dryerSwitch
  split
  · exact h
  · next bed _ =>
    split
    · refine (Dryer.sound_iff _).mpr fun x => ?_
      have hbed (d : Dryer) (high : Bool) (x : Bed) : ({ d with dewHigh := high } : Dryer).bed x = d.bed x := by
        cases x <;> rfl
      simp only [State.onDryer_dryer, hbed]
      obtain rfl | rfl := bed_eq_or_other bed x <;> simp [enterHeating]
    · exact h

theorem dryerLimitStep_sound {r : Interval} (h : s.dryer.sound) : (dryerLimitStep r s).dryer.sound := by
  unfold dryerLimitStep
  dsimp only
  split
  · simpa using h
  · exact h

theorem dryerMinute_sound {r : Interval} (h : s.dryer.sound) : (dryerMinute r s).dryer.sound := by
  unfold dryerMinute
  simp only [handDryer_frame]
  exact dryerLimitStep_sound (dryerSwitch_sound (dryerPhase_sound (dryerPhase_sound (dryerDew_sound (dryerFuel_sound
    (dryerWater_sound h))))))

theorem meterMinute_sound (h : s.dryer.sound) : (meterMinute s).2.dryer.sound :=
  dryerMinute_sound (bookSuspense_sound (bookSuspense_sound (bookInterval_sound (by simpa using h))))

/-! ### The train's minute work and the clock -/

theorem reversalMoves_sound (h : s.dryer.sound) : (reversalMoves s).1.dryer.sound := by
  unfold reversalMoves
  repeat' split
  · exact h
  · exact h
  · exact takeBedIn_sound h
  · exact h
  · exact takeBedIn_sound (by simpa using h)
  · exact h
  · exact h

theorem entryStep_sound (h : s.dryer.sound) : (entryStep s).1.dryer.sound := by
  unfold entryStep
  split
  · exact h
  · split
    · exact takeBedIn_sound (by simpa using h)
    · exact h

theorem modeMinute_sound {r : Interval} (h : s.dryer.sound) : (modeMinute r s).dryer.sound := by
  simp only [modeMinute, queueOffer_frame, zeroStep_frame, demandStep_frame]
  exact entryStep_sound (by simpa [directionStep] using reversalMoves_sound h)

theorem trainMinute_sound {r : Interval} (h : s.dryer.sound) : (trainMinute r s).dryer.sound := by
  simp only [trainMinute, sequencerReact_frame]
  exact modeMinute_sound (by simpa using h)

theorem keptByClock_sound : KeptByClock (fun s => s.dryer.sound) where
  meter _ h := meterMinute_sound h
  close _ _ h := by simpa using h
  nominate _ h := h
  train _ _ h := trainMinute_sound h
  report _ h := by simpa using h
  clock _ _ h := h
  tick _ h := h
  advance s h := by
    refine Dryer.sound_of_states h fun bed => ?_
    unfold countAdvanced
    dsimp only
    split
    · rfl
    · cases bed <;> rfl
  stepClock _ _ h := h
  adopted _ _ _ h := h
  listen _ h := by simpa using h
  port _ _ h := h
  refuse _ _ _ h := by simpa using h

/-! ### Every command -/

/-- BED_IN puts an OUT bed into HEATING only while the other is not (R117). -/
theorem answerBedIn_sound {arg : Nat} (h : s.dryer.sound) : (answerBedIn arg s).1.dryer.sound := by
  unfold answerBedIn
  split
  · exact h
  · split
    · next hcan => exact Dryer.sound_onBed (by simp [enterHeating]) (fun _ => hcan.2)
    · exact h

theorem answerBedOut_sound {arg : Nat} (h : s.dryer.sound) : (answerBedOut arg s).1.dryer.sound := by
  unfold answerBedOut
  split
  · exact h
  · dsimp only
    split
    · exact h
    · simpa using takeBedOut_sound

theorem phaseExpiry_sound {p : BedState} {m : Nat} (h : s.dryer.sound) : (phaseExpiry bed p m s).dryer.sound := by
  unfold phaseExpiry
  split
  · exact bedFault_sound
  · exact h

theorem takeOrder_dryer (src k arg l : Nat) (answer : State → State × Option OrderOutcome) :
    (takeOrder src k arg l answer s).dryer = (answer s).1.dryer := by
  rcases takeOrder_cases s src k arg l answer with ho | ⟨o, ho⟩ <;> simp [ho]

theorem work_sound {c : Instr} (hc : ∀ n u l, c ≠ .powerOnReset n u l) (h : s.dryer.sound) :
    (work c s).dryer.sound := by
  cases c with
  | powerOnReset n u l => exact absurd rfl (hc n u l)
  | powerLoss => exact ⟨by simp [work, blank, State.reset], by simp [work, blank, State.reset]⟩
  | clockSecond => exact keptByClock_sound.takeSecond h
  | time => exact keptByClock_sound.takeTime _ _ h
  | orderBedOut => rw [work, takeOrder_dryer]; exact answerBedOut_sound h
  | orderBedIn => rw [work, takeOrder_dryer]; exact answerBedIn_sound h
  | heatMaximum => exact phaseExpiry_sound h
  | coolMaximum => exact phaseExpiry_sound h
  | _ => simpa [work, takeOrder_dryer] using h

theorem keptByEnds_sound : KeptByEnds (fun s => s.dryer.sound) := by
  constructor <;> intros <;> simpa

/-- Settles O59: R111, R112 and R117 are the only ways into ADSORBING and HEATING, and each looks at the other bed. -/
theorem bedsStaySound : Obligations.BedsStaySound := fun _ _ hfront hs h =>
  (keptByEnds_sound.step (P := fun s => s.dryer.sound) (fun _ _ hp => hp)
    (fun c rest hc hp => work_sound (fun n u l he => hfront n u l (by simp [hc, he])) hp) hs h)

end Sys2Proof.Machine
end

section
/-! PROOFS. The transmit queue with its refusal mark, and the start queue copy (R91, R146, R147). -/

namespace Sys2Proof.Machine

open Sys2Proof (Instr)

/-! ### The queue as a list -/

variable {l : Link} {q : List Entry} {e : Entry}

/-- A queue in the order of the classes, with a place for every entry, whatever the mark was before (R146, R147). -/
theorem Link.withQueue_sound (hlen : q.length ≤ 12)
    (hord : q.Pairwise (fun x y => telegramClass x.telegram ≤ telegramClass y.telegram)) :
    (l.withQueue q).queueSound := by
  refine ⟨hlen, hord, fun h => ?_, fun h => ?_⟩
  · simp only [withQueue_queue] at h; simp [refusalMarkAfter, h]
  · simp only [withQueue_queue] at h; simp [refusalMarkAfter, h, show ¬ 9 ≤ q.length by omega]

/-- Fewer entries in the same order. -/
theorem Link.withQueue_sound_of_sublist (h : l.queueSound) (hq : q.Sublist l.queue) : (l.withQueue q).queueSound := by
  obtain ⟨hlen, hord, -, -⟩ := h
  exact withQueue_sound (hq.length_le.trans hlen) (hord.sublist hq)

/-- The entries changed in place, each keeping its class. -/
theorem Link.queueSound_map (h : l.queueSound) {g : Entry → Entry}
    (hg : ∀ x, telegramClass (g x).telegram = telegramClass x.telegram) :
    ({ l with queue := l.queue.map g } : Link).queueSound := by
  obtain ⟨hlen, hord, hfull, hfree⟩ := h
  refine ⟨by simpa using hlen, ?_, by simpa using hfull, by simpa using hfree⟩
  rw [List.pairwise_map]
  simpa only [hg] using hord

/-- An entry stands behind its class and before the next (R146). -/
theorem insertEntry_pairwise (h : q.Pairwise (fun x y => telegramClass x.telegram ≤ telegramClass y.telegram)) :
    (insertEntry q e).Pairwise (fun x y => telegramClass x.telegram ≤ telegramClass y.telegram) := by
  unfold insertEntry
  rw [List.pairwise_append, List.pairwise_cons]
  refine ⟨h.filter _, ⟨fun x hx => ?_, h.filter _⟩, fun x hx y hy => ?_⟩
  · have := (List.mem_filter.mp hx).2
    simp only [decide_eq_true_eq] at this
    omega
  · have hle := (List.mem_filter.mp hx).2
    simp only [decide_eq_true_eq] at hle
    rcases List.mem_cons.mp hy with rfl | hy
    · exact hle
    · have := (List.mem_filter.mp hy).2
      simp only [decide_eq_true_eq] at this
      omega

theorem Link.enter_sound (h : l.queueSound) (hlen : l.queue.length < 12) (t : Telegram) (o : Owner) :
    (l.enter t o).queueSound := by
  have hs : (l.withQueue (insertEntry l.queue { telegram := t, owner := o, ticket := l.nextTicket })).queueSound :=
    withQueue_sound (by simpa using hlen) (insertEntry_pairwise h.2.1)
  exact hs

/-- A telegram replaces one of its own class (R146). -/
theorem telegramClass_of_replaces {t : Telegram} (h : replaces t e = true) :
    telegramClass t = telegramClass e.telegram := by
  unfold replaces at h
  cases t <;> cases he : e.telegram <;> simp_all [telegramClass]

theorem Link.replace_sound (h : l.queueSound) (t : Telegram) : (l.replace t).queueSound := by
  refine Link.queueSound_map h fun x => ?_
  split
  · next hr => exact telegramClass_of_replaces hr
  · rfl

theorem Link.remove_sound (h : l.queueSound) (e : Entry) : (l.remove e).queueSound :=
  withQueue_sound_of_sublist h List.filter_sublist

theorem Link.withdraw_sound (h : l.queueSound) (p : Entry → Bool) : (l.withdraw p).queueSound :=
  withQueue_sound_of_sublist h List.filter_sublist

/-- An entry that stands in the queue makes it shorter as it leaves. -/
theorem Link.remove_length_lt (he : e ∈ l.queue) : (l.remove e).queue.length < l.queue.length :=
  List.length_filter_lt_length_iff_exists.mpr ⟨e, he, by simp⟩

/-! ### What a telegram handed to the queue finds (R146 to R148) -/

theorem fateOf_entered {t : Telegram} (h : fateOf l t = .entered) :
    l.queue.length < 12 ∧ (telegramClass t = 3 → l.refusalMark = false) := by
  unfold fateOf at h
  split at h
  · cases h
  · split at h
    · cases h
    · next hm =>
      split at h
      · next hlen => exact ⟨hlen, fun hc => by simpa [hc] using hm⟩
      · split at h <;> cases h

theorem fateOf_evicting {t : Telegram} (h : fateOf l t = .evicting e) :
    12 ≤ l.queue.length ∧ e ∈ l.queue ∧ e.onLine = false ∧ telegramClass t < telegramClass e.telegram := by
  unfold fateOf at h
  split at h
  · cases h
  · split at h
    · cases h
    · split at h
      · cases h
      · next hlen =>
        split at h
        · next hn =>
          cases h
          exact ⟨by omega, newestAbove_spec hn⟩
        · cases h

/-- A CONDITION report replaces nothing. -/
theorem fateOf_condition_ne_replaced (r : ConditionReport) : fateOf l (.condition r) ≠ .replaced := by
  unfold fateOf
  rw [if_neg (by simp [replaces])]
  repeat' split
  all_goals simp

/-! ### The sound queue of a state -/

/-- The transmit queue of the part is sound (R146, R147). -/
def State.queued (s : State) : Prop := s.link.queueSound

variable {s : State}

theorem State.queued_of_link {t : State} (h : s.queued) (hl : t.link = s.link) : t.queued := by
  unfold State.queued; rwa [hl]

@[simp] theorem State.onLink_queued (f : Link → Link) : (s.onLink f).queued ↔ (f s.link).queueSound := Iff.rfl
@[simp] theorem State.onClock_queued (f : Clock → Clock) : (s.onClock f).queued ↔ s.queued := Iff.rfl
@[simp] theorem State.onAcct_queued (f : Accounts → Accounts) : (s.onAcct f).queued ↔ s.queued := Iff.rfl
@[simp] theorem State.onNom_queued (f : Nominations → Nominations) : (s.onNom f).queued ↔ s.queued := Iff.rfl
@[simp] theorem State.onPeers_queued (f : Peers → Peers) : (s.onPeers f).queued ↔ s.queued := Iff.rfl
@[simp] theorem State.onTrain_queued (f : Train → Train) : (s.onTrain f).queued ↔ s.queued := Iff.rfl
@[simp] theorem State.onComp_queued (f : Compressor → Compressor) : (s.onComp f).queued ↔ s.queued := Iff.rfl
@[simp] theorem State.onDryer_queued (f : Dryer → Dryer) : (s.onDryer f).queued ↔ s.queued := Iff.rfl
@[simp] theorem State.onIntake_queued (f : Intake → Intake) : (s.onIntake f).queued ↔ s.queued := Iff.rfl
@[simp] theorem State.onMon_queued (f : Monitor → Monitor) : (s.onMon f).queued ↔ s.queued := Iff.rfl
@[simp] theorem State.onPort_queued (f : MemoryPort → MemoryPort) : (s.onPort f).queued ↔ s.queued := Iff.rfl
@[simp] theorem State.onExt_queued (f : ExternalMemory → ExternalMemory) : (s.onExt f).queued ↔ s.queued := Iff.rfl

@[simp] theorem raiseQuiet_queued (c : Cond) (slot : Nat) (v : Int) : (raiseQuiet c slot v s).queued ↔ s.queued := by
  simp [State.queued]

/-- A CONDITION report keeps the queue sound, and enters it only below nine entries (R147). -/
theorem queueConditionReport_queued (r : ConditionReport) (h : s.queued) : (queueConditionReport r s).queued
    ∧ (queueConditionReport r s).link.queue.length ≤ max s.link.queue.length 9 := by
  unfold queueConditionReport
  split
  · next hf => exact absurd hf (fateOf_condition_ne_replaced r)
  · next hf =>
    obtain ⟨hlen, hmark⟩ := fateOf_entered hf
    refine ⟨Link.enter_sound h hlen _ _, ?_⟩
    have hfull : ¬ 9 ≤ s.link.queue.length := fun h9 => by
      have hset := h.2.2.1 h9
      rw [hmark rfl] at hset
      cases hset
    simp [Link.enter]; omega
  all_goals exact ⟨by simpa using h, by simp⟩

theorem raise_queued_length (c : Cond) (slot : Nat) (v : Int) (h : s.queued) : (raise c slot v s).queued
    ∧ (raise c slot v s).link.queue.length ≤ max s.link.queue.length 9 := by
  unfold raise
  dsimp only
  split
  · simpa using queueConditionReport_queued _ ((raiseQuiet_queued c slot v).mpr h)
  · exact ⟨by simpa using h, by simp⟩

@[simp] theorem raise_queued (c : Cond) (slot : Nat) (v : Int) (h : s.queued) : (raise c slot v s).queued :=
  (raise_queued_length c slot v h).1

theorem raiseDrop_queued_length (t : Telegram) (h : s.queued) : (raiseDrop t s).queued
    ∧ (raiseDrop t s).link.queue.length ≤ max s.link.queue.length 9 := by
  unfold raiseDrop
  split
  · exact ⟨by simpa using h, by simp⟩
  · exact raise_queued_length _ _ _ h

@[simp] theorem tellUnsent_queued (o : Owner) (t : Telegram) : (tellUnsent o t s).queued ↔ s.queued := by
  simp [State.queued]

/-- Whatever becomes of a telegram, the queue stays sound (R146 to R148). -/
@[simp] theorem enqueue_queued (t : Telegram) (o : Owner) (h : s.queued) : (enqueue t o s).queued := by
  unfold enqueue
  split
  · exact h
  · split
    · exact Link.replace_sound h t
    · next hf => exact Link.enter_sound h (fateOf_entered hf).1 t o
    · next e hf =>
      obtain ⟨hfull, he, -⟩ := fateOf_evicting hf
      have hshort := Link.remove_length_lt he
      have hlen := h.1
      obtain ⟨hdrop, hd⟩ := raiseDrop_queued_length (s := tellUnsent e.owner e.telegram (s.onLink (·.remove e)))
        e.telegram (by simpa using Link.remove_sound h e)
      refine Link.enter_sound hdrop ?_ t o
      simp only [tellUnsent_frame, State.onLink_link] at hd
      omega
    all_goals exact (raiseDrop_queued_length t (by simpa using h)).1

/-! ### The operations of the blocks -/

@[simp] theorem handFields_queued (f : Setpoint → Setpoint) : (handFields f s).queued ↔ s.queued := by simp [State.queued]
@[simp] theorem handAll_queued : (handAll s).queued ↔ s.queued := by simp [State.queued]
@[simp] theorem handDryer_queued : (handDryer s).queued ↔ s.queued := by simp [State.queued]
@[simp] theorem handMode_queued : (handMode s).queued ↔ s.queued := by simp [State.queued]
@[simp] theorem handCommand_queued : (handCommand s).queued ↔ s.queued := by simp [State.queued]
@[simp] theorem requestSetpoint_queued : (requestSetpoint s).queued ↔ s.queued := by simp [State.queued]
@[simp] theorem setDemand_queued (d : Int) : (setDemand d s).queued ↔ s.queued := by simp [State.queued]
@[simp] theorem takeBedIn_queued : (takeBedIn s).queued ↔ s.queued := by simp [State.queued]
@[simp] theorem listenTest_queued : (listenTest s).queued ↔ s.queued := by simp [State.queued]
@[simp] theorem applyHold_queued : (applyHold s).queued ↔ s.queued := by simp [State.queued]
@[simp] theorem lowerOffer_queued : (lowerOffer s).queued ↔ s.queued := by simp [State.queued]
@[simp] theorem stopTrain_queued (m : Mode) : (stopTrain m s).queued ↔ s.queued := by simp [State.queued]

@[simp] theorem queueCede_queued (h : s.queued) : (queueCede s).queued := by
  unfold queueCede; split <;> simp [h]

@[simp] theorem queueClaim_queued (h : s.queued) : (queueClaim s).queued := by simp [queueClaim, h]

@[simp] theorem withdrawClaim_queued (h : s.queued) : (withdrawClaim s).queued := by
  unfold withdrawClaim
  split
  · exact Link.withdraw_sound h _
  · exact h

@[simp] theorem sequencerReact_queued (h : s.queued) : (sequencerReact s).queued := by
  have hcancel : (cancelTests s).queued := by
    unfold cancelTests; split <;> (try split) <;> simp [h]
  have hstop : (stopTests (cancelTests s)).queued := by
    unfold stopTests; split <;> (try split) <;> simp [hcancel]
  unfold sequencerReact claimTest
  split <;> simp [hstop]

@[simp] theorem settle_queued (h : s.queued) : (settle s).queued := by simp [settle, h]

@[simp] theorem replyTo_queued (o : Owner) (c k a n : Nat) (r : OrderOutcome) (h : s.queued) :
    (replyTo o c k a n r s).queued := by simp [replyTo, h]

@[simp] theorem replyDue_queued (d : Due) (r : OrderOutcome) (h : s.queued) : (replyDue d r s).queued := by
  simp [replyDue, h]

@[simp] theorem queueOffer_queued (h : s.queued) : (queueOffer s).queued := by simp [queueOffer, h]
@[simp] theorem enterHold_queued (h : s.queued) : (enterHold s).queued := by simp [enterHold, h]
@[simp] theorem enterShutIn_queued (h : s.queued) : (enterShutIn s).queued := by simp [enterShutIn, h]

@[simp] theorem enterListen_queued (h : s.queued) : (enterListen s).queued := by
  unfold enterListen; dsimp only; split <;> (try split) <;> simp [h]

@[simp] theorem release_queued (h : s.queued) : (release s).queued := by
  unfold release; split <;> (try split) <;> simp [h]

@[simp] theorem endHold_queued (h : s.queued) : (endHold s).queued := by
  unfold endHold; split <;> (try split) <;> simp [h]

@[simp] theorem fieldLostMode_queued (h : s.queued) : (fieldLostMode s).queued := by
  unfold fieldLostMode; split <;> simp [h]

/-! ### Booking and charges -/

@[simp] theorem compareSpaces_queued (shares : List Nat) (h : s.queued) : (compareSpaces shares s).queued := by
  unfold compareSpaces
  generalize List.filter _ (List.range 17) = slots
  induction slots generalizing s with
  | nil => exact h
  | cons slot rest ih =>
    refine ih ?_
    unfold compareSpace
    split <;> simp [h]

@[simp] theorem bookEnergy_queued (f : Flow) (v hh : Nat) (w : List Nat) (bed : Option Bed) (h : s.queued) :
    (bookEnergy f v hh w bed s).2.2.queued := by
  unfold bookEnergy; cases f <;> dsimp only <;> split <;> simp [h]

@[simp] theorem bookFuel_queued (k : FuelKind) (n : Nat) (w : List Nat) (h : s.queued) : (bookFuel k n w s).queued := by
  unfold bookFuel; dsimp only; split <;> simp [h]

@[simp] theorem bookRegeneration_queued (bed : Option Bed) (g : Nat) (h : s.queued) :
    (bookRegeneration bed g s).queued := by
  unfold bookRegeneration; cases bed <;> simp [h]

@[simp] theorem bookInterval_queued (v hh n : Nat) (h : s.queued) : (bookInterval v hh n s).queued := by
  unfold bookInterval
  dsimp only
  rw [State.onMon_queued]
  refine bookFuel_queued _ _ _ ?_
  split
  · exact h
  · split
    · exact raise_queued _ _ _ (bookEnergy_queued _ _ _ _ _ h)
    · exact bookEnergy_queued _ _ _ _ _ h

@[simp] theorem chargeBed_queued (bed : Bed) (h : s.queued) : (chargeBed bed s).queued := by simp [chargeBed, h]

@[simp] theorem takeBedOut_queued (bed : Bed) (h : s.queued) : (takeBedOut bed s).queued := by
  unfold takeBedOut; dsimp only; split <;> simp [h]

@[simp] theorem bedFault_queued (bed : Bed) (h : s.queued) : (bedFault bed s).queued := by simp [bedFault, h]

@[simp] theorem dryerMinute_queued (r : Interval) (h : s.queued) : (dryerMinute r s).queued := by
  have hfuel {u : State} (hu : u.queued) : (dryerFuel r u).queued := by
    unfold dryerFuel; dsimp only; split
    · simp [hu]
    · split <;> simp [hu]
  have hdew {u : State} (w : Bool) (hu : u.queued) : (dryerDew w r u).queued := by
    unfold dryerDew; dsimp only; repeat' split
    all_goals simp [hu]
  have hphase {u : State} (bed : Bed) (b : BedState) (hu : u.queued) : (dryerPhase bed b r u).queued := by
    unfold dryerPhase; repeat' split
    all_goals simp [hu]
  have hlimit {u : State} (hu : u.queued) : (dryerLimitStep r u).queued := by
    unfold dryerLimitStep; dsimp only; split <;> simp [hu]
  unfold dryerMinute
  refine handDryer_queued.mpr (hlimit (State.queued_of_link ?_ (dryerSwitch_frame _).2.2.2.2.2.2.2))
  exact hphase _ _ (hphase _ _ (hdew _ (hfuel (State.queued_of_link h (dryerWater_frame _ _ _).2.2.2.2.2.2.2))))

/-! ### The accounts, the intake and the clock -/

theorem abandonReports_queued (h : s.queued) : (abandonReports s).queued := by
  have hmap : (s.onLink (fun l => { l.withdraw Entry.isDay with
      queue := (l.withdraw Entry.isDay).queue.map (fun e => if e.isDay then { e with owner := .pastClose } else e) })).queued :=
    Link.queueSound_map (Link.withdraw_sound h _) fun e => by split <;> rfl
  unfold abandonReports
  dsimp only
  split
  · exact hmap
  · exact raise_queued _ _ _ hmap

@[simp] theorem closeDay_queued (day : Nat) (h : s.queued) : (closeDay day s).queued := by
  simp [closeDay, abandonReports_queued h]

@[simp] theorem toSuspense_queued (span : Nat) (v : Option Nat) (h : s.queued) : (toSuspense span v s).queued := by
  unfold toSuspense; dsimp only; split
  · simp [h]
  · split <;> simp [h]

@[simp] theorem bookSuspense_queued (f : Flow) (bed : Option Bed) (h : s.queued) : (bookSuspense f bed s).queued := by
  unfold bookSuspense; split
  · exact h
  · split <;> simp [h]

theorem takeMeter_queued (p : Sample) (h : s.queued) : (takeMeter p s).queued := by
  have hdiff (dv span : Nat) (b : Bool) : (takeDifference dv span b s).queued := by
    unfold takeDifference; dsimp only; repeat' split
    all_goals simp [h]
  unfold takeMeter; dsimp only; repeat' split
  all_goals simp [h, hdiff]

theorem closeInterval_queued (h : s.queued) : (closeInterval s).2.queued := by
  unfold closeInterval raiseCv; dsimp only; split
  · simp [h]
  · split <;> simp [h]

theorem meterMinute_queued (h : s.queued) : (meterMinute s).2.queued := by
  have hcarry {u : State} (f : Compressor → Compressor) (hu : u.queued) : (u.onComp f).queued := hu
  exact dryerMinute_queued _ (bookSuspense_queued _ _ (bookSuspense_queued _ _ (bookInterval_queued _ _ _
    (hcarry _ (closeInterval_queued h)))))

theorem trainMinute_queued (r : Interval) (h : s.queued) : (trainMinute r s).queued := by
  have hseq : (sequencerMinute r s).queued := by
    unfold sequencerMinute startLimitTest; split <;> (try split) <;> simp [h]
  have hmode {u : State} (hu : u.queued) : (modeMinute r u).queued := by
    unfold modeMinute
    refine queueOffer_queued (State.queued_of_link hu ?_)
    simp [directionStep]
  exact sequencerReact_queued (hmode (sequencerReact_queued hseq))

theorem hourlyReport_queued (h : s.queued) : (hourlyReport s).queued := by
  have hq : (enqueue (.hourly (hourlyOf s)) .other s).queued := enqueue_queued _ _ h
  exact hq

theorem reportHour_queued (h : s.queued) : (reportHour s).queued := by
  refine hourlyReport_queued ?_
  simp only [queueInvts, queueInvt]
  exact enqueue_queued _ _ (enqueue_queued _ _ (State.queued_of_link h (takeCheckpoint_frame s).2.2.1))

theorem keptByClock_queued : KeptByClock State.queued where
  meter _ h := meterMinute_queued h
  close _ _ h := closeDay_queued _ h
  nominate _ h := h
  train r _ h := trainMinute_queued r h
  report _ h := reportHour_queued h
  clock _ _ h := h
  tick _ h := h
  advance _ h := h
  stepClock _ _ h := h
  adopted _ _ _ h := h
  listen _ h := by simpa using h
  port _ _ h := h
  refuse _ _ _ h := raise_queued _ _ _ h

/-! ### The compressor, the link and the orders -/

theorem ownHead_queued (h : s.queued) : (ownHead s).queued := State.queued_of_link h (by simp)
theorem removeFromCopy_queued (n : Nat) (h : s.queued) : (removeFromCopy n s).queued := State.queued_of_link h (by simp)

theorem takeTrip_queued (h : s.queued) : (takeTrip s).queued := by
  have hraised {u : State} (n : Nat) (hu : u.queued) : (if n ≥ 3 then raise .compLockout 0 3 u else u).queued := by
    split
    · exact raise_queued _ _ _ hu
    · exact hu
  unfold takeTrip
  dsimp only
  split
  · exact queueCede_queued (hraised _ (raise_queued _ _ _ h))
  · exact queueCede_queued (hraised _ (raise_queued _ _ _ h))
  · exact withdrawClaim_queued (hraised _ (raise_queued _ _ _ h))
  all_goals exact hraised _ (raise_queued _ _ _ h)

theorem takeFeedback_queued (fb : Option Feedback) (h : s.queued) : (takeFeedback fb s).queued := by
  have htable (before : Option Feedback) (f : Feedback) {u : State} (hu : u.queued) :
      (feedbackTable before f u).queued := by
    unfold feedbackTable; split <;> (try split) <;>
      simp [hu, takeTrip_queued, State.queued_of_link (s := u) (t := autoRestart u) hu (by simp)]
  unfold takeFeedback
  split
  · exact h
  · dsimp only
    split
    · exact State.queued_of_link h (by simp)
    · exact htable _ _ h

theorem takeSample_queued (r : Option Sample) (h : s.queued) : (takeSample r s).1.queued := by
  unfold takeSample; split
  · exact h
  · next p =>
    split
    · exact h
    · unfold acceptSample
      have hfb : (takeFeedback p.feedback (endHold (s.onIntake (·.accept p)))).queued :=
        takeFeedback_queued _ (endHold_queued h)
      dsimp only
      split
      · exact hfb
      · exact State.queued_of_link (takeMeter_queued p hfb) (by simp)

theorem Link.quit_sound (h : l.queueSound) (st : LinkState) : (l.quit st).queueSound :=
  Link.queueSound_map h fun _ => rfl

theorem enterFault_queued (v : Int) (h : s.queued) : (enterFault v s).queued := by
  exact sequencerReact_queued (raise_queued _ _ _ ((lowerOffer_queued).mpr (Link.quit_sound h .fault)))

theorem takeDuplicate_queued (k : Nat) (h : s.queued) : (takeDuplicate k s).queued := by
  unfold takeDuplicate; split
  · exact h
  · exact sequencerReact_queued (raise_queued _ _ _ ((lowerOffer_queued).mpr (Link.quit_sound h .silent)))

theorem ownClaimEcho_queued (h : s.queued) : (ownClaimEcho s).queued := by
  unfold ownClaimEcho
  dsimp only
  split
  · exact h
  · split
    · exact queueCede_queued h
    · split
      · refine ownHead_queued ?_
        split
        · exact h
        · exact queueCede_queued h
      · split
        · exact h
        · exact queueCede_queued h

theorem echoIntact_queued (h : s.queued) : (echoIntact s).queued := by
  unfold echoIntact
  split
  · exact sequencerReact_queued (State.queued_of_link (s := s.onLink (fun l => { l with
      state := .active, join := .absent, joinFailures := 0 })) h (by simp [joinDone]))
  · split
    · exact h
    · next e _ =>
      refine sequencerReact_queued ?_
      have hr : (s.onLink (·.remove e)).queued := Link.remove_sound h e
      unfold tellSent
      split
      · exact hr
      · exact ownClaimEcho_queued hr
      · exact removeFromCopy_queued _ hr
      · exact hr

theorem countBrokenEcho_queued (h : s.queued) : (countBrokenEcho s).queued := by
  unfold countBrokenEcho; split
  · exact h
  · exact h

theorem failEntry_queued (e : Entry) (h : s.queued) : (failEntry e s).queued := by
  have hr : (s.onLink (·.remove e)).queued := Link.remove_sound h e
  unfold failEntry
  dsimp only
  split
  · exact queueCede_queued (raise_queued _ _ _ (by simpa using hr))
  · exact raise_queued _ _ _ (by simpa using hr)

theorem echoMismatch_queued (h : s.queued) : (echoMismatch s).queued := by
  have hb := countBrokenEcho_queued h
  unfold echoMismatch
  split
  · unfold joinMismatch
    split
    · dsimp only
      split
      · exact enterFault_queued _ hb
      · exact hb
    all_goals exact hb
  · split
    · exact h
    · dsimp only
      split
      · exact sequencerReact_queued (failEntry_queued _ hb)
      · exact Link.queueSound_map hb fun x => by split <;> rfl

theorem Link.start_sound (h : l.queueSound) : l.start.queueSound := by
  obtain ⟨hlen, hord, hfull, hfree⟩ := h
  have hstart : ({ l with queue := startFirst l.queue } : Link).queueSound := by
    unfold startFirst
    split
    · next hq => exact ⟨by simp, by simp, by simp, by simpa [hq] using hfree⟩
    · next e rest hq =>
      rw [hq] at hlen hord hfull hfree
      exact ⟨hlen, by simpa using hord, hfull, hfree⟩
  unfold Link.start
  split
  · exact ⟨hlen, hord, hfull, hfree⟩
  · split
    · exact hstart
    · split <;> exact ⟨hlen, hord, hfull, hfree⟩
    · split <;> exact ⟨hlen, hord, hfull, hfree⟩
    · exact ⟨hlen, hord, hfull, hfree⟩

theorem dayReportStep_queued (h : s.queued) : (dayReportStep s).queued := by
  unfold dayReportStep
  split
  · split
    · exact h
    · unfold queueDayReport
      dsimp only
      split <;> simp [h]
  · exact h

theorem shutIn_queued (h : s.queued) : (shutIn s).queued := by
  unfold shutIn; split <;> simp [h]

theorem leaveConfig_queued (b : Bool) (h : s.queued) : (leaveConfig b s).queued := by
  have hrestore {u : State} (hu : u.queued) : (raiseRestore u).queued := by
    unfold raiseRestore; dsimp only; split <;> simp [hu]
  have hfirst {u : State} (hu : u.queued) : (firstSetpoint (u.onLink (fun l =>
      { l with state := .joining, join := .waiting }))).queued := by
    rw [firstSetpoint, requestSetpoint_queued]
    exact hu
  have htrain (m : Mode) : (s.onTrain (fun c => { c with mode := m })).queued := h
  unfold leaveConfig
  split
  · cases b with
    | true => exact hfirst (hrestore (htrain _))
    | false => exact enterListen_queued (hfirst (hrestore (htrain _)))
  · exact h

theorem lineReset_queued : (lineReset s).queued := by
  refine handAll_queued.mpr (leaveConfig_queued _ ?_)
  exact ⟨by simp [lineResetBlocks, Link.lineReset], by simp [lineResetBlocks, Link.lineReset],
    by simp [lineResetBlocks, Link.lineReset], by simp [lineResetBlocks, Link.lineReset]⟩

theorem State.reset_queued {t : State} (h : t.link = {}) : t.queued := by
  unfold State.queued
  rw [h]
  exact ⟨by simp, by simp, by simp, by simp⟩

theorem powerOn_queued (n : Nat) (u : Bool) (sl : List Nat) : (powerOn n u sl s).queued := by
  have hring (m : Image) {t : State} (ht : t.queued) : (restoreRing m sl t).queued := by
    unfold restoreRing; split <;> exact ht
  unfold powerOn
  dsimp only
  split
  · exact State.reset_queued rfl
  · exact handAll_queued.mpr (leaveConfig_queued _ (hring _ (State.reset_queued rfl)))

theorem takeOrder_queued (src k arg n : Nat) (answer : State → State × Option OrderOutcome) (h : (answer s).1.queued) :
    (takeOrder src k arg n answer s).queued := by
  rcases takeOrder_cases s src k arg n answer with ho | ⟨o, ho⟩ <;> simp [ho, h]

theorem takeRestart_queued (src k arg n : Nat) (h : s.queued) : (takeRestart src k arg n s).queued := by
  unfold takeRestart
  split
  · exact lineReset_queued
  · split
    · exact replyTo_queued _ _ _ _ _ _ h
    · exact replyTo_queued _ _ _ _ _ _ h

theorem answerBedOut_queued (arg : Nat) (h : s.queued) : (answerBedOut arg s).1.queued := by
  unfold answerBedOut
  split
  · exact h
  · dsimp only; split <;> simp [h]

theorem answerUnlock_queued (h : s.queued) : (answerUnlock s).1.queued := by
  unfold answerUnlock; split <;> simp [h]

theorem keptByEnds_queued : KeptByEnds State.queued where
  receiveError _ h := h
  discard _ h := h
  failed _ h := h
  duplicate k _ h := takeDuplicate_queued k h
  hand _ h := by simpa using h
  settle _ h := settle_queued h
  request _ h := by simpa using h
  restart _ _ := lineReset_queued

theorem takeHalt_queued (src : Nat) (h : s.queued) : (takeHalt src s).queued := by
  unfold takeHalt
  dsimp only
  split
  · exact h
  · split
    · exact shutIn_queued h
    · exact h

theorem takeOffer_queued (src dir o target : Nat) (h : s.queued) : (takeOffer src dir o target s).queued := by
  unfold takeOffer; dsimp only; split <;> (try split) <;> simp [h]

theorem phaseExpiry_queued (bed : Bed) (p : BedState) (m : Nat) (h : s.queued) : (phaseExpiry bed p m s).queued := by
  unfold phaseExpiry; split <;> simp [h]

theorem timeOutStart_queued (h : s.queued) : (timeOutStart s).queued := by
  unfold timeOutStart; split <;> simp [h]

theorem failWrite_queued (h : s.queued) : (failWrite s).queued := by
  obtain ⟨e, n, ha⟩ := abandonWrite_eq s
  unfold failWrite
  rw [ha]
  split
  · exact h
  · exact raise_queued _ _ _ (State.queued_of_link h (by simp))

theorem takeNomination_queued (slot day hour : Nat) (rate : Int) (h : s.queued) :
    (takeNomination slot day hour rate s).queued := by
  unfold takeNomination; split <;> simp [h]

theorem takeJoin_queued (src : Nat) (h : s.queued) : (takeJoin src s).queued := by
  have hleft : ((removeFromCopy src s).onPeers (·.setOffer src none)).queued := removeFromCopy_queued src h
  exact sequencerReact_queued (queueOffer_queued (enqueue_queued _ _ (enqueue_queued _ _ hleft)))

theorem takeInvt_queued (src half : Nat) (inv : List Int) (h : s.queued) : (takeInvt src half inv s).queued := by
  unfold takeInvt; split <;> simp [h]

theorem timerTests_queued (h : s.queued) : (fieldLateTest s).queued ∧ (fieldLostTest s).queued
    ∧ ∀ f, (suspenseOldTest f s).queued := by
  refine ⟨?_, ?_, fun f => ?_⟩
  · unfold fieldLateTest; split <;> simp [h]
  · unfold fieldLostTest; split <;> simp [h]
  · unfold suspenseOldTest; split <;> (try split) <;> simp [h]

theorem takeClaim_queued (n : Nat) (h : s.queued) : (takeClaim n s).queued := by
  unfold takeClaim; repeat' split
  all_goals exact h

theorem lineHeld_queued (h : s.queued) : (lineHeld s).queued := by
  unfold lineHeld
  split
  · exact h
  · split
    · exact enterFault_queued _ h
    · exact enterFault_queued _ h
    all_goals exact h

theorem Link.recover_sound (h : l.queueSound) : l.recover.queueSound := by
  unfold Link.recover; split <;> exact h

/-- Every command's block keeps the transmit queue sound. -/
theorem work_queued (c : Instr) (h : s.queued) : (work c s).queued := by
  cases c with
  | powerOnReset n u l => exact powerOn_queued n u l
  | powerLoss => exact State.reset_queued rfl
  | lineReset n => exact lineReset_queued
  | clockSecond => exact keptByClock_queued.takeSecond h
  | time => exact keptByClock_queued.takeTime _ _ h
  | noms => exact takeNomination_queued _ _ _ _ h
  | offer => exact takeOffer_queued _ _ _ _ h
  | invt => exact takeInvt_queued _ _ _ h
  | claim => exact takeClaim_queued _ h
  | cede => exact sequencerReact_queued (removeFromCopy_queued _ h)
  | join => exact takeJoin_queued _ h
  | halt => exact takeHalt_queued _ h
  | orderShut => exact takeOrder_queued _ _ _ _ _ (shutIn_queued h)
  | orderRelease =>
    refine takeOrder_queued _ _ _ _ _ ?_
    rcases answerRelease_cases (s := s) with hr | ⟨-, hr⟩ <;> simp [hr, h]
  | orderUnlock => exact takeOrder_queued _ _ _ _ _ (answerUnlock_queued h)
  | orderBedOut => exact takeOrder_queued _ _ _ _ _ (answerBedOut_queued _ h)
  | orderBedIn => exact takeOrder_queued _ _ _ _ _ (State.queued_of_link h (by simp))
  | orderAccept | orderCorrect => exact takeOrder_queued _ _ _ _ _ (State.queued_of_link h (by simp))
  | orderClear | orderUnknownCommand => exact takeOrder_queued _ _ _ _ _ h
  | orderRestart => exact takeRestart_queued _ _ _ _ h
  | dupStation => exact takeDuplicate_queued _ h
  | sendStart => exact Link.start_sound h
  | arbitrationLost => exact Link.queueSound_map h fun _ => rfl
  | echoIntact => exact echoIntact_queued h
  | echoMismatch => exact echoMismatch_queued h
  | lineHeld => exact lineHeld_queued h
  | faultIdleWait => exact Link.recover_sound h
  | dayReportQueue => exact dayReportStep_queued h
  | sample => exact takeSample_queued _ h
  | fieldLate => exact (timerTests_queued h).1
  | fieldLost => exact (timerTests_queued h).2.1
  | suspenseOld f => exact (timerTests_queued h).2.2 f
  | startTimeout => exact timeOutStart_queued h
  | heatMaximum | coolMaximum => exact phaseExpiry_queued _ _ _ h
  | ckptFail => exact failWrite_queued h
  | checkpointWriteDone => exact State.queued_of_link h (completeWrite_frame s).2.2.1
  | setpointSendDone | minStopElapsed | headHoldExpiry => exact State.queued_of_link h (by simp [work])
  | listen30sMark | listen120sMark => exact State.queued_of_link h (by simp [work])
  | resume | report | unknownKind | receiveError | holdBackRunOut | minRunElapsed | zeroDemand300s | startHistoryAgeOut
  | tripHistoryAgeOut => exact h

/-! ### The start queue copy (R91, R92) -/

/-- The start queue copy of the part is sound (R91). -/
def State.copied (s : State) : Prop := s.peers.copySound

theorem State.copied_of_peers {t : State} (h : s.copied) (hp : t.peers = s.peers) : t.copied := by
  unfold State.copied; rwa [hp]

theorem addToCopy_copied {n : Nat} (h : s.copied) (hn : n ∉ s.peers.startQueue) (hlen : s.peers.startQueue.length < 8) :
    (addToCopy n s).copied := by
  obtain ⟨-, hnodup, -⟩ := h
  refine ⟨by simp [addToCopy]; omega, ?_, by simp [addToCopy]⟩
  simp only [addToCopy, State.onPeers_peers]
  exact List.nodup_append.mpr ⟨hnodup, by simp, fun a ha x hx => by
    rw [List.mem_singleton] at hx
    exact fun heq => hn (hx ▸ heq ▸ ha)⟩

/-- The peer tables after a station has left the copy (R92). -/
theorem removeFromCopy_peers (n : Nat) : (removeFromCopy n s).peers = if s.peers.startQueue.contains n then
    { s.peers with startQueue := s.peers.startQueue.filter (· != n)
                   headAge := if s.peers.startQueue.head? == some n then 0 else s.peers.headAge }
    else s.peers := by
  unfold removeFromCopy
  dsimp only
  split
  · have hnext (u : State) (b : Bool) : (if b then ownHead u else u).peers = u.peers := by split <;> simp
    have hstop (u : State) (p : Prop) [Decidable p] : (if p then u.onComp (·.setUnit .stopped) else u).peers = u.peers := by
      split <;> rfl
    rw [hnext, hstop, State.onPeers_peers]
  · rfl

theorem removeFromCopy_copied (n : Nat) (h : s.copied) : (removeFromCopy n s).copied := by
  obtain ⟨hlen, hnodup, hempty⟩ := h
  unfold State.copied
  rw [removeFromCopy_peers]
  split
  · next hmem =>
    refine ⟨(List.length_filter_le _ _).trans hlen, hnodup.filter _, fun hnil => ?_⟩
    have hall : ∀ x ∈ s.peers.startQueue, x = n := by simpa using hnil
    have hhead : s.peers.startQueue.head? = some n := by
      cases hq : s.peers.startQueue with
      | nil => simp [hq] at hmem
      | cons x rest => simpa using hall x (by simp [hq])
    simp [hhead]
  · exact ⟨hlen, hnodup, hempty⟩

theorem freshPeers_copied (l : List Nat) : (freshPeers l).copySound := ⟨Nat.zero_le 8, List.nodup_nil, fun _ => rfl⟩

theorem lineReset_copied : (lineReset s).copied := by
  unfold State.copied lineReset
  simp only [handAll_frame, leaveConfig_frame, lineResetBlocks]
  exact freshPeers_copied _

theorem powerOn_copied (n : Nat) (u : Bool) (l : List Nat) : (powerOn n u l s).copied := by
  have hreset {t : State} (ht : t.peers = freshPeers []) : t.copied := State.copied_of_peers (s := { s with
    peers := freshPeers [] }) (freshPeers_copied []) ht
  unfold powerOn
  dsimp only
  split
  · exact hreset rfl
  · unfold State.copied restoreRing
    simp only [handAll_frame, leaveConfig_frame]
    split
    · exact freshPeers_copied _
    · exact freshPeers_copied _

theorem countAdvanced_copied (h : s.copied) : (countAdvanced s).copied := by
  obtain ⟨hlen, hnodup, hempty⟩ := h
  exact ⟨hlen, hnodup, fun hnil => by simp [countAdvanced, show s.peers.startQueue = [] from hnil]⟩

theorem keptByClock_copied : KeptByClock State.copied where
  meter _ h := State.copied_of_peers h (by simp)
  close _ _ h := State.copied_of_peers h (by simp)
  nominate _ h := h
  train _ _ h := State.copied_of_peers h (by simp)
  report _ h := State.copied_of_peers h (by simp)
  clock _ _ h := h
  tick _ h := h
  advance _ h := countAdvanced_copied h
  stepClock _ _ h := h
  adopted _ _ _ h := h
  listen _ h := State.copied_of_peers h (by simp)
  port _ _ h := h
  refuse _ _ _ h := State.copied_of_peers h (by simp)

theorem ownClaimEcho_copied (h : s.copied) : (ownClaimEcho s).copied := by
  unfold ownClaimEcho
  dsimp only
  split
  · exact h
  · next hmem =>
    split
    · exact State.copied_of_peers h (by simp)
    · next hlen =>
      have hadd := addToCopy_copied (s := s.onComp (fun c => { c with claimInFlight := false })) h
        (by simpa using hmem) (by simpa using hlen)
      split <;> split <;> exact State.copied_of_peers hadd (by simp)

theorem keptByEnds_copied : KeptByEnds State.copied where
  receiveError _ h := h
  discard _ h := h
  failed _ h := h
  duplicate _ _ h := State.copied_of_peers h (by simp)
  hand _ h := State.copied_of_peers h (by simp)
  settle _ h := State.copied_of_peers h (by simp)
  request _ h := State.copied_of_peers h (by simp)
  restart _ _ := lineReset_copied

theorem echoIntact_copied (h : s.copied) : (echoIntact s).copied := by
  unfold echoIntact
  split
  · exact State.copied_of_peers h (by simp)
  · split
    · exact h
    · next e _ =>
      have htold : (tellSent e (s.onLink (·.remove e))).copied := by
        unfold tellSent
        split
        · exact h
        · exact ownClaimEcho_copied h
        · exact removeFromCopy_copied _ h
        · exact h
      exact State.copied_of_peers htold (by simp)

theorem takeClaim_copied (n : Nat) (h : s.copied) : (takeClaim n s).copied := by
  unfold takeClaim
  split
  · exact h
  · next hmem =>
    split
    · exact h
    · next hlen => exact addToCopy_copied h (by simpa using hmem) (by simpa using hlen)

theorem expireHead_copied (h : s.copied) : (expireHead s).copied := by
  unfold expireHead
  split
  · exact h
  · split
    · exact removeFromCopy_copied _ h
    · exact h

theorem takeJoin_copied (src : Nat) (h : s.copied) : (takeJoin src s).copied := by
  have hleft : ((removeFromCopy src s).onPeers (·.setOffer src none)).copied := removeFromCopy_copied src h
  exact State.copied_of_peers hleft (by simp [takeJoin])

theorem takeRestart_copied (src k arg n : Nat) (h : s.copied) : (takeRestart src k arg n s).copied := by
  unfold takeRestart
  split
  · exact lineReset_copied
  · split <;> exact State.copied_of_peers h (by simp)

/-- Every command's block keeps the start queue copy sound. -/
theorem work_copied (c : Instr) (h : s.copied) : (work c s).copied := by
  have horder (src k arg n : Nat) (answer : State → State × Option OrderOutcome) (ha : (answer s).1.peers = s.peers) :
      (takeOrder src k arg n answer s).copied := by
    rcases takeOrder_cases s src k arg n answer with ho | ⟨o, ho⟩ <;> exact State.copied_of_peers h (by simp [ho, ha])
  cases c with
  | powerOnReset n u l => exact powerOn_copied n u l
  | powerLoss => exact freshPeers_copied []
  | lineReset n => exact lineReset_copied
  | clockSecond => exact keptByClock_copied.takeSecond h
  | time => exact keptByClock_copied.takeTime _ _ h
  | claim => exact takeClaim_copied _ h
  | cede src => exact State.copied_of_peers (removeFromCopy_copied src h) (by simp [work])
  | join src => exact takeJoin_copied src h
  | invt src dst half =>
    rw [work, State.copied, takeInvt_peers]
    exact h
  | offer => exact ⟨by simpa [work] using h.1, by simpa [work] using h.2.1, by simpa [work] using h.2.2⟩
  | echoIntact => exact echoIntact_copied h
  | headHoldExpiry => exact expireHead_copied h
  | orderRestart => exact takeRestart_copied _ _ _ _ h
  | orderShut | orderRelease | orderUnlock | orderBedOut | orderBedIn | orderAccept | orderCorrect | orderClear
  | orderUnknownCommand => exact horder _ _ _ _ _ (by simp)
  | _ => exact State.copied_of_peers h (by simp [work])

/-- Settles O57: every operation on the queue keeps its order and its length and lets the mark follow, and a station enters
the copy only where it is not and where there is room. -/
theorem queuesStaySound : Obligations.QueuesStaySound := fun s t hq hc h =>
  ⟨keptByEnds_queued.step (s := s) (t := t) (fun _ _ hp => hp) (fun c _ _ hp => work_queued c hp) hq h,
    keptByEnds_copied.step (s := s) (t := t) (fun _ _ hp => hp) (fun c _ _ hp => work_copied c hp) hc h⟩

end Sys2Proof.Machine
end

section
/-! PROOFS. The step and the whole command set, the state after reset, and who latches the pins and the image (R161, R163). -/

namespace Sys2Proof.Machine

open Sys2Proof (Instr)

variable {c : Instr} {s t : State}

/-! ### The step, and a part without supply -/

/-- Settles O1: the definition of the step. -/
theorem stepRunsFront : Obligations.StepRunsFront := by
  refine ⟨fun c rest s hp => ?_, fun s hp => ?_⟩
  · unfold step; rw [hp]
  · unfold step; rw [hp]

theorem whilePowered_on {f : State → State} (h : s.powered = true) : whilePowered f s = .next (f s) := by
  simp [whilePowered, h]

/-- Settles O2: every command's arm answers a next state, and all but POWER_ON_RESET and POWER_LOSS act only while the part
has its supply. -/
theorem takesEveryCommand : Obligations.TakesEveryCommand := by
  refine ⟨fun c s => ?_, fun c s hoff hc => ?_⟩
  · cases c <;> exact ⟨_, rfl⟩
  · obtain ⟨⟩ := s
    obtain rfl := hoff
    cases c with
    | powerOnReset n u l => exact absurd rfl (hc n u l)
    | _ => rfl

/-! ### The state after reset -/

/-- Settles O4: the defaults of the state's structures. -/
theorem resetValues : Obligations.ResetValues := by
  unfold Obligations.ResetValues
  dsimp only
  and_intros
  all_goals decide

/-- Settles O60: every invariant holds of the defaults. -/
theorem resetSound : Obligations.ResetSound := by
  unfold Obligations.ResetSound
  dsimp only
  and_intros
  all_goals decide

/-- Settles O43: the completion of a send is one case on the pending mark. -/
theorem setpointSent : Obligations.SetpointSent := by
  intro s hon
  refine ⟨setpointDone s, whilePowered_on hon, fun hn => ?_, fun hn => ?_⟩
  · simp [setpointDone, hn, State.onIntake]
  · obtain ⟨p, hp⟩ := Option.ne_none_iff_exists'.mp hn
    cases ha : s.intake.sendAgain <;> simp [setpointDone, hp, ha, State.onIntake]

/-! ### The image and the station number -/

/-- From `s` to `t` the image, the command queue and the pins stay, and the station number stays or is latched anew. -/
def latched (s t : State) : Prop :=
  t.port.image = s.port.image ∧ t.pending = s.pending ∧ t.straps = s.straps
    ∧ (t.station = s.station ∨ t.station = t.straps)

/-- From `s` to `t` nothing is latched either, and no restart has been ordered. -/
def seated (s t : State) : Prop := keepsSeat s t

theorem seated.latched (h : seated s t) : latched s t := by
  obtain ⟨-, hstraps, hstation, hpending, -, himage⟩ := h
  exact ⟨himage, hpending, hstraps, .inl hstation⟩

theorem latched.trans {u : State} (h : latched s t) (h' : latched t u) : latched s u := by
  obtain ⟨hi, hp, hs, hn⟩ := h
  obtain ⟨hi', hp', hs', hn'⟩ := h'
  refine ⟨hi'.trans hi, hp'.trans hp, hs'.trans hs, ?_⟩
  rcases hn' with hn' | hn'
  · rcases hn with hn | hn
    · exact .inl (hn'.trans hn)
    · exact .inr (hn'.trans (hn.trans hs'.symm))
  · exact .inr hn'

theorem seated.trans {u : State} (h : seated s t) (h' : seated t u) : seated s u := by
  simp_all [seated]

theorem lineReset_latched : latched s (lineReset s) := by simp [latched]

/-- The end of an event latches the pins only for a pending restart. -/
theorem endsIn_latched (h : EndsIn c s t) : latched s t ∧ (s.link.restartPending = false → t.station = s.station) := by
  have hsettle {u : State} (hu : seated s u) : latched s (settleRestart u)
      ∧ (s.link.restartPending = false → (settleRestart u).station = s.station) := by
    unfold settleRestart
    split
    · next hp =>
      refine ⟨hu.latched.trans lineReset_latched, fun hoff => ?_⟩
      rw [← hu.2.2.2.2.1, hp.1] at hoff
      cases hoff
    · exact ⟨hu.latched, fun _ => hu.2.2.1⟩
  cases h with
  | plain _ => exact ⟨⟨rfl, rfl, rfl, .inl rfl⟩, fun _ => rfl⟩
  | finished => exact hsettle (by simp [seated])
  | settled => exact hsettle (by simp [seated])
  | sampled => exact hsettle (by simp [seated])

theorem takeOrder_seated {src k arg n : Nat} {answer : State → State × Option OrderOutcome}
    (h : seated s (answer s).1) : seated s (takeOrder src k arg n answer s) := by
  rcases takeOrder_cases s src k arg n answer with ho | ⟨o, ho⟩
  · rwa [ho]
  · rw [ho]; exact h.trans (by simp [seated])

/-- What every block but the resets and ORDER RESTART leaves. -/
theorem work_seated (hon : ∀ n u l, c ≠ .powerOnReset n u l) (hoff : c ≠ .powerLoss) (hline : ∀ n, c ≠ .lineReset n)
    (hres : ∀ src dst arg litres, c ≠ .orderRestart src dst arg litres) : seated s (work c s) := by
  cases c with
  | powerOnReset n u l => exact absurd rfl (hon n u l)
  | powerLoss => exact absurd rfl hoff
  | lineReset n => exact absurd rfl (hline n)
  | orderRestart src dst arg litres => exact absurd rfl (hres src dst arg litres)
  | orderShut | orderRelease | orderUnlock | orderBedOut | orderBedIn | orderAccept | orderCorrect | orderClear
  | orderUnknownCommand => exact takeOrder_seated (by simp [seated])
  | sendStart => simp [seated, work, Link.start]; split <;> (try split) <;> (try split) <;> simp
  | arbitrationLost => simp [seated, work, Link.lose]
  | faultIdleWait => simp [seated, work, Link.recover]; split <;> simp
  | _ => simp [seated, work]

theorem takeRestart_latched {src k arg n : Nat} : latched s (takeRestart src k arg n s) := by
  unfold takeRestart
  split
  · exact lineReset_latched
  · split <;> simp [latched]

theorem outcomes_latched (hon : ∀ n u l, c ≠ .powerOnReset n u l) (hoff : c ≠ .powerLoss) (hline : ∀ n, c ≠ .lineReset n)
    (h : Outcomes c s t) : latched s t ∧ ((∀ src dst arg litres, c ≠ .orderRestart src dst arg litres) →
      s.link.restartPending = false → t.station = s.station) := by
  have hends {u : State} (hu : seated s u) (he : EndsIn c u t) : latched s t
      ∧ ((∀ src dst arg litres, c ≠ .orderRestart src dst arg litres) → s.link.restartPending = false →
        t.station = s.station) := by
    obtain ⟨hl, hst⟩ := endsIn_latched he
    exact ⟨hu.latched.trans hl, fun _ hp => (hst (hu.2.2.2.2.1.trans hp)).trans hu.2.2.1⟩
  have hplain (hu : seated s t) : latched s t
      ∧ ((∀ src dst arg litres, c ≠ .orderRestart src dst arg litres) → s.link.restartPending = false →
        t.station = s.station) := ⟨hu.latched, fun _ _ => hu.2.2.1⟩
  cases h with
  | ignored => exact hplain (by simp [seated])
  | received => exact hplain (by simp [seated])
  | discarded => exact hplain (by simp [seated])
  | failed => exact hplain (by simp [seated])
  | duplicate kind => exact hends (u := takeDuplicate kind s) (by simp [seated]) .finished
  | worked h =>
    by_cases hres : ∀ src dst arg litres, c ≠ .orderRestart src dst arg litres
    · exact hends (work_seated hon hoff hline hres) h
    · push Not at hres
      obtain ⟨src, dst, arg, litres, rfl⟩ := hres
      have hwork : latched s (work (.orderRestart src dst arg litres) s) := takeRestart_latched
      exact ⟨hwork.trans (endsIn_latched h).1, fun hno => absurd rfl (hno src dst arg litres)⟩

/-- Settles O3: no block reads the image or latches the pins but the resets. -/
theorem onlyResetsReconfigure : Obligations.OnlyResetsReconfigure := by
  intro c s t h hon hoff
  by_cases hline : ∀ n, c ≠ .lineReset n
  · obtain ⟨⟨himage, hpending, hstraps, hstation⟩, hkeep⟩ := outcomes_latched hon hoff hline (exec_cases h)
    exact ⟨himage, hpending, hstation, fun _ => ⟨hstraps, hkeep⟩⟩
  · push Not at hline
    obtain ⟨n, rfl⟩ := hline
    rcases whilePowered_next (f := fun s => lineReset { s with straps := n }) h with rfl | ⟨-, rfl⟩
    · exact ⟨rfl, rfl, .inl rfl, fun hno => absurd rfl (hno n)⟩
    · exact ⟨by simp, by simp, .inr (by simp), fun hno => absurd rfl (hno n)⟩

end Sys2Proof.Machine
end

section
/-! PROOFS. The lineup command as the mode asks, the compressor command as the unit state asks, and the SETPOINT fields as
their owners' states stand (R68, R71, R88, R106, R132). -/

namespace Sys2Proof.Machine

open Sys2Proof (Instr Mode Flow Feedback Sample)

/-! ### What a mode asks of the lineup (R68) -/

/-- A train that does not flow: lineup CLOSED, demand 0, no phase. -/
def Train.calm (t : Train) : Prop := t.lineup = .closed ∧ t.demand = 0 ∧ t.phase = none

/-- A train in phase RAMP of REVERSING. -/
def Train.ramping (t : Train) : Prop := t.mode = .reversing ∧ t.phase = some .ramp

variable {x : Train} {f : Flow} {d : Int}

@[simp] theorem modeFlow_flowMode (f : Flow) : modeFlow (flowMode f) = some f := by cases f <;> rfl

theorem modeFlow_eq_some {m : Mode} : modeFlow m = some f ↔ m = flowMode f := by
  cases m <;> cases f <;> simp [modeFlow, flowMode]

theorem flowMode_ne (f : Flow) : flowMode f ≠ .reversing ∧ flowMode f ≠ .idle ∧ flowMode f ≠ .config
    ∧ flowMode f ≠ .listen ∧ flowMode f ≠ .hold ∧ flowMode f ≠ .shutIn := by
  cases f <;> simp [flowMode]

theorem Train.lineupSound_calm (hm : modeFlow x.mode = none) (hr : x.mode ≠ .reversing) : x.lineupSound ↔ x.calm := by
  unfold lineupSound calm
  cases hmode : x.mode <;> simp_all [modeFlow]

theorem Train.lineupSound_flow (hm : x.mode = flowMode f) :
    x.lineupSound ↔ x.lineup = flowLineup f ∧ x.phase = none ∧ x.lastFlow = some f := by
  unfold lineupSound
  rw [hm]
  cases f <;> rfl

theorem Train.lineupSound_reversing (hm : x.mode = .reversing) : x.lineupSound ↔ ∃ f, x.lastFlow = some f
    ∧ (x.phase = some .ramp ∧ x.lineup = flowLineup f ∨ x.phase = some .dwell ∧ x.lineup = .closed ∧ x.demand = 0) := by
  unfold lineupSound
  rw [hm]
  dsimp only
  cases hp : x.phase with
  | none => simp
  | some p => cases p <;> cases hl : x.lastFlow <;> simp

/-- A demand set: any where the train flows or ramps down, 0 everywhere. -/
theorem Train.lineupSound_demand (h : x.lineupSound) (hd : modeFlow x.mode = none → ¬ x.ramping → d = 0) :
    ({ x with demand := d } : Train).lineupSound := by
  by_cases hr : x.mode = .reversing
  · obtain ⟨f, hf, hphase⟩ := (lineupSound_reversing hr).mp h
    refine (lineupSound_reversing (x := { x with demand := d }) hr).mpr ⟨f, hf, ?_⟩
    rcases hphase with hramp | ⟨hdwell, hclosed, -⟩
    · exact .inl hramp
    · exact .inr ⟨hdwell, hclosed, hd (by simp [hr, modeFlow]) (by simp [ramping, hdwell])⟩
  · cases hm : modeFlow x.mode with
    | none =>
      obtain ⟨hclosed, -, hphase⟩ := (lineupSound_calm hm hr).mp h
      exact (lineupSound_calm (x := { x with demand := d }) hm hr).mpr
        ⟨hclosed, hd hm (fun hx => hr hx.1), hphase⟩
    | some f =>
      have hmode := modeFlow_eq_some.mp hm
      exact (lineupSound_flow (x := { x with demand := d }) hmode).mpr ((lineupSound_flow hmode).mp h)

/-! ### The lineup in the mode controller's work -/

/-- The train's lineup command is as its mode asks (R68). -/
def State.lined (s : State) : Prop := s.train.lineupSound

variable {s : State}

theorem State.lined_of_train {t : State} (h : s.lined) (ht : t.train = s.train) : t.lined := by
  unfold State.lined; rwa [ht]

theorem setDemand_train (d : Int) : (setDemand d s).train = { s.train with demand := d } := rfl

theorem setDemand_lined (h : s.lined) (hd : modeFlow s.train.mode = none → ¬ s.train.ramping → d = 0) :
    (setDemand d s).lined := Train.lineupSound_demand h hd

@[simp] theorem clampDemand_zero (o : Nat) (dir : Sys2Proof.Dir) : clampDemand o dir 0 = 0 := by
  have hz : ¬ ((0 : Int) > o) := by omega
  unfold clampDemand
  cases dir with
  | none => simp
  | some f => cases f <;> simp

theorem Train.lineupSound.demand_zero (h : x.lineupSound) (hm : modeFlow x.mode = none) (hr : ¬ x.ramping) :
    x.demand = 0 := by
  by_cases hrev : x.mode = .reversing
  · obtain ⟨f, -, ⟨hramp, -⟩ | ⟨-, -, hzero⟩⟩ := (lineupSound_reversing hrev).mp h
    · exact absurd ⟨hrev, hramp⟩ hr
    · exact hzero
  · exact ((lineupSound_calm hm hrev).mp h).2.1

theorem applyHold_lined (h : s.lined) : (applyHold s).lined := by
  unfold applyHold
  split
  · exact setDemand_lined h fun _ _ => rfl
  · exact h

theorem lowerOffer_lined (h : s.lined) : (lowerOffer s).lined := by
  refine setDemand_lined (s := s.onTrain (fun t => { t with offer := 0, share := 0 })) h fun hm hr => ?_
  rw [h.demand_zero hm hr, clampDemand_zero]

theorem stopTrain_lined {m : Mode} (hm : m = .hold ∨ m = .shutIn) : (stopTrain m s).lined := by
  unfold State.lined
  rw [stopTrain_train]
  rcases hm with rfl | rfl <;> exact ⟨rfl, rfl, rfl⟩

theorem enterHold_lined : (enterHold s).lined := 
  State.lined_of_train (stopTrain_lined (s := s) (.inl rfl)) (by simp [enterHold])

theorem enterShutIn_lined : (enterShutIn s).lined :=
  State.lined_of_train (stopTrain_lined (s := s) (.inr rfl)) (by simp [enterShutIn])

/-- A train that does not flow takes a mode that does not flow. -/
theorem onTrain_mode_lined (h : s.train.calm) {m : Mode} (hm : modeFlow m = none) (hr : m ≠ .reversing) :
    (s.onTrain (fun c => { c with mode := m })).lined :=
  (Train.lineupSound_calm (x := { s.train with mode := m }) hm hr).mpr h

theorem listenTest_lined (h : s.lined) : (listenTest s).lined := by
  unfold listenTest
  split
  · exact h
  · split
    · next hl =>
      have hcalm := (Train.lineupSound_calm (by simp [hl.1, modeFlow]) (by simp [hl.1])).mp h
      exact (Train.lineupSound_calm (x := { s.train with mode := .idle, listenDone := true }) rfl (by simp)).mpr hcalm
    · exact h

theorem enterListen_lined (h : s.train.calm) : (enterListen s).lined := by
  unfold enterListen
  dsimp only
  split
  · exact enterShutIn_lined
  · split
    · exact enterHold_lined
    · exact listenTest_lined (onTrain_mode_lined h rfl (by simp))

theorem release_lined (h : s.lined) (hm : s.train.mode = .shutIn) : (release s).lined := by
  have hcalm := (Train.lineupSound_calm (by simp [hm, modeFlow]) (by simp [hm])).mp h
  unfold release
  split
  · exact enterHold_lined
  · split
    · exact onTrain_mode_lined hcalm rfl (by simp)
    · exact enterListen_lined hcalm

theorem endHold_lined (h : s.lined) : (endHold s).lined := by
  unfold endHold
  split
  · next hm =>
    have hcalm := (Train.lineupSound_calm (by simp [hm, modeFlow]) (by simp [hm])).mp h
    split
    · exact onTrain_mode_lined hcalm rfl (by simp)
    · exact enterListen_lined hcalm
  · exact h

theorem fieldLostMode_lined (h : s.lined) : (fieldLostMode s).lined := by
  unfold fieldLostMode
  split
  case h_6 | h_7 | h_8 => exact h
  all_goals exact enterHold_lined

theorem takeBedIn_lined (h : s.lined) : (takeBedIn s).lined := State.lined_of_train h (by simp)

theorem reversalMoves_lined (h : s.lined) : (reversalMoves s).1.lined := by
  unfold reversalMoves
  split
  · next f hm =>
    obtain ⟨hlineup, -, hlast⟩ := (Train.lineupSound_flow (modeFlow_eq_some.mp hm)).mp h
    split
    · exact (Train.lineupSound_reversing (x := { s.train with mode := .reversing, phase := some .ramp }) rfl).mpr
        ⟨f, hlast, .inl ⟨rfl, hlineup⟩⟩
    · exact h
  · next f _ hphase hlast =>
    split
    · next hm =>
      obtain ⟨g, hg, ⟨-, hlineup⟩ | ⟨hdwell, -⟩⟩ := (Train.lineupSound_reversing hm.1).mp h
      · obtain rfl : g = f := by simpa [hg] using hlast
        exact takeBedIn_lined ((Train.lineupSound_flow (x := { s.train with mode := flowMode g, phase := none })
          rfl).mpr ⟨hlineup, rfl, hlast⟩)
      · simp [hphase] at hdwell
    · exact h
  · next f _ hphase hlast =>
    split
    · refine takeBedIn_lined (setDemand_lined ?_ fun _ _ => rfl)
      exact (Train.lineupSound_flow (x := { s.train with
        mode := flowMode f, phase := none, dwell := none, lineup := flowLineup f }) rfl).mpr ⟨rfl, rfl, hlast⟩
    · exact h
  · exact h

theorem endDwell_lined (h : s.lined) : (endDwell s).lined := by
  unfold endDwell
  split
  · exact h
  · split
    · unfold State.lined
      rw [State.onTrain_train]
      split
      · next hm =>
        obtain ⟨g, -, ⟨hramp, -⟩ | ⟨-, -, hzero⟩⟩ := (Train.lineupSound_reversing hm.1).mp h
        · simp [hm.2] at hramp
        · exact ⟨rfl, hzero, rfl⟩
      · exact h
    · exact h

theorem offerStep_lined (r : Interval) (h : s.lined) : (offerStep r s).lined := h

theorem entryStep_lined (h : s.lined) : (entryStep s).1.lined := by
  unfold entryStep
  split
  · exact h
  · next f _ =>
    split
    · next hmay =>
      have hidle : s.train.mode = .idle := by
        simp only [State.mayEnter, Bool.and_eq_true, decide_eq_true_eq] at hmay
        exact hmay.1.1.1.1.1
      obtain ⟨-, -, hphase⟩ := (Train.lineupSound_calm (by simp [hidle, modeFlow]) (by simp [hidle])).mp h
      refine takeBedIn_lined (setDemand_lined ?_ fun _ _ => rfl)
      exact (Train.lineupSound_flow (x := { s.train with
        mode := flowMode f, lineup := flowLineup f, lastFlow := some f, dwell := none }) rfl).mpr ⟨rfl, hphase, rfl⟩
    · exact h

theorem rampStep_calm (ramp : Nat) (hm : modeFlow x.mode = none) (hr : ¬ x.ramping) : rampStep ramp x = 0 := by
  unfold rampStep
  rw [hm]
  exact if_neg hr

theorem demandStep_lined (stays : Bool) (h : s.lined) : (demandStep stays s).lined := by
  refine setDemand_lined h fun hm hr => ?_
  rw [rampStep_calm _ hm hr, clampDemand_zero]
  exact ite_self 0

theorem zeroStep_lined (h : s.lined) : (zeroStep s).lined := by
  unfold State.lined zeroStep
  rw [State.onTrain_train]
  split
  · exact h
  · next hzero =>
    have hzero : s.train.demand = 0 := by simpa using hzero
    split
    · next hm =>
      obtain ⟨g, hg, -⟩ := (Train.lineupSound_reversing hm.1).mp h
      exact (Train.lineupSound_reversing (x := { s.train with
        phase := some .dwell, lineup := .closed, dwell := some s.clock.index }) hm.1).mpr
        ⟨g, hg, .inr ⟨rfl, rfl, hzero⟩⟩
    · split
      · next hm =>
        obtain ⟨f, hf⟩ := Option.isSome_iff_exists.mp hm.1
        obtain ⟨-, hphase, -⟩ := (Train.lineupSound_flow (modeFlow_eq_some.mp hf)).mp h
        exact ⟨rfl, hzero, hphase⟩
      · exact h

theorem modeMinute_lined (r : Interval) (h : s.lined) : (modeMinute r s).lined := by
  have hfour (b : Bool) := demandStep_lined b (entryStep_lined (offerStep_lined r (endDwell_lined (reversalMoves_lined h))))
  have hzero := zeroStep_lined (hfour ((reversalMoves s).2 || (entryStep (offerStep r (endDwell (reversalMoves s).1))).2))
  exact State.lined_of_train hzero (by simp [modeMinute, directionStep])

theorem trainMinute_lined (r : Interval) (h : s.lined) : (trainMinute r s).lined := by
  have hmode : (modeMinute r (sequencerReact (sequencerMinute r s))).lined :=
    modeMinute_lined r (State.lined_of_train h (by simp))
  exact State.lined_of_train hmode (by simp [trainMinute])

theorem keptByClock_lined : KeptByClock State.lined where
  meter _ h := State.lined_of_train h (by simp)
  close _ _ h := State.lined_of_train h (by simp)
  nominate _ h := h
  train r _ h := trainMinute_lined r h
  report _ h := State.lined_of_train h (by simp)
  clock _ _ h := h
  tick _ h := h
  advance _ h := h
  stepClock _ _ h := h
  adopted _ _ _ h := h
  listen _ h := State.lined_of_train (listenTest_lined h) (by simp)
  port _ _ h := h
  refuse _ _ _ h := State.lined_of_train h (by simp)

/-! ### The lineup in every other work -/

theorem leaveConfig_lined (b : Bool) (h : s.train.calm) (hm : s.train.mode = .config) : (leaveConfig b s).lined := by
  unfold leaveConfig
  split
  · cases b with
    | true => exact State.lined_of_train (onTrain_mode_lined h (m := .shutIn) rfl (by simp)) (by simp)
    | false => exact enterListen_lined (by simpa [Train.calm] using h)
  · exact (Train.lineupSound_calm (by simp [hm, modeFlow]) (by simp [hm])).mpr h

theorem lineReset_lined : (lineReset s).lined := by
  have hleave := leaveConfig_lined (s := lineResetBlocks s) (decide (s.train.mode = .shutIn)) ⟨rfl, rfl, rfl⟩ rfl
  exact State.lined_of_train hleave (by simp [lineReset])

theorem restoreRing_train (m : Image) (l : List Nat) :
    ∃ d, (restoreRing m l s).train = { s.train with lastFlow := d } := by
  unfold restoreRing
  split
  · exact ⟨_, rfl⟩
  · exact ⟨s.train.lastFlow, rfl⟩

theorem powerOn_lined (n : Nat) (u : Bool) (l : List Nat) : (powerOn n u l s).lined := by
  unfold powerOn
  dsimp only
  split
  · exact ⟨rfl, rfl, rfl⟩
  · next m _ =>
    refine State.lined_of_train (leaveConfig_lined (s := restoreRing m l _) false ?_ ?_) (handAll_frame _).2.2.2.2.2.2.2.1
    · obtain ⟨d, hd⟩ := restoreRing_train (s := (((blank s true n).onPort (fun p => { p with image := some m })).onPeers
        (fun _ => freshPeers _))) m l
      unfold Train.calm
      rw [hd]
      exact ⟨rfl, rfl, rfl⟩
    · obtain ⟨d, hd⟩ := restoreRing_train (s := (((blank s true n).onPort (fun p => { p with image := some m })).onPeers
        (fun _ => freshPeers _))) m l
      rw [hd]
      rfl

theorem shutIn_lined (h : s.lined) : (shutIn s).lined := by
  unfold shutIn
  split
  · exact h
  · exact State.lined_of_train (enterShutIn_lined (s := s)) (by simp)

theorem takeHalt_lined (n : Nat) (h : s.lined) : (takeHalt n s).lined := by
  unfold takeHalt
  dsimp only
  split
  · exact h
  · split
    · exact shutIn_lined h
    · exact h

theorem enterFault_lined (v : Int) (h : s.lined) : (enterFault v s).lined :=
  State.lined_of_train (lowerOffer_lined (s := s.onLink (·.quit .fault)) h) (by simp [enterFault])

theorem takeDuplicate_lined (k : Nat) (h : s.lined) : (takeDuplicate k s).lined := by
  unfold takeDuplicate
  split
  · exact h
  · exact State.lined_of_train (lowerOffer_lined (s := s.onLink (·.quit .silent)) h) (by simp)

theorem echoIntact_lined (h : s.lined) : (echoIntact s).lined := by
  unfold echoIntact
  split
  · have hjoin : (joinDone s).lined := listenTest_lined (s := (s.onLink (fun l =>
      { l with state := .active, join := .absent, joinFailures := 0 })).onTrain
      (fun t => { t with joinTime := some s.clock.index })) h
    exact State.lined_of_train hjoin (by simp)
  · split
    · exact h
    · exact State.lined_of_train h (by simp)

theorem echoMismatch_lined (h : s.lined) : (echoMismatch s).lined := by
  have hb : (countBrokenEcho s).lined := State.lined_of_train h (by simp)
  unfold echoMismatch
  split
  · unfold joinMismatch
    split
    · dsimp only
      split
      · exact enterFault_lined _ hb
      · exact hb
    all_goals exact hb
  · split
    · exact h
    · dsimp only
      split
      · exact State.lined_of_train hb (by simp)
      · exact hb

theorem lineHeld_lined (h : s.lined) : (lineHeld s).lined := by
  unfold lineHeld
  split
  · exact h
  · split
    case h_1 | h_2 => exact enterFault_lined _ h
    all_goals exact h

theorem takeInvt_lined (src half : Nat) (inv : List Int) (h : s.lined) : (takeInvt src half inv s).lined := by
  unfold takeInvt
  split
  · have hl : (listenTest (s.onPeers (fun p =>
        { p with view := p.view.map (fun v => if v.station = src then v.hear half inv else v) }))).lined :=
      listenTest_lined h
    exact State.lined_of_train hl (by simp)
  · exact h

theorem takeSample_lined (r : Option Sample) (h : s.lined) : (takeSample r s).1.lined := by
  unfold takeSample
  split
  · exact h
  · next p =>
    split
    · exact h
    · have hend : (endHold (s.onIntake (·.accept p))).lined := endHold_lined h
      refine State.lined_of_train hend ?_
      unfold acceptSample
      dsimp only
      split <;> simp

theorem fieldLostTest_lined (h : s.lined) : (fieldLostTest s).lined := by
  unfold fieldLostTest
  split
  · exact fieldLostMode_lined (State.lined_of_train h (by simp))
  · exact h

theorem takeOrder_train (src k arg n : Nat) (answer : State → State × Option OrderOutcome) :
    (takeOrder src k arg n answer s).train = (answer s).1.train := by
  rcases takeOrder_cases s src k arg n answer with ho | ⟨o, ho⟩ <;> simp [ho]

theorem takeOrder_lined {src k arg n : Nat} {answer : State → State × Option OrderOutcome} (h : (answer s).1.lined) :
    (takeOrder src k arg n answer s).lined := State.lined_of_train h (takeOrder_train _ _ _ _ _)

theorem answerRelease_lined (h : s.lined) : (answerRelease s).1.lined := by
  unfold answerRelease
  split
  · exact h
  · next hm =>
    split
    · exact h
    · exact State.lined_of_train (release_lined h (by simpa using hm)) (by simp)

theorem answerBedOut_lined (arg : Nat) (h : s.lined) : (answerBedOut arg s).1.lined := by
  unfold answerBedOut
  split
  · exact h
  · dsimp only
    split
    · exact h
    · exact applyHold_lined (State.lined_of_train h (by simp))

theorem takeRestart_lined (src k arg n : Nat) (h : s.lined) : (takeRestart src k arg n s).lined := by
  unfold takeRestart
  split
  · exact lineReset_lined
  · split <;> exact State.lined_of_train h (by simp)

/-- Every command's block keeps the lineup command as the mode asks. -/
theorem work_lined (c : Instr) (h : s.lined) : (work c s).lined := by
  cases c with
  | powerOnReset n u l => exact powerOn_lined n u l
  | powerLoss => exact ⟨rfl, rfl, rfl⟩
  | lineReset n => exact lineReset_lined
  | clockSecond => exact keptByClock_lined.takeSecond h
  | time => exact keptByClock_lined.takeTime _ _ h
  | invt => exact takeInvt_lined _ _ _ h
  | halt => exact takeHalt_lined _ h
  | orderShut => exact takeOrder_lined (shutIn_lined h)
  | orderRelease => exact takeOrder_lined (answerRelease_lined h)
  | orderBedOut => exact takeOrder_lined (answerBedOut_lined _ h)
  | orderUnlock | orderBedIn | orderAccept | orderCorrect | orderClear | orderUnknownCommand =>
    exact takeOrder_lined (State.lined_of_train h (by simp))
  | orderRestart => exact takeRestart_lined _ _ _ _ h
  | dupStation => exact takeDuplicate_lined _ h
  | echoIntact => exact echoIntact_lined h
  | echoMismatch => exact echoMismatch_lined h
  | lineHeld => exact lineHeld_lined h
  | sample => exact takeSample_lined _ h
  | fieldLost => exact fieldLostTest_lined h
  | listen30sMark | listen120sMark => exact listenTest_lined h
  | _ => exact State.lined_of_train h (by simp [work])

theorem keptByEnds_lined : KeptByEnds State.lined where
  receiveError _ h := h
  discard _ h := h
  failed _ h := h
  duplicate k _ h := takeDuplicate_lined k h
  hand _ h := State.lined_of_train h (by simp)
  settle s h := by
    have hreact : (sequencerReact s).lined := State.lined_of_train h (by simp)
    exact State.lined_of_train (applyHold_lined hreact) (by simp [settle])
  request _ h := State.lined_of_train h (by simp)
  restart _ _ := lineReset_lined

/-! ### The compressor command (R88) -/

/-- The compressor command is as the unit state asks (R88). -/
def State.commanded (s : State) : Prop := s.comp.commandSound

theorem commanded_of_unit {t : State} (h : s.commanded) (hu : t.comp.unit = s.comp.unit)
    (hc : t.comp.command = s.comp.command) : t.commanded := by
  unfold State.commanded Compressor.commandSound
  rw [hu, hc]
  exact h

theorem commanded_of_comp {t : State} (h : s.commanded) (hc : t.comp = s.comp) : t.commanded :=
  commanded_of_unit h (by rw [hc]) (by rw [hc])

@[simp] theorem Compressor.toStopping_unit (c : Compressor) : c.toStopping.unit = .stopping ∧ c.toStopping.command = .stop
    ∧ c.toStopping.stopTimer = 0 ∧ c.toStopping.startTimer = none := ⟨rfl, rfl, rfl, rfl⟩

theorem queueCede_commanded (h : s.commanded) : (queueCede s).commanded :=
  commanded_of_unit h (by rw [queueCede_comp]) (by rw [queueCede_comp])

theorem withdrawClaim_commanded (h : s.commanded) : (withdrawClaim s).commanded :=
  commanded_of_unit h (by rw [withdrawClaim_comp]) (by rw [withdrawClaim_comp])

theorem sequencerReact_commanded (h : s.commanded) : (sequencerReact s).commanded := by
  have hcancel : (cancelTests s).commanded := by
    unfold cancelTests
    split
    · exact h
    · split
      · exact queueCede_commanded rfl
      · exact withdrawClaim_commanded h
  have hstop : (stopTests (cancelTests s)).commanded := by
    unfold stopTests
    split
    · split
      · exact queueCede_commanded rfl
      · exact hcancel
    · split
      · exact rfl
      · exact hcancel
    all_goals exact hcancel
  unfold sequencerReact claimTest
  split
  · exact commanded_of_unit hstop (by rw [queueClaim_comp]) (by rw [queueClaim_comp])
  · exact hstop

theorem ownHead_commanded (h : s.commanded) : (ownHead s).commanded := by
  unfold ownHead
  split
  · exact commanded_of_comp (s := s.onComp (fun c => { c.setUnit .starting with
      startTimer := some 0
      starts := (if c.starts.length ≥ 3 then c.starts.drop 1 else c.starts) ++ [0] })) rfl (by simp)
  · exact h

theorem removeFromCopy_commanded (n : Nat) (h : s.commanded) : (removeFromCopy n s).commanded := by
  unfold removeFromCopy
  dsimp only
  split
  · have hstopped (u : State) (hu : u.commanded) : (if n = s.station ∧ u.comp.unit = .queued then
        u.onComp (·.setUnit .stopped) else u).commanded := by
      split
      · exact rfl
      · exact hu
    split
    · exact ownHead_commanded (hstopped _ h)
    · exact hstopped _ h
  · exact h

theorem ownClaimEcho_commanded (h : s.commanded) : (ownClaimEcho s).commanded := by
  have hclaim (u : State) (hu : u.commanded) : (if u.comp.unit = .stopped ∧ u.wantConditions then
      u.onComp (·.setUnit .queued) else queueCede u).commanded := by
    split
    · exact rfl
    · exact queueCede_commanded hu
  unfold ownClaimEcho
  dsimp only
  split
  · exact h
  · split
    · exact queueCede_commanded h
    · split
      · exact ownHead_commanded (hclaim _ h)
      · exact hclaim _ h

theorem takeTrip_commanded : (takeTrip s).commanded := by
  have hraised (n : Nat) (u : State) (hu : u.commanded) :
      (if n ≥ 3 then raise .compLockout 0 3 u else u).commanded := by
    split
    · exact commanded_of_comp hu (by simp)
    · exact hu
  have htrip (n : Nat) (l : List Nat) : (raise .compTrip 0 n (s.onComp (fun c =>
      { c.setUnit (if l.length ≥ 3 then .lockout else .tripped) with
        trips := l, stopTimer := 0, startTimer := none }))).commanded :=
    commanded_of_comp (s := s.onComp (fun c => { c.setUnit (if l.length ≥ 3 then .lockout else .tripped) with
        trips := l, stopTimer := 0, startTimer := none })) rfl (by simp)
  unfold takeTrip
  dsimp only
  split
  · exact queueCede_commanded (hraised _ _ (htrip _ _))
  · exact queueCede_commanded (hraised _ _ (htrip _ _))
  · exact withdrawClaim_commanded (hraised _ _ (htrip _ _))
  all_goals exact hraised _ _ (htrip _ _)

theorem autoRestart_commanded (h : s.commanded) : (autoRestart s).commanded := by
  unfold autoRestart
  split
  · exact rfl
  · exact h

theorem takeFeedback_commanded (fb : Option Feedback) (h : s.commanded) : (takeFeedback fb s).commanded := by
  have hsettle (f : Feedback) {u : State} (hu : u.commanded) : (settleAfterReset f u).commanded := by
    unfold settleAfterReset
    split
    case h_1 | h_2 => exact rfl
    all_goals exact hu
  have htable (before : Option Feedback) (f : Feedback) {u : State} (hu : u.commanded) :
      (feedbackTable before f u).commanded := by
    unfold feedbackTable
    split
    · exact hu
    · split
      · exact hu
      · exact takeTrip_commanded
    · exact takeTrip_commanded
    · refine queueCede_commanded ?_
      exact commanded_of_comp (s := u.onComp (fun c => { c.setUnit .running with runTimer := 0, startTimer := none }))
        rfl (by simp)
    · exact rfl
    · exact autoRestart_commanded hu
    · exact hu
  unfold takeFeedback
  split
  · exact h
  · dsimp only
    split
    · exact hsettle _ h
    · exact htable _ _ h

theorem trainMinute_commanded (r : Interval) (h : s.commanded) : (trainMinute r s).commanded := by
  have hseq : (sequencerMinute r s).commanded := by
    unfold sequencerMinute startLimitTest
    split
    · split
      · exact h
      · exact commanded_of_unit h (by simp) (by simp)
    · exact h
  have hmode : (modeMinute r (sequencerReact (sequencerMinute r s))).commanded :=
    commanded_of_unit (sequencerReact_commanded hseq) (by simp) (by simp)
  exact sequencerReact_commanded hmode

theorem keptByClock_commanded : KeptByClock State.commanded where
  meter _ h := commanded_of_unit h (by simp) (by simp)
  close _ _ h := commanded_of_comp h (by simp)
  nominate _ h := h
  train r _ h := trainMinute_commanded r h
  report _ h := commanded_of_comp h (by simp)
  clock _ _ h := h
  tick _ h := h
  advance _ h := h
  stepClock _ _ h := h
  adopted _ _ _ h := h
  listen _ h := commanded_of_comp h (by simp)
  port _ _ h := h
  refuse _ _ _ h := commanded_of_comp h (by simp)

theorem unitAfterReset_commanded (u : Sys2Proof.UnitState) : CompCommand.stop = commandOf (unitAfterReset u) := by
  cases u <;> rfl

theorem lineReset_commanded : (lineReset s).commanded := by
  have hblocks : (lineResetBlocks s).commanded := unitAfterReset_commanded _
  exact commanded_of_unit hblocks (by simp [lineReset]) (by simp [lineReset])

theorem powerOn_commanded (n : Nat) (u : Bool) (l : List Nat) : (powerOn n u l s).commanded := by
  have hring (m : Image) {x : State} (hx : x.commanded) : (restoreRing m l x).commanded := by
    unfold restoreRing
    split
    · exact unitAfterReset_commanded _
    · exact hx
  unfold powerOn
  dsimp only
  split
  · exact rfl
  · next m _ =>
    have hrestored := hring m (x := ((blank s true n).onPort (fun p => { p with image := some m })).onPeers
      (fun _ => freshPeers ((blank s true n).onPort (fun p => { p with image := some m })).peerStations)) rfl
    exact commanded_of_unit hrestored (by simp) (by simp)

theorem enterFault_commanded (v : Int) (h : s.commanded) : (enterFault v s).commanded :=
  sequencerReact_commanded (commanded_of_unit h (by simp) (by simp))

theorem takeDuplicate_commanded (k : Nat) (h : s.commanded) : (takeDuplicate k s).commanded := by
  unfold takeDuplicate
  split
  · exact h
  · exact sequencerReact_commanded (commanded_of_unit h (by simp) (by simp))

theorem tellUnsent_commanded (o : Owner) (t : Telegram) (h : s.commanded) : (tellUnsent o t s).commanded := by
  unfold tellUnsent
  split <;> exact h

theorem echoIntact_commanded (h : s.commanded) : (echoIntact s).commanded := by
  unfold echoIntact
  split
  · exact sequencerReact_commanded (commanded_of_comp h (by simp))
  · split
    · exact h
    · refine sequencerReact_commanded ?_
      unfold tellSent
      split
      · exact h
      · exact ownClaimEcho_commanded h
      · exact removeFromCopy_commanded _ h
      · exact h

theorem echoMismatch_commanded (h : s.commanded) : (echoMismatch s).commanded := by
  have hb : (countBrokenEcho s).commanded := commanded_of_comp h (by simp)
  unfold echoMismatch
  split
  · unfold joinMismatch
    split
    · dsimp only
      split
      · exact enterFault_commanded _ hb
      · exact hb
    all_goals exact hb
  · split
    · exact h
    · dsimp only
      split
      · refine sequencerReact_commanded ?_
        have htold (e : Entry) : (raise .txFail 0 (telegramKind e.telegram) (tellUnsent e.owner e.telegram
            ((countBrokenEcho s).onLink (·.remove e)))).commanded :=
          commanded_of_comp (tellUnsent_commanded e.owner e.telegram (s := (countBrokenEcho s).onLink (·.remove e)) hb)
            (by simp)
        unfold failEntry
        dsimp only
        split
        · exact queueCede_commanded (htold _)
        · exact htold _
      · exact hb

theorem lineHeld_commanded (h : s.commanded) : (lineHeld s).commanded := by
  unfold lineHeld
  split
  · exact h
  · split
    case h_1 | h_2 => exact enterFault_commanded _ h
    all_goals exact h

theorem takeInvt_commanded (src half : Nat) (inv : List Int) (h : s.commanded) : (takeInvt src half inv s).commanded := by
  unfold takeInvt
  split
  · exact sequencerReact_commanded (commanded_of_comp h (by simp))
  · exact h

theorem takeJoin_commanded (src : Nat) (h : s.commanded) : (takeJoin src s).commanded :=
  sequencerReact_commanded (commanded_of_comp (removeFromCopy_commanded src h) (by simp))

theorem shutIn_commanded (h : s.commanded) : (shutIn s).commanded := by
  unfold shutIn
  split
  · exact h
  · exact sequencerReact_commanded (commanded_of_unit h (by simp) (by simp))

theorem takeHalt_commanded (n : Nat) (h : s.commanded) : (takeHalt n s).commanded := by
  unfold takeHalt
  dsimp only
  split
  · exact h
  · split
    · exact shutIn_commanded h
    · exact h

theorem takeSample_commanded (r : Option Sample) (h : s.commanded) : (takeSample r s).1.commanded := by
  unfold takeSample
  split
  · exact h
  · next p =>
    split
    · exact h
    · have hfb : (takeFeedback p.feedback (endHold (s.onIntake (·.accept p)))).commanded :=
        takeFeedback_commanded _ (commanded_of_unit h (by simp) (by simp))
      unfold acceptSample
      dsimp only
      split
      · exact hfb
      · exact commanded_of_comp hfb (by simp)

theorem timeOutStart_commanded (h : s.commanded) : (timeOutStart s).commanded := by
  unfold timeOutStart
  split
  · refine queueCede_commanded (commanded_of_comp (s := s.onComp (·.toStopping)) rfl (by simp))
  · exact h

theorem takeOrder_commanded {src k arg n : Nat} {answer : State → State × Option OrderOutcome}
    (h : (answer s).1.commanded) : (takeOrder src k arg n answer s).commanded := by
  rcases takeOrder_cases s src k arg n answer with ho | ⟨o, ho⟩
  · rwa [ho]
  · rw [ho]
    exact commanded_of_comp h (by simp)

theorem answerRelease_commanded (h : s.commanded) : (answerRelease s).1.commanded := by
  rcases answerRelease_cases (s := s) with hr | ⟨-, hr⟩ <;> rw [hr]
  · exact h
  · exact sequencerReact_commanded (commanded_of_unit h (by simp) (by simp))

theorem answerUnlock_commanded (h : s.commanded) : (answerUnlock s).1.commanded := by
  unfold answerUnlock
  split
  · exact sequencerReact_commanded rfl
  · exact h

theorem expireHead_commanded (h : s.commanded) : (expireHead s).commanded := by
  unfold expireHead
  split
  · exact h
  · split
    · exact removeFromCopy_commanded _ h
    · exact h

theorem takeRestart_commanded (src k arg n : Nat) (h : s.commanded) : (takeRestart src k arg n s).commanded := by
  unfold takeRestart
  split
  · exact lineReset_commanded
  · split <;> exact commanded_of_comp h (by simp)

/-- Every command's block keeps the compressor command as the unit state asks. -/
theorem work_commanded (c : Instr) (h : s.commanded) : (work c s).commanded := by
  cases c with
  | powerOnReset n u l => exact powerOn_commanded n u l
  | powerLoss => exact rfl
  | lineReset n => exact lineReset_commanded
  | clockSecond => exact keptByClock_commanded.takeSecond h
  | time => exact keptByClock_commanded.takeTime _ _ h
  | invt => exact takeInvt_commanded _ _ _ h
  | cede => exact sequencerReact_commanded (removeFromCopy_commanded _ h)
  | join => exact takeJoin_commanded _ h
  | halt => exact takeHalt_commanded _ h
  | orderShut => exact takeOrder_commanded (shutIn_commanded h)
  | orderRelease => exact takeOrder_commanded (answerRelease_commanded h)
  | orderUnlock => exact takeOrder_commanded (answerUnlock_commanded h)
  | orderBedOut => exact takeOrder_commanded (commanded_of_unit h (by simp) (by simp))
  | orderBedIn | orderAccept | orderCorrect | orderClear | orderUnknownCommand =>
    exact takeOrder_commanded (commanded_of_comp h (by simp))
  | orderRestart => exact takeRestart_commanded _ _ _ _ h
  | dupStation => exact takeDuplicate_commanded _ h
  | echoIntact => exact echoIntact_commanded h
  | echoMismatch => exact echoMismatch_commanded h
  | lineHeld => exact lineHeld_commanded h
  | sample => exact takeSample_commanded _ h
  | fieldLost => exact commanded_of_unit h (by simp [work]) (by simp [work])
  | startTimeout => exact timeOutStart_commanded h
  | minStopElapsed => exact autoRestart_commanded h
  | headHoldExpiry => exact expireHead_commanded h
  | _ => exact commanded_of_unit h (by simp [work]) (by simp [work])

theorem keptByEnds_commanded : KeptByEnds State.commanded where
  receiveError _ h := h
  discard _ h := h
  failed _ h := h
  duplicate k _ h := takeDuplicate_commanded k h
  hand _ h := commanded_of_comp h (by simp)
  settle s h := commanded_of_unit (sequencerReact_commanded h) (by simp [settle]) (by simp [settle])
  request _ h := commanded_of_comp h (by simp)
  restart _ _ := lineReset_commanded

/-! ### The SETPOINT fields (R132) -/

/-- The intake holds the SETPOINT fields as their owners' states stand. -/
def State.handedOver (s : State) : Prop := s.intake.handed = currentFields s

theorem handAll_handedOver : (handAll s).handedOver := by
  simp [State.handedOver, handAll_handed, currentFields]

theorem lineReset_handedOver : (lineReset s).handedOver := handAll_handedOver

theorem settleRestart_handedOver (h : s.handedOver) : (settleRestart s).handedOver := by
  unfold settleRestart
  split
  · exact lineReset_handedOver
  · exact h

theorem requestSetpoint_handedOver (h : s.handedOver) : (requestSetpoint s).handedOver := by
  simpa [State.handedOver, currentFields] using h

/-- A predicate's fields have not moved: the mode, the fields handed and what they are handed from. -/
theorem setpointSound_of_fields {t : State} (h : s.setpointSound) (ht : t.train = s.train) (hc : t.comp = s.comp)
    (hd : t.dryer = s.dryer) (hi : t.intake.handed = s.intake.handed) : t.setpointSound := by
  intro hm
  rw [ht] at hm
  rw [hi, h hm]
  simp [currentFields, ht, hc, hd]

/-- The works after which nothing more is handed have handed what they changed. -/
theorem work_setpointSound {c : Instr} (hplain : endsPlainly c = true) (h : s.setpointSound) :
    (work c s).setpointSound := by
  cases c with
  | powerOnReset n u l =>
    unfold work powerOn
    dsimp only
    split
    · exact fun hm => absurd rfl hm
    · exact fun _ => handAll_handedOver
  | powerLoss => exact fun hm => absurd rfl hm
  | lineReset n => exact fun _ => lineReset_handedOver
  | setpointSendDone =>
    refine setpointSound_of_fields h (by simp [work]) (by simp [work]) (by simp [work]) ?_
    unfold work setpointDone
    simp only [State.onIntake_intake]
    split
    · rfl
    · split <;> rfl
  | checkpointWriteDone => exact setpointSound_of_fields h (by simp [work]) (by simp [work]) (by simp [work]) (by simp [work])
  | holdBackRunOut | sendStart | arbitrationLost | faultIdleWait => exact h
  | _ => cases hplain

theorem outcome_setpointSound {c : Instr} {t : State} (h : s.setpointSound) (ho : Outcomes c s t) : t.setpointSound := by
  cases ho with
  | ignored => exact h
  | received => exact h
  | discarded => exact h
  | failed => exact h
  | duplicate kind => exact fun _ => settleRestart_handedOver handAll_handedOver
  | worked he =>
    cases he with
    | plain hplain => exact work_setpointSound hplain h
    | finished => exact fun _ => settleRestart_handedOver handAll_handedOver
    | settled => exact fun _ => settleRestart_handedOver handAll_handedOver
    | sampled => exact fun _ => settleRestart_handedOver (requestSetpoint_handedOver handAll_handedOver)

/-- Settles O58: the lineup and the command follow wherever the mode and the unit state are set, and every event that moves
a SETPOINT field ends with its handing. -/
theorem commandsStaySound : Obligations.CommandsStaySound := by
  intro s t hl hc hf h
  refine ⟨keptByEnds_lined.step (s := s) (t := t) (fun _ _ hp => hp) (fun c _ _ hp => work_lined c hp) hl h,
    keptByEnds_commanded.step (s := s) (t := t) (fun _ _ hp => hp) (fun c _ _ hp => work_commanded c hp) hc h, ?_⟩
  rcases step_cases h with rfl | ⟨c, rest, -, hout⟩
  · exact hf
  · exact outcome_setpointSound (s := { s with pending := rest }) hf hout

end Sys2Proof.Machine
end

section
/-! PROOFS. The caps of a withdrawal (R43, R44): one invariant of the rounds. The shares and the pool together are the
whole energy, no shipper's share is above its inventory, and every round that leaves a pool caps one more shipper. -/

namespace Sys2Proof.Machine

/-! ### Lists by their entries -/

theorem zipWith_getD {α β γ : Type} (f : α → β → γ) {l : List α} {m : List β} {i : Nat} (hl : i < l.length)
    (hm : i < m.length) (a : α) (b : β) (c : γ) :
    (List.zipWith f l m).getD i c = f (l.getD i a) (m.getD i b) := by
  simp [List.getD_eq_getElem?_getD, hl, hm]

theorem map_range_getD {α : Type} (f : Nat → α) {n i : Nat} (hi : i < n) (d : α) :
    ((List.range n).map f).getD i d = f i := by
  simp [List.getD_eq_getElem?_getD, hi]

theorem sum_eq_sum_range (l : List Nat) : l.sum = ((List.range l.length).map (fun i => l.getD i 0)).sum := by
  have h := sum_map_eq_sum_range id l
  rw [List.map_id] at h
  rw [h]; rfl

theorem sum_zipWith_add {l m : List Nat} (h : l.length = m.length) :
    (List.zipWith (· + ·) l m).sum = l.sum + m.sum := by
  induction l generalizing m with
  | nil => simp [List.length_eq_zero_iff.mp h.symm]
  | cons x l ih =>
    cases m with
    | nil => simp at h
    | cons y m =>
      have hlen : l.length = m.length := by simpa using h
      simp only [List.zipWith_cons_cons, List.sum_cons, ih hlen]
      omega

theorem apportion_getD_of_weight_zero {amount : Nat} {w : List Nat} {i : Nat} (hw : 0 < w.sum) (hi : w.getD i 0 = 0) :
    (apportion amount w).getD i 0 = 0 := by
  by_cases hlt : i < w.length
  · have hnone : ¬ takesUnit amount w i := fun hunit => hi.not_gt hunit.1
    rw [apportion_getD amount hw hlt, if_neg hnone, quotient, hi, Nat.mul_zero, Nat.zero_div]
  · have hlen : (apportion amount w).length = w.length := by
      refine apportion_length amount (List.length_pos_of_ne_nil ?_)
      rintro rfl
      simp at hw
    exact List.getD_eq_default _ _ (by omega)

/-! ### The weights left -/

variable {inv : List Int} {w first shares : List Nat} {capped : List Bool} {pool : Nat}

@[simp] theorem uncappedWeights_length (w : List Nat) (capped : List Bool) :
    (uncappedWeights w capped).length = w.length := by simp [uncappedWeights]

theorem uncappedWeights_getD {i : Nat} (hi : i < w.length) :
    (uncappedWeights w capped).getD i 0 = if capped.getD i false then 0 else w.getD i 0 := map_range_getD _ hi 0

/-- A slot with a weight that is left without one is capped. -/
theorem capped_of_no_weight_left (hsum : (uncappedWeights w capped).sum = 0) {i : Nat} (hi : i < w.length)
    (hw : 0 < w.getD i 0) : capped.getD i false = true := by
  have hmem : (uncappedWeights w capped).getD i 0 ∈ uncappedWeights w capped := by
    rw [List.getD_eq_getElem _ _ (by simpa using hi)]
    exact List.getElem_mem _
  have hzero : (uncappedWeights w capped).getD i 0 = 0 := List.sum_eq_zero_iff.mp hsum _ hmem
  rw [uncappedWeights_getD hi] at hzero
  by_contra hne
  rw [if_neg hne] at hzero
  omega

/-! ### One test of the shares -/

theorem capTest_length : (capTest inv shares capped).1.length = shares.length
    ∧ (capTest inv shares capped).2.1.length = shares.length := by simp [capTest]

theorem capTest_share {i : Nat} (hi : i < shares.length) : (capTest inv shares capped).1.getD i 0
    = if overCap inv shares capped i then capLimit inv i else shares.getD i 0 := map_range_getD _ hi 0

theorem capTest_capped {i : Nat} (hi : i < shares.length) : (capTest inv shares capped).2.1.getD i false
    = (capped.getD i false || overCap inv shares capped i) := map_range_getD _ hi false

theorem overCap_iff {i : Nat} : overCap inv shares capped i = true ↔
    1 ≤ i ∧ capped.getD i false = false ∧ capLimit inv i < shares.getD i 0 := by
  simp [overCap, and_assoc]

/-- What the caps take off the shares is the pool. -/
theorem capTest_sum : (capTest inv shares capped).1.sum + (capTest inv shares capped).2.2 = shares.sum := by
  rw [capTest, ← List.sum_map_add, sum_eq_sum_range shares]
  refine congrArg List.sum (List.map_congr_left fun i _ => ?_)
  split
  · next h => have := (overCap_iff.mp h).2.2; omega
  · rfl

/-- A test that leaves a pool has found a shipper over its inventory. -/
theorem exists_overCap_of_pool (h : 0 < (capTest inv shares capped).2.2) :
    ∃ i < shares.length, overCap inv shares capped i = true := by
  by_contra hnone
  refine h.ne' (List.sum_eq_zero_iff.mpr fun x hx => ?_)
  obtain ⟨i, hi, rfl⟩ := List.mem_map.mp hx
  exact if_neg fun hover => hnone ⟨i, List.mem_range.mp hi, hover⟩

/-! ### The invariant of the rounds -/

/-- Between two rounds: `first` are the shares as apportioned, `shares`, `capped` and `pool` what the rounds so far have
made of them. -/
structure Capping (inv : List Int) (first shares : List Nat) (capped : List Bool) (pool : Nat) : Prop where
  length : shares.length = first.length
  capped_length : capped.length = first.length
  total : shares.sum + pool = first.sum
  within : ∀ i < first.length, 1 ≤ i → shares.getD i 0 ≤ capLimit inv i
  full : ∀ i < first.length, capped.getD i false = true → 1 ≤ i ∧ shares.getD i 0 = capLimit inv i
  grown : ∀ i < first.length, capped.getD i false = true ∨ first.getD i 0 ≤ shares.getD i 0

/-- A test of shares that stand as the rounds leave them, but for the limits of the shippers not capped yet. -/
theorem Capping.of_test (hlen : shares.length = first.length) (hsum : shares.sum = first.sum)
    (hfull : ∀ i < first.length, capped.getD i false = true → 1 ≤ i ∧ shares.getD i 0 = capLimit inv i)
    (hgrown : ∀ i < first.length, capped.getD i false = true ∨ first.getD i 0 ≤ shares.getD i 0) :
    Capping inv first (capTest inv shares capped).1 (capTest inv shares capped).2.1
      (capTest inv shares capped).2.2 where
  length := capTest_length.1.trans hlen
  capped_length := capTest_length.2.trans hlen
  total := capTest_sum.trans hsum
  within i hi h1 := by
    rw [capTest_share (hlen ▸ hi)]
    split
    · exact le_rfl
    · next hover =>
      by_cases hc : capped.getD i false = true
      · exact (hfull i hi hc).2.le
      · exact Nat.not_lt.mp fun hlt => hover (overCap_iff.mpr ⟨h1, Bool.not_eq_true _ ▸ hc, hlt⟩)
  full i hi hc := by
    rw [capTest_capped (hlen ▸ hi), Bool.or_eq_true] at hc
    rw [capTest_share (hlen ▸ hi)]
    by_cases hover : overCap inv shares capped i = true
    · exact ⟨(overCap_iff.mp hover).1, if_pos hover⟩
    · rw [if_neg hover]
      exact hfull i hi (hc.resolve_right hover)
  grown i hi := by
    rw [capTest_capped (hlen ▸ hi), capTest_share (hlen ▸ hi), Bool.or_eq_true]
    by_cases hover : overCap inv shares capped i = true
    · exact .inl (.inr hover)
    · rw [if_neg hover]
      exact (hgrown i hi).imp_left .inl

/-- The test of the apportioned shares (R43). -/
theorem Capping.initial (inv : List Int) (first : List Nat) :
    let t := capTest inv first (List.replicate first.length false)
    Capping inv first t.1 t.2.1 t.2.2 := by
  refine .of_test rfl rfl (fun i hi hc => ?_) fun i _ => .inr le_rfl
  simp [List.getD_eq_getElem?_getD, hi] at hc

/-- The shares of a round: the pool apportioned over the slots left uncapped, and the test of them. -/
theorem Capping.round (h : Capping inv first shares capped pool) (hw : w.length = first.length)
    (hsum : 0 < (uncappedWeights w capped).sum) :
    let t := capTest inv (List.zipWith (· + ·) shares (apportion pool (uncappedWeights w capped))) capped
    Capping inv first t.1 t.2.1 t.2.2 := by
  have hpos : 0 < w.length := by
    refine List.length_pos_of_ne_nil ?_
    rintro rfl
    simp [uncappedWeights] at hsum
  have hmore : (apportion pool (uncappedWeights w capped)).length = first.length := by
    rw [apportion_length _ (by simpa using hpos), uncappedWeights_length, hw]
  have hshare (i : Nat) (hi : i < first.length) := zipWith_getD (· + ·) (by rw [h.length]; exact hi)
    (by rw [hmore]; exact hi : i < (apportion pool (uncappedWeights w capped)).length) 0 0 0 (l := shares)
  have hnone (i : Nat) (hi : i < first.length) (hc : capped.getD i false = true) :
      (apportion pool (uncappedWeights w capped)).getD i 0 = 0 :=
    apportion_getD_of_weight_zero hsum (by rw [uncappedWeights_getD (hw ▸ hi), if_pos hc])
  refine .of_test (by simp [h.length, hmore]) ?sum (fun i hi hc => ?full) (fun i hi => ?grown)
  case sum => rw [sum_zipWith_add (h.length.trans hmore.symm), apportion_sum, h.total]
  case full =>
    rw [hshare i hi, hnone i hi hc]
    exact h.full i hi hc
  case grown =>
    rw [hshare i hi]
    exact (h.grown i hi).imp_right fun hle => hle.trans (Nat.le_add_right _ _)

theorem Capping.rounds (hw : w.length = first.length) (n : Nat) (h : Capping inv first shares capped pool) :
    let t := capRounds inv w n shares capped pool
    Capping inv first t.1 t.2.1 t.2.2 := by
  induction n generalizing shares capped pool with
  | zero => exact h
  | succ n ih =>
    unfold capRounds
    split
    · exact h
    · next hgo => exact ih (h.round hw (by omega))

/-! ### The rounds suffice -/

/-- The slots that are capped. -/
def cappedSlots (capped : List Bool) : Finset Nat := {i ∈ Finset.range capped.length | capped.getD i false = true}

theorem mem_cappedSlots {i : Nat} : i ∈ cappedSlots capped ↔ i < capped.length ∧ capped.getD i false = true := by
  simp [cappedSlots]

/-- A test that leaves a pool caps at least one shipper more. -/
theorem card_cappedSlots_capTest (hlen : capped.length = shares.length) (h : 0 < (capTest inv shares capped).2.2) :
    (cappedSlots capped).card < (cappedSlots (capTest inv shares capped).2.1).card := by
  obtain ⟨k, hk, hover⟩ := exists_overCap_of_pool h
  refine Finset.card_lt_card (Finset.ssubset_iff_of_subset (fun i hi => ?_) |>.mpr ⟨k, ?_, ?_⟩)
  · obtain ⟨hi, hc⟩ := mem_cappedSlots.mp hi
    have hi : i < shares.length := hlen ▸ hi
    rw [mem_cappedSlots, capTest_length.2, capTest_capped hi, hc]
    exact ⟨hi, rfl⟩
  · rw [mem_cappedSlots, capTest_length.2, capTest_capped hk, hover, Bool.or_true]
    exact ⟨hk, rfl⟩
  · rw [mem_cappedSlots, (overCap_iff.mp hover).2.1]
    simp

/-- Slot 0 is never capped. -/
theorem Capping.card_lt (h : Capping inv first shares capped pool) (hpos : 0 < first.length) :
    (cappedSlots capped).card < first.length := by
  have hsub : cappedSlots capped ⊆ (Finset.range first.length).erase 0 := by
    intro i hi
    obtain ⟨hi, hc⟩ := mem_cappedSlots.mp hi
    have hi : i < first.length := h.capped_length ▸ hi
    have h1 := (h.full i hi hc).1
    simp only [Finset.mem_erase, Finset.mem_range]
    omega
  have hcard := Finset.card_le_card hsub
  rw [Finset.card_erase_of_mem (by simpa using hpos), Finset.card_range] at hcard
  omega

/-- The rounds end with no pool, or with no weight left, when there are as many of them as shippers could still be
capped (R43, R44). -/
theorem Capping.rounds_end (hw : w.length = first.length) (hpos : 0 < first.length) (n : Nat)
    (h : Capping inv first shares capped pool) (hn : 0 < pool → first.length ≤ (cappedSlots capped).card + n) :
    let t := capRounds inv w n shares capped pool
    t.2.2 = 0 ∨ (uncappedWeights w t.2.1).sum = 0 := by
  induction n generalizing shares capped pool with
  | zero =>
    refine .inl (Nat.eq_zero_of_not_pos fun hpool => ?_)
    have := hn hpool
    have := h.card_lt hpos
    omega
  | succ n ih =>
    unfold capRounds
    split
    · next hstop => exact hstop
    · next hgo =>
      have hround := h.round hw (by omega)
      refine ih hround fun hpool => ?_
      have hlen : capped.length
          = (List.zipWith (· + ·) shares (apportion pool (uncappedWeights w capped))).length :=
        h.capped_length.trans (hround.length.symm.trans capTest_length.1)
      have := card_cappedSlots_capTest hlen hpool
      have := hn (by omega)
      omega

/-! ### The shares of a withdrawal after the caps -/

theorem capShares_capping (inv : List Int) (hw : w.length = first.length) :
    let t := capShares inv w first
    Capping inv first t.1 t.2.1 t.2.2 := (Capping.initial inv first).rounds hw 16

/-- What the caps leave to slot 0 is left because no shipper with a weight is uncapped (R43, R44). -/
theorem capShares_end (inv : List Int) (hw : w.length = 17) (hfirst : first.length = 17) :
    (capShares inv w first).2.2 = 0 ∨ (uncappedWeights w (capShares inv w first).2.1).sum = 0 := by
  refine (Capping.initial inv first).rounds_end (hw.trans hfirst.symm) (by omega) 16 fun hpool => ?_
  have := card_cappedSlots_capTest (by simp) hpool
  omega

/-- A slot without weight keeps the share it was apportioned, but for its cap. -/
theorem capRounds_operator (hw0 : w.getD 0 0 = 0) (hlen : shares.length = w.length) (n : Nat) :
    (capRounds inv w n shares capped pool).1.getD 0 0 = shares.getD 0 0 := by
  induction n generalizing shares capped pool with
  | zero => rfl
  | succ n ih =>
    unfold capRounds
    split
    · rfl
    · next hgo =>
      have hsum : 0 < (uncappedWeights w capped).sum := by omega
      have hpos : 0 < w.length := by
        refine List.length_pos_of_ne_nil ?_
        rintro rfl
        simp [uncappedWeights] at hsum
      have hmore : (apportion pool (uncappedWeights w capped)).length = w.length := by
        rw [apportion_length _ (by simpa using hpos), uncappedWeights_length]
      have hnone : (apportion pool (uncappedWeights w capped)).getD 0 0 = 0 :=
        apportion_getD_of_weight_zero hsum (by rw [uncappedWeights_getD hpos, hw0, ite_self])
      rw [ih (by rw [capTest_length.1]; simp [hlen, hmore]), capTest_share (by simp [hlen, hmore, hpos]),
        if_neg (by simp [overCap]), zipWith_getD _ (hlen ▸ hpos) (hmore ▸ hpos) 0 0, hnone, Nat.add_zero]

theorem capShares_operator (inv : List Int) (hw0 : w.getD 0 0 = 0) (hw : w.length = 17) (hfirst : first.length = 17) :
    (capShares inv w first).1.getD 0 0 = first.getD 0 0 := by
  rw [capShares, capRounds_operator hw0 (by rw [capTest_length.1, hfirst, hw]), capTest_share (by omega),
    if_neg (by simp [overCap])]

end Sys2Proof.Machine
end

section
/-! PROOFS. The inventories of the slots under bookings and charges (R3, R43 to R50): what each makes of them, and that no
shipper's becomes negative. -/

namespace Sys2Proof.Machine

open Sys2Proof (Instr Bed Flow)

/-! ### The final shares -/

variable {f : Flow} {inv : List Int} {w : List Nat} {e : Nat}

theorem apportion_length_17 (hw : w.length = 17) : (apportion e w).length = 17 := by
  rw [apportion_length e (by omega), hw]

theorem finalShares_length (hw : w.length = 17) : (finalShares f inv w e).1.length = 17 := by
  have hfirst := apportion_length_17 (e := e) hw
  cases f with
  | inject => exact hfirst
  | withdraw =>
    have hcap := capShares_capping (first := apportion e w) inv (by rw [hw, hfirst])
    change (updateAt 0 _ _).length = 17
    rw [updateAt_length, hcap.length, hfirst]

theorem sum_updateAt_zero {l : List Nat} (hl : 0 < l.length) (n : Nat) : (updateAt 0 (· + n) l).sum = l.sum + n := by
  cases l with
  | nil => simp at hl
  | cons x l => simp only [updateAt, List.sum_cons]; omega

/-- The final shares are the whole energy: what the caps leave over goes to slot 0 (R44). -/
theorem finalShares_sum (hw : w.length = 17) : (finalShares f inv w e).1.sum = e := by
  cases f with
  | inject => exact apportion_sum e
  | withdraw =>
    have hfirst := apportion_length_17 (e := e) hw
    have hcap := capShares_capping (first := apportion e w) inv (by rw [hw, hfirst])
    change (updateAt 0 (· + (capShares inv w (apportion e w)).2.2) (capShares inv w (apportion e w)).1).sum = e
    rw [sum_updateAt_zero (by rw [hcap.length]; omega), hcap.total, apportion_sum]

theorem finalShares_shipper {i : Nat} (h1 : 1 ≤ i) :
    (finalShares .withdraw inv w e).1.getD i 0 = (capShares inv w (apportion e w)).1.getD i 0 :=
  updateAt_getD_of_ne _ _ _ _ _ (by omega)

/-- No shipper gives up more than its inventory (R43). -/
theorem finalShares_le (hw : w.length = 17) {i : Nat} (h1 : 1 ≤ i) (hi : i < 17) :
    (finalShares .withdraw inv w e).1.getD i 0 ≤ (inv.getD i 0).toNat := by
  have hfirst := apportion_length_17 (e := e) hw
  have hcap := capShares_capping (first := apportion e w) inv (by rw [hw, hfirst])
  rw [finalShares_shipper h1]
  exact hcap.within i (by omega) h1

/-! ### The inventories -/

/-- A slot without its space-over flag. -/
def Slot.unflagged (r : Slot) : Slot := { r with spaceOver := false }

variable {s t : State}

theorem inventories_of_slots (h : t.acct.slots = s.acct.slots) : t.inventories = s.inventories := by
  rw [State.inventories, h, State.inventories]

theorem inventories_getD (i : Nat) : s.inventories.getD i 0 = s.inventory i := by
  rw [State.inventories, State.inventory]
  exact List.getD_map s.acct.slots {} Slot.inventory

theorem map_updateAt {α β : Type} (g : α → β) (k : α → α) (hk : ∀ x, g (k x) = g x) (i : Nat) (l : List α) :
    (updateAt i k l).map g = l.map g := by
  induction l generalizing i with
  | nil => cases i <;> rfl
  | cons x l ih => cases i <;> simp [updateAt, ih, hk]

/-- The comparison of a shipper's space moves at most its flag (R5). -/
@[simp] theorem compareSpace_unflagged (slot : Nat) :
    (compareSpace s slot).acct.slots.map Slot.unflagged = s.acct.slots.map Slot.unflagged := by
  unfold compareSpace
  split
  · simpa using map_updateAt Slot.unflagged (fun r => { r with spaceOver := true }) (fun _ => rfl) slot s.acct.slots
  · rfl

@[simp] theorem compareSpaces_unflagged (shares : List Nat) :
    (compareSpaces shares s).acct.slots.map Slot.unflagged = s.acct.slots.map Slot.unflagged := by
  unfold compareSpaces
  generalize List.filter _ (List.range 17) = l
  induction l generalizing s with
  | nil => rfl
  | cons slot rest ih => simpa using ih (s := compareSpace s slot)

/-- The slots as a booking's shares and the shortfall of slot 0 leave them, before any flag is set (R44, R45). -/
theorem bookEnergy_unflagged {v h : Nat} {bed : Option Bed} :
    let fs := finalShares f s.inventories w (bookEnergy f v h w bed s).1
    (bookEnergy f v h w bed s).2.2.acct.slots.map Slot.unflagged
      = (updateAt 0 (addShortfall · fs.2.2) (List.zipWith (bookShare f) s.acct.slots fs.1)).map Slot.unflagged := by
  unfold bookEnergy
  cases f <;> dsimp only <;> split <;> simp

theorem bookEnergy_shares {v h : Nat} {bed : Option Bed} : (bookEnergy f v h w bed s).2.1
    = (finalShares f s.inventories w (bookEnergy f v h w bed s).1).1 := rfl

/-- What a share makes of an inventory (R45). -/
def shareMoved (f : Flow) (x : Int) (n : Nat) : Int :=
  match f with
  | .inject => x + n
  | .withdraw => x - n

theorem bookShare_inventory (x : Slot) (n : Nat) : (bookShare f x n).inventory = shareMoved f x.inventory n := by
  cases f <;> rfl

theorem bookEnergy_inventories {v h : Nat} {bed : Option Bed} : (bookEnergy f v h w bed s).2.2.inventories
    = List.zipWith (shareMoved f) s.inventories (bookEnergy f v h w bed s).2.1 := by
  have hflags := congrArg (List.map Slot.inventory) (bookEnergy_unflagged (f := f) (w := w) (s := s) (v := v) (h := h)
    (bed := bed))
  have hunflagged (l : List Slot) : (l.map Slot.unflagged).map Slot.inventory = l.map Slot.inventory := by
    simp [Slot.unflagged, Function.comp_def]
  rw [hunflagged, hunflagged, map_updateAt Slot.inventory (addShortfall · _) (fun _ => rfl), List.map_zipWith] at hflags
  rw [State.inventories, hflags, bookEnergy_shares, State.inventories, List.zipWith_map_left]
  simp only [bookShare_inventory]

/-! ### Charges -/

variable {k : FuelKind} {charges : List Nat}

theorem deductCharges_length {slots : List Slot} (h : charges.length = slots.length) :
    (deductCharges k slots charges).length = slots.length := by
  unfold deductCharges
  split
  · simp at h ⊢; omega
  · rfl

/-- Slot 0 pays its own charge and what the shippers cannot (R47, R48). -/
theorem deductCharges_operator {slots : List Slot} (h : charges.length = slots.length) (hpos : 0 < slots.length) :
    (deductCharges k slots charges).getD 0 {}
      = deductOperator k (slots.getD 0 {}) (charges.getD 0 0) (fuelShorts slots charges).sum := by
  match slots, charges with
  | op :: shippers, c0 :: cs => simp [deductCharges, fuelShorts]
  | op :: shippers, [] => simp at h
  | [], _ => simp at hpos

theorem deductCharges_shipper {slots : List Slot} (h : charges.length = slots.length) {i : Nat} (h1 : 1 ≤ i)
    (hi : i < slots.length) :
    (deductCharges k slots charges).getD i {} = deductShipper k (slots.getD i {}) (charges.getD i 0) := by
  match slots, charges, i with
  | op :: shippers, c0 :: cs, i + 1 =>
    simp only [List.length_cons, Nat.add_lt_add_iff_right, Nat.add_right_cancel_iff] at h hi
    simpa [deductCharges] using zipWith_getD (deductShipper k) hi (by omega : i < cs.length) {} 0 {}
  | op :: shippers, [], _ => simp at h
  | [], _, _ => simp at hi

theorem bookFuel_slots (amount : Nat) :
    (bookFuel k amount w s).acct.slots = deductCharges k s.acct.slots (apportion amount w) := by
  unfold bookFuel
  dsimp only
  split <;> simp

/-! ### Sized books without a negative shipper -/

/-- `State.sized` and `State.shippersSound` together, the inventories by their slots, the beds and the directions as
arguments. -/
structure State.whole (s : State) : Prop where
  slots : s.acct.slots.length = 17
  shippers : ∀ i, 1 ≤ i → 0 ≤ s.inventory i
  confirmed : s.nom.confirmed.length = 16
  passage : ∀ bed, (s.dryer.bed bed).passage.length = 17
  snapshot : ∀ f r, s.intake.suspense f = some r → r.snapshot.length = 16

theorem shippersSound_iff : s.shippersSound ↔ ∀ i, 1 ≤ i → 0 ≤ s.inventory i := by
  constructor
  · intro h i h1
    rw [State.inventory]
    by_cases hi : i < s.acct.slots.length
    · rw [List.getD_eq_getElem _ _ hi]
      refine h _ (List.mem_drop_iff_getElem.mpr ⟨i - 1, by omega, ?_⟩)
      simp only [Nat.add_sub_cancel' h1]
    · rw [List.getD_eq_default _ _ (by omega)]
  · intro h r hr
    obtain ⟨i, hi, rfl⟩ := List.mem_drop_iff_getElem.mp hr
    have := h (1 + i) (by omega)
    rwa [State.inventory, List.getD_eq_getElem _ _ (by omega)] at this

theorem whole_iff : s.whole ↔ s.sized ∧ s.shippersSound := by
  rw [shippersSound_iff]
  constructor
  · intro h
    exact ⟨⟨h.slots, h.confirmed, h.passage .a, h.passage .b, h.snapshot .inject, h.snapshot .withdraw⟩, h.shippers⟩
  · rintro ⟨⟨hslots, hconf, ha, hb, hi, hw⟩, hship⟩
    exact ⟨hslots, hship, hconf, fun bed => by cases bed <;> assumption, fun f => by cases f <;> assumption⟩

/-- What keeps the slots, the confirmed rates, the passage lists and the suspense records keeps the books whole. -/
theorem State.whole.keep (hs : s.whole) (hslots : t.acct.slots = s.acct.slots) (hnom : t.nom = s.nom)
    (hdryer : ∀ bed, (t.dryer.bed bed).passage = (s.dryer.bed bed).passage)
    (hinject : t.intake.suspInject = s.intake.suspInject) (hwithdraw : t.intake.suspWithdraw = s.intake.suspWithdraw) :
    t.whole where
  slots := hslots ▸ hs.slots
  shippers i := by rw [State.inventory, hslots]; exact hs.shippers i
  confirmed := hnom ▸ hs.confirmed
  passage bed := hdryer bed ▸ hs.passage bed
  snapshot f r h := hs.snapshot f r (by cases f <;> simpa [Intake.suspense, hinject, hwithdraw] using h)

end Sys2Proof.Machine
end

section
/-! PROOFS. No step makes a shipper's inventory negative, and none loses an entry of a list of the books (R3, R43, R44,
R48): each operation on the slots, the passage lists and the suspense records, and then every command. -/

namespace Sys2Proof.Machine

open Sys2Proof (Instr Bed Flow)

variable {s t : State} {f : Flow} {w : List Nat}

section

variable {bed : Option Bed}

theorem State.whole.onMon {g : Monitor → Monitor} (hs : s.whole) : (s.onMon g).whole :=
  hs.keep rfl rfl (fun _ => by rfl) rfl rfl

theorem raise_whole {c : Cond} {i : Nat} {v : Int} (hs : s.whole) : (raise c i v s).whole :=
  hs.keep (by simp) (by simp) (by simp) (by simp) (by simp)

/-! ### Bookings and charges -/

theorem bookEnergy_dryer {v h : Nat} : (bookEnergy f v h w bed s).2.2.dryer
    = match f with
      | .inject => s.dryer
      | .withdraw => addPassage bed (bookEnergy f v h w bed s).2.1 s.dryer := by
  unfold bookEnergy
  cases f <;> dsimp only <;> split <;> simp

theorem addPassage_length {shares : List Nat} {d : Dryer} (hd : ∀ x, (d.bed x).passage.length = 17)
    (hshares : shares.length = 17) (x : Bed) : ((addPassage bed shares d).bed x).passage.length = 17 := by
  cases bed with
  | none => exact hd x
  | some bed => obtain rfl | rfl := bed_eq_or_other bed x <;> simp [addPassage, hd, hshares]

theorem bookEnergy_length {v h : Nat} (hw : w.length = 17) : (bookEnergy f v h w bed s).2.1.length = 17 :=
  finalShares_length hw

theorem bookEnergy_whole {v h : Nat} (hs : s.whole) (hw : w.length = 17) : (bookEnergy f v h w bed s).2.2.whole := by
  have hinv := bookEnergy_inventories (f := f) (v := v) (h := h) (w := w) (bed := bed) (s := s)
  have hshares := bookEnergy_length (f := f) (v := v) (h := h) (bed := bed) (s := s) hw
  have hslots : s.inventories.length = 17 := by simpa [State.inventories] using hs.slots
  constructor
  case slots =>
    have := congrArg List.length hinv
    simpa [State.inventories, hs.slots, hshares] using this
  case shippers =>
    intro i h1
    rw [← inventories_getD, hinv]
    by_cases hi : i < 17
    · rw [zipWith_getD _ (by omega) (by omega) 0 0, inventories_getD]
      have hbefore := hs.shippers i h1
      cases f with
      | inject => simp only [shareMoved]; omega
      | withdraw =>
        have hle := finalShares_le (inv := s.inventories) (e := (bookEnergy .withdraw v h w bed s).1) hw h1 hi
        rw [← bookEnergy_shares, inventories_getD] at hle
        simp only [shareMoved]
        omega
    · rw [List.getD_eq_default _ _ (by simp only [List.length_zipWith]; omega)]
  case confirmed => simpa using hs.confirmed
  case passage =>
    intro x
    rw [bookEnergy_dryer]
    cases f with
    | inject => exact hs.passage x
    | withdraw => exact addPassage_length hs.passage hshares x
  case snapshot => simpa using hs.snapshot

theorem bookFuel_whole {k : FuelKind} {n : Nat} (hs : s.whole) (hw : w.length = 17) : (bookFuel k n w s).whole := by
  have hcharges := (apportion_length_17 (e := n) hw).trans hs.slots.symm
  have hslots := bookFuel_slots (k := k) (w := w) (s := s) n
  constructor
  case slots => rw [hslots, deductCharges_length hcharges, hs.slots]
  case shippers =>
    intro i h1
    rw [State.inventory, hslots]
    by_cases hi : i < s.acct.slots.length
    · have hbefore := hs.shippers i h1
      rw [deductCharges_shipper hcharges h1 hi]
      simp only [State.inventory] at hbefore
      simp only [deductShipper, addShortfall, fuelShort]
      omega
    · rw [List.getD_eq_default _ _ (by rw [deductCharges_length hcharges]; omega)]
  case confirmed => simpa using hs.confirmed
  case passage => simpa using hs.passage
  case snapshot => simpa using hs.snapshot

theorem bookRegeneration_whole {g : Nat} (hs : s.whole) : (bookRegeneration bed g s).whole := by
  cases bed with
  | none =>
    have hfuel : (bookFuel .regeneration g (List.replicate 17 0) s).whole := bookFuel_whole hs List.length_replicate
    unfold bookRegeneration
    exact hfuel.onMon
  | some bed =>
    have hfuel : (bookFuel .regeneration g (s.dryer.bed bed).passage s).whole := bookFuel_whole hs (hs.passage bed)
    constructor
    case slots => simpa [bookRegeneration] using hfuel.slots
    case shippers => simpa [bookRegeneration, State.inventory] using hfuel.shippers
    case confirmed => simpa using hs.confirmed
    case passage => intro x; obtain rfl | rfl := bed_eq_or_other bed x <;> simp [bookRegeneration, hs.passage]
    case snapshot => simpa using hs.snapshot

theorem bookingWeights_length {rates : List Int} (h : rates.length = 16) : (bookingWeights f rates).length = 17 := by
  simp [bookingWeights, h]

theorem bookInterval_whole {v h fuel : Nat} (hs : s.whole) : (bookInterval v h fuel s).whole := by
  have hend (shares : List Nat) (u : State) (hlen : shares.length = 17) (hu : u.whole) :
      ((bookFuel .compressor fuel shares u).onMon (fun m => { m with sumCompFuel := m.sumCompFuel + fuel })).whole :=
    (bookFuel_whole hu hlen).onMon
  unfold bookInterval
  dsimp only
  refine hend _ _ ?_ ?_
  · split
    · simp
    · exact bookEnergy_length (bed := s.dryer.adsorbing) (by split <;> simp [bookingWeights_length hs.confirmed])
  · split
    · exact hs
    · split
      · exact raise_whole (bookEnergy_whole hs List.length_replicate)
      · exact bookEnergy_whole hs (bookingWeights_length hs.confirmed)

/-! ### Suspense records -/

theorem Intake.setSuspense_suspense (i : Intake) (f g : Flow) (r : Option Suspense) :
    (i.setSuspense f r).suspense g = if g = f then r else i.suspense g := by
  cases f <;> cases g <;> rfl

/-- A suspense record replaced by none, or by one with a snapshot of its length. -/
theorem State.whole.setSuspense {r : Option Suspense} (hs : s.whole) (hr : ∀ x, r = some x → x.snapshot.length = 16) :
    (s.onIntake (fun i => i.setSuspense f r)).whole where
  slots := hs.slots
  shippers := hs.shippers
  confirmed := hs.confirmed
  passage := hs.passage
  snapshot g x hx := by
    rw [State.onIntake_intake, Intake.setSuspense_suspense] at hx
    split at hx
    · exact hr x hx
    · exact hs.snapshot g x hx

theorem replyDue_whole {d : Due} {o : OrderOutcome} (hs : s.whole) : (replyDue d o s).whole :=
  hs.keep (by simp) (by simp) (by simp) (by simp) (by simp)

theorem toSuspense_whole {span : Nat} {volume : Option Nat} (hs : s.whole) : (toSuspense span volume s).whole := by
  unfold toSuspense
  dsimp only
  split
  · exact hs.setSuspense fun x hx => by cases hx; exact hs.confirmed
  · next r hr =>
    have hopen : (s.onIntake (fun i => i.setSuspense (suspenseFlow s.train) (some
        { r with span := satAdd top32 r.span span, volume := addVolume r.volume volume, due := none }))).whole :=
      hs.setSuspense fun x hx => by cases hx; exact hs.snapshot _ r hr
    split
    · exact hopen
    · exact replyDue_whole hopen

theorem suspenseOldTest_whole (hs : s.whole) : (suspenseOldTest f s).whole := by
  unfold suspenseOldTest
  split
  · exact hs
  · next r hr =>
    split
    · exact raise_whole (State.whole.setSuspense hs fun x hx => by cases hx; exact hs.snapshot _ r hr)
    · exact hs

theorem bookSuspense_whole (hs : s.whole) : (bookSuspense f bed s).whole := by
  unfold bookSuspense
  split
  · exact hs
  · next r hr =>
    split
    · exact hs
    · exact replyDue_whole ((bookEnergy_whole hs (bookingWeights_length (hs.snapshot _ r hr))).setSuspense (by simp))

theorem answerSuspense_whole {b : Bool} {src c arg l : Nat} (hs : s.whole) :
    (answerSuspense b src c arg l s).1.whole := by
  unfold answerSuspense
  repeat' split
  · exact hs
  · exact hs
  · exact hs
  · exact hs
  · next r hr _ _ _ _ => exact hs.setSuspense fun x hx => by cases hx; exact hs.snapshot _ r hr

end

/-! ### SAMPLEs -/

/-- An image of the intake that leaves both suspense records as they stand. -/
theorem State.whole.onIntake {g : Intake → Intake} (hs : s.whole)
    (hinject : (g s.intake).suspInject = s.intake.suspInject)
    (hwithdraw : (g s.intake).suspWithdraw = s.intake.suspWithdraw) : (s.onIntake g).whole :=
  hs.keep rfl rfl (fun _ => by rfl) hinject hwithdraw

theorem takeDifference_whole {dv span : Nat} {restored : Bool} (hs : s.whole) :
    (takeDifference dv span restored s).whole := by
  unfold takeDifference
  dsimp only
  repeat' split
  · exact hs
  · exact raise_whole (toSuspense_whole hs)
  · exact raise_whole (toSuspense_whole hs)
  · exact raise_whole (hs.onIntake (by rfl) (by rfl))
  · exact hs.onIntake (by rfl) (by rfl)

theorem takeMeter_whole {p : Sample} (hs : s.whole) : (takeMeter p s).whole := by
  have hbaseline (m : Option Nat) (u : State) (hu : u.whole) : (u.onIntake (fun i =>
      match m with
      | some x => { i with meter := { reading := some x, restoreMark := false }, meterSpan := 0 }
      | none => i)).whole := by
    cases m <;> exact hu.onIntake (by rfl) (by rfl)
  have hreset : (raise .meterReset 0 s.intake.meterSpan (toSuspense s.intake.meterSpan none s)).whole :=
    raise_whole (toSuspense_whole hs)
  unfold takeMeter
  dsimp only
  split
  · exact hbaseline _ _ hs
  · exact hs.onIntake (by rfl) (by rfl)
  · split
    · next reading _ => exact hbaseline (some reading) _ hreset
    · exact hreset.onIntake (by rfl) (by rfl)
  · exact hs
  · exact hbaseline _ _ hs
  · exact hbaseline _ _ (takeDifference_whole hs)

theorem acceptSample_whole {p : Sample} (hs : s.whole) : (acceptSample p s).whole := by
  have hfeedback : (takeFeedback p.feedback (endHold (s.onIntake (·.accept p)))).whole :=
    State.whole.keep (hs.onIntake (g := (·.accept p)) rfl rfl) (by simp) (by simp) (by simp) (by simp) (by simp)
  unfold acceptSample
  dsimp only
  split
  · exact hfeedback
  · exact (takeMeter_whole hfeedback).onIntake (by rfl) (by rfl)

/-! ### The dryer -/

variable {bed : Bed}

/-- An image of one bed's record that leaves its passage list. -/
theorem State.whole.onBed {g : BedRecord → BedRecord} (hs : s.whole) (hg : ∀ r, (g r).passage = r.passage) :
    (s.onDryer (fun d => d.onBed bed g)).whole :=
  hs.keep rfl rfl (fun x => by obtain rfl | rfl := bed_eq_or_other bed x <;> simp [hg]) rfl rfl

/-- An image of the dryer that leaves the beds' records. -/
theorem State.whole.onDryer {g : Dryer → Dryer} (hs : s.whole) (ha : (g s.dryer).bedA = s.dryer.bedA)
    (hb : (g s.dryer).bedB = s.dryer.bedB) : (s.onDryer g).whole :=
  hs.keep rfl rfl (fun x => by cases x <;> simp [Dryer.bed, ha, hb]) rfl rfl

theorem takeBedIn_whole (hs : s.whole) : (takeBedIn s).whole := by
  unfold takeBedIn
  split
  · split
    · exact hs.onBed fun _ => by rfl
    · exact hs
  · exact hs

theorem chargeBed_whole (hs : s.whole) : (chargeBed bed s).whole := by
  unfold chargeBed
  exact bookRegeneration_whole (hs.onBed fun _ => by rfl)

theorem takeBedOut_whole (hs : s.whole) : (takeBedOut bed s).whole := by
  have hout : (s.onDryer (fun d => { d.onBed bed (enterOut s.cfg.dryer.capacity) with
      dewHigh := if (s.dryer.bed bed).state = .adsorbing then false else d.dewHigh })).whole :=
    hs.keep rfl rfl (fun x => by cases bed <;> cases x <;> rfl) rfl rfl
  unfold takeBedOut
  dsimp only
  split
  · exact chargeBed_whole hout
  · exact chargeBed_whole hout
  · exact takeBedIn_whole hout
  · exact hout
  · exact hout

theorem bedFault_whole (hs : s.whole) : (bedFault bed s).whole := takeBedOut_whole (raise_whole hs)

theorem dryerWater_whole {b : Bool} {r : Interval} (hs : s.whole) : (dryerWater b r s).whole := by
  unfold dryerWater
  split
  · split
    · exact hs.onBed fun _ => by rfl
    · exact hs
  · exact hs

theorem dryerFuel_whole {r : Interval} (hs : s.whole) : (dryerFuel r s).whole := by
  unfold dryerFuel
  split
  · exact hs.onBed fun _ => by rfl
  · have hidle := hs.onDryer (g := fun d => { d with idleCarry := (r.heaterWh + s.dryer.idleCarry) % 1000 }) rfl rfl
    dsimp only
    split
    · exact hidle
    · exact bookRegeneration_whole hidle

theorem dryerDew_whole {b : Bool} {r : Interval} (hs : s.whole) : (dryerDew b r s).whole := by
  unfold dryerDew
  dsimp only
  repeat' split
  · exact hs
  · exact hs.onDryer (by rfl) (by rfl)
  · exact hs
  · exact raise_whole (hs.onDryer (by rfl) (by rfl))
  · exact hs

theorem dryerPhase_whole {before : BedState} {r : Interval} (hs : s.whole) : (dryerPhase bed before r s).whole := by
  unfold dryerPhase
  repeat' split
  · exact hs
  · exact hs.onBed fun _ => by rfl
  · exact hs
  · exact takeBedIn_whole (chargeBed_whole (hs.onBed fun _ => by rfl))
  · exact hs
  · exact hs
  · exact hs
  · exact hs

theorem dryerSwitch_whole (hs : s.whole) : (dryerSwitch s).whole := by
  unfold dryerSwitch
  split
  · exact hs
  · next bed _ =>
    split
    · exact State.whole.onDryer ((hs.onBed (bed := bed) (g := enterHeating) fun _ => by rfl).onBed (bed := otherBed bed)
        (g := fun b => { b with state := .adsorbing }) fun _ => by rfl) (g := fun d => { d with dewHigh := false }) rfl rfl
    · exact hs

theorem dryerLimitStep_whole {r : Interval} (hs : s.whole) : (dryerLimitStep r s).whole := by
  unfold dryerLimitStep
  dsimp only
  split
  · exact raise_whole (hs.onDryer (by rfl) (by rfl))
  · exact hs.onDryer (by rfl) (by rfl)

theorem handDryer_whole (hs : s.whole) : (handDryer s).whole :=
  hs.keep (by simp) (by simp) (by simp) (by simp) (by simp)

theorem dryerMinute_whole {r : Interval} (hs : s.whole) : (dryerMinute r s).whole :=
  handDryer_whole (dryerLimitStep_whole (dryerSwitch_whole (dryerPhase_whole (dryerPhase_whole (dryerDew_whole
    (dryerFuel_whole (dryerWater_whole hs)))))))

/-! ### The clock -/

theorem closeInterval_whole (hs : s.whole) : (closeInterval s).2.whole :=
  hs.keep (by simp) (by simp) (by simp) (by simp) (by simp)

theorem meterMinute_whole (hs : s.whole) : (meterMinute s).2.whole :=
  dryerMinute_whole (bookSuspense_whole (bookSuspense_whole (bookInterval_whole
    ((closeInterval_whole hs).keep rfl rfl (fun _ => by rfl) rfl rfl))))

/-- The close of the day moves totals and flags alone in the slots (R7, R8). -/
theorem closeDay_inventories (day : Nat) : (closeDay day s).inventories = s.inventories := by
  unfold closeDay
  simp only [State.inventories, State.onAcct_acct, List.map_map, abandonReports_frame]
  refine List.ext_getElem (by simp) fun i h1 h2 => ?_
  simp at h2
  simp [h2]

theorem State.whole.keepInventories (hs : s.whole) (hinv : t.inventories = s.inventories) (hnom : t.nom = s.nom)
    (hdryer : t.dryer = s.dryer) (hintake : t.intake = s.intake) : t.whole where
  slots := by
    have := congrArg List.length hinv
    simpa [State.inventories, hs.slots] using this
  shippers i := by rw [← inventories_getD, hinv, inventories_getD]; exact hs.shippers i
  confirmed := hnom ▸ hs.confirmed
  passage := hdryer ▸ hs.passage
  snapshot := hintake ▸ hs.snapshot

theorem closeDay_whole {day : Nat} (hs : s.whole) : (closeDay day s).whole :=
  hs.keepInventories (closeDay_inventories day) (by simp) (by simp) (by simp)

theorem nominationHour_whole (hs : s.whole) : (nominationHour s).whole where
  slots := by simpa using hs.slots
  shippers := by simpa [State.inventory] using hs.shippers
  confirmed := by simp [nominationHour, confirmHour]
  passage := by simpa using hs.passage
  snapshot := by simpa using hs.snapshot

/-! ### The train's minute work -/

@[simp] theorem takeBedIn_passage (x : Bed) : ((takeBedIn s).dryer.bed x).passage = (s.dryer.bed x).passage := by
  unfold takeBedIn
  split
  · next bed _ _ =>
    split
    · obtain rfl | rfl := bed_eq_or_other bed x <;> simp
    · rfl
  · rfl

@[simp] theorem reversalMoves_passage (x : Bed) :
    ((reversalMoves s).1.dryer.bed x).passage = (s.dryer.bed x).passage := by
  unfold reversalMoves
  repeat' split
  · rfl
  · simp
  · simp
  · rfl
  · simp
  · rfl
  · rfl

@[simp] theorem entryStep_passage (x : Bed) : ((entryStep s).1.dryer.bed x).passage = (s.dryer.bed x).passage := by
  unfold entryStep
  split
  · rfl
  · split
    · simp
    · rfl

@[simp] theorem trainMinute_passage (r : Interval) (x : Bed) :
    ((trainMinute r s).dryer.bed x).passage = (s.dryer.bed x).passage := by
  simp [trainMinute, modeMinute, directionStep]

/-- A move of the seconds' counts leaves the lists of the books. -/
theorem State.whole.counted (hs : s.whole) (hslots : t.acct.slots = s.acct.slots) (hnom : t.nom = s.nom)
    (hdryer : ∀ bed, (t.dryer.bed bed).passage = (s.dryer.bed bed).passage) (hintake : t.intake = s.intake.tick) :
    t.whole where
  slots := hslots ▸ hs.slots
  shippers i := by rw [State.inventory, hslots]; exact hs.shippers i
  confirmed := hnom ▸ hs.confirmed
  passage bed := hdryer bed ▸ hs.passage bed
  snapshot f r h := by
    have htick (o : Option Suspense) (ho : o.map (fun r => { r with age := r.age + 1 }) = some r)
        (hlen : ∀ x, o = some x → x.snapshot.length = 16) : r.snapshot.length = 16 := by
      obtain ⟨x, hx, rfl⟩ := Option.map_eq_some_iff.mp ho
      exact hlen x hx
    rw [hintake] at h
    cases f with
    | inject => exact htick _ h (hs.snapshot .inject)
    | withdraw => exact htick _ h (hs.snapshot .withdraw)

theorem countAdvanced_whole (hs : s.whole) : (countAdvanced s).whole := by
  refine hs.counted rfl rfl (fun bed => ?_) rfl
  unfold countAdvanced
  dsimp only
  split
  · rfl
  · cases bed <;> rfl

/-- The train's minute work, the reports of the hour and every move of the clock keep what the books hold. -/
theorem keptByClock_whole : KeptByClock State.whole where
  meter _ h := meterMinute_whole h
  close _ _ h := closeDay_whole h
  nominate _ h := nominationHour_whole h
  train r s h := h.keep (by simp) (by simp) (by simp) (by simp) (by simp)
  report s h := h.keep (by simp) (by simp) (by simp) (by simp) (by simp)
  clock _ _ h := h.keep rfl rfl (fun _ => rfl) rfl rfl
  tick s h := h.counted rfl rfl (fun _ => rfl) rfl
  advance s h := countAdvanced_whole h
  stepClock _ _ h := h.keep rfl rfl (fun _ => rfl) rfl rfl
  adopted _ _ _ h := h.keep rfl rfl (fun _ => rfl) rfl rfl
  listen s h := h.keep (by simp) (by simp) (by simp) (by simp) (by simp)
  port _ _ h := h.keep rfl rfl (fun _ => rfl) rfl rfl
  refuse _ _ s h := h.keep (by simp) (by simp) (by simp) (by simp) (by simp)

/-! ### Every command -/

theorem lineReset_whole (hs : s.whole) : (lineReset s).whole where
  slots := by simpa using hs.slots
  shippers := by simpa [State.inventory] using hs.shippers
  confirmed := by simpa using hs.confirmed
  passage := by simpa using hs.passage
  snapshot f r h := by
    have hdue (o : Option Suspense) (ho : o.map Suspense.notDue = some r)
        (hlen : ∀ x, o = some x → x.snapshot.length = 16) : r.snapshot.length = 16 := by
      obtain ⟨x, hx, rfl⟩ := Option.map_eq_some_iff.mp ho
      exact hlen x hx
    have hkeep : (lineReset s).intake.suspInject = s.intake.suspInject.map Suspense.notDue
        ∧ (lineReset s).intake.suspWithdraw = s.intake.suspWithdraw.map Suspense.notDue := by
      simp [lineReset, lineResetBlocks, Intake.lineReset]
    cases f with
    | inject => exact hdue _ (hkeep.1 ▸ h) (hs.snapshot .inject)
    | withdraw => exact hdue _ (hkeep.2 ▸ h) (hs.snapshot .withdraw)

theorem phaseExpiry_whole {p : BedState} {m : Nat} (hs : s.whole) : (phaseExpiry bed p m s).whole := by
  unfold phaseExpiry
  split
  · exact bedFault_whole hs
  · exact hs

theorem answerBedIn_whole {arg : Nat} (hs : s.whole) : (answerBedIn arg s).1.whole := by
  unfold answerBedIn
  split
  · exact hs
  · split
    · exact hs.onBed fun _ => by rfl
    · exact hs

theorem answerBedOut_whole {arg : Nat} (hs : s.whole) : (answerBedOut arg s).1.whole := by
  unfold answerBedOut
  split
  · exact hs
  · next bed _ =>
    dsimp only
    split
    · exact hs
    · have hout : (takeBedOut bed s).whole := takeBedOut_whole hs
      exact hout.keep (by simp) (by simp) (by simp) (by simp) (by simp)

theorem takeOrder_whole {src k arg l : Nat} {answer : State → State × Option OrderOutcome}
    (h : (answer s).1.whole) : (takeOrder src k arg l answer s).whole := by
  rcases takeOrder_cases s src k arg l answer with ho | ⟨o, ho⟩
  · exact ho ▸ h
  · exact ho ▸ h.keep (by simp) (by simp) (by simp) (by simp) (by simp)

theorem answer_whole {answer : State → State × Option OrderOutcome} (hs : s.whole)
    (hslots : (answer s).1.acct.slots = s.acct.slots) (hnom : (answer s).1.nom = s.nom)
    (hdryer : (answer s).1.dryer = s.dryer) (hintake : (answer s).1.intake = s.intake) {src k arg l : Nat} :
    (takeOrder src k arg l answer s).whole :=
  takeOrder_whole (hs.keep hslots hnom (fun _ => by rw [hdryer]) (by rw [hintake]) (by rw [hintake]))

theorem takeNomination_whole {slot day hour : Nat} {rate : Int} (hs : s.whole) :
    (takeNomination slot day hour rate s).whole := by
  unfold takeNomination
  split
  · exact raise_whole hs
  · exact ⟨hs.slots, hs.shippers, hs.confirmed, hs.passage, hs.snapshot⟩

theorem takeSample_whole {r : Option Sample} (hs : s.whole) : (takeSample r s).1.whole := by
  unfold takeSample
  split
  · exact hs.keep rfl rfl (fun _ => rfl) rfl rfl
  · split
    · exact hs
    · exact acceptSample_whole hs

theorem takeRestart_whole {src k arg l : Nat} (hs : s.whole) : (takeRestart src k arg l s).whole := by
  unfold takeRestart
  split
  · exact lineReset_whole hs
  · split
    · exact hs.keep (by simp) (by simp) (by simp) (by simp) (by simp)
    · exact hs.keep (by simp) (by simp) (by simp) (by simp) (by simp)

theorem reset_whole : State.reset.whole := whole_iff.mpr ⟨resetSound.1, resetSound.2.1⟩

theorem work_whole {c : Instr} (hc : ∀ n u l, c ≠ .powerOnReset n u l) (hs : s.whole) : (work c s).whole := by
  cases c with
  | powerOnReset n u l => exact absurd rfl (hc n u l)
  | powerLoss => exact reset_whole.keep rfl rfl (fun _ => rfl) rfl rfl
  | clockSecond => exact keptByClock_whole.takeSecond hs
  | time => exact keptByClock_whole.takeTime _ _ hs
  | noms => exact takeNomination_whole hs
  | lineReset n => exact lineReset_whole (hs.keep rfl rfl (fun _ => rfl) rfl rfl)
  | orderBedOut => exact takeOrder_whole (answerBedOut_whole hs)
  | orderBedIn => exact takeOrder_whole (answerBedIn_whole hs)
  | orderAccept => exact takeOrder_whole (answerSuspense_whole hs)
  | orderCorrect => exact takeOrder_whole (answerSuspense_whole hs)
  | heatMaximum => exact phaseExpiry_whole hs
  | coolMaximum => exact phaseExpiry_whole hs
  | suspenseOld => exact suspenseOldTest_whole hs
  | sample => exact takeSample_whole hs
  | orderRestart => exact takeRestart_whole hs
  | orderShut => exact answer_whole (answer := answerShut) hs (by simp) (by simp) (by simp) (by simp)
  | orderRelease => exact answer_whole (answer := answerRelease) hs (by simp) (by simp) (by simp) (by simp)
  | orderUnlock => exact answer_whole (answer := answerUnlock) hs (by simp) (by simp) (by simp) (by simp)
  | orderClear => exact answer_whole (answer := answerClear) hs (by simp) (by simp) (by simp) (by simp)
  | orderUnknownCommand => exact answer_whole (answer := fun s => (s, some .refusedArg)) hs rfl rfl rfl rfl
  | _ => exact hs.keep (by simp [work]) (by simp [work]) (by simp [work]) (by simp [work]) (by simp [work])

theorem keptByEnds_whole : KeptByEnds State.whole where
  receiveError _ h := h.keep rfl rfl (fun _ => rfl) rfl rfl
  discard _ h := h.keep rfl rfl (fun _ => rfl) rfl rfl
  failed _ h := h.keep rfl rfl (fun _ => rfl) rfl rfl
  duplicate _ _ h := h.keep (by simp) (by simp) (by simp) (by simp) (by simp)
  hand _ h := h.keep (by simp) (by simp) (by simp) (by simp) (by simp)
  settle _ h := h.keep (by simp) (by simp) (by simp) (by simp) (by simp)
  request _ h := h.keep (by simp) (by simp) (by simp) (by simp) (by simp)
  restart _ h := lineReset_whole h

/-- Settles O56: a withdrawal's share stays within the inventory by the caps, a charge by the shortfall, and a loss of
power leaves the reset values. -/
theorem shippersStayWhole : Obligations.ShippersStayWhole := by
  intro s t hfront hsized hsound h
  refine whole_iff.mp (keptByEnds_whole.step (s := s) (t := t) (fun _ _ hp => hp.keep rfl rfl (fun _ => rfl) rfl rfl)
    (fun c rest hc hp => work_whole (fun n u l he => ?_) hp) (whole_iff.mpr ⟨hsized, hsound⟩) h)
  exact hfront n u l (by simp [hc, he])

end Sys2Proof.Machine
end

section
/-! PROOFS. The law of the pending lists (R14 to R16): hours by their distance from the current one, how the standing time
moves them, and every command. -/

namespace Sys2Proof.Machine

open Sys2Proof (Instr)

/-! ### Hours and the standing time -/

variable {h k e : Nat}

/-- What every number of hours has in common that the model wraps. -/
theorem hourDistance_eq (h e : Nat) : hourDistance h e
    = if 2 * (((e : Int) - h) % 1572864) ≥ 1572864 then ((e : Int) - h) % 1572864 - 1572864
      else ((e : Int) - h) % 1572864 := rfl

theorem secondDifference_eq (a b : Nat) : secondDifference a b
    = if 2 * (((b : Int) - a) % 5662310400) ≥ 5662310400 then ((b : Int) - a) % 5662310400 - 5662310400
      else ((b : Int) - a) % 5662310400 := rfl

theorem secondDifference_lt (a b : Nat) : secondDifference a b < 2831155200 := by
  rw [secondDifference_eq]
  split <;> omega

/-- An hour ahead, seen from k hours on, is k hours nearer, when k is at most half the span. -/
theorem hourDistance_later (hpos : 0 < hourDistance h e) (hk : k ≤ 786432) :
    hourDistance ((h + k) % hourSpan) e = hourDistance h e - k := by
  simp only [hourSpan] at *
  rw [hourDistance_eq h e] at hpos ⊢
  rw [hourDistance_eq]
  push_cast
  split at hpos <;> split <;> omega

/-- Two hours at one distance are one hour. -/
theorem hourDistance_inj {e' : Nat} (he : e < hourSpan) (he' : e' < hourSpan) (heq : hourDistance h e = hourDistance h e') :
    e = e' := by
  simp only [hourSpan] at *
  rw [hourDistance_eq, hourDistance_eq] at heq
  split at heq <;> split at heq <;> omega

theorem hourIndex_lt (day hour : Nat) : hourIndex day hour < hourSpan := Nat.mod_lt _ (by decide)

theorem Clock.hourIndex_lt (c : Clock) : c.hourIndex < hourSpan := Machine.hourIndex_lt _ _

/-- The current hour is the standing time's index in hours. -/
theorem Clock.hourIndex_eq {c : Clock} (hday : c.day < 65536) (hsecond : c.second < 86400) :
    c.hourIndex = c.index / 3600 := by
  simp only [Clock.hourIndex, Machine.hourIndex, Clock.hour, Clock.index, hourSpan]
  omega

theorem Clock.index_lt {c : Clock} (hday : c.day < 65536) (hsecond : c.second < 86400) : c.index < secondSpan := by
  simp only [Clock.index, secondSpan]
  omega

theorem Clock.setIndex_range (c : Clock) (i : Nat) : (c.setIndex i).day < 65536 ∧ (c.setIndex i).second < 86400 :=
  ⟨Nat.mod_lt _ (by decide), Nat.mod_lt _ (by decide)⟩

theorem Clock.setIndex_index (c : Clock) {i : Nat} (hi : i < secondSpan) : (c.setIndex i).index = i := by
  simp only [Clock.index, Clock.setIndex, secondSpan] at *
  omega

/-- A forward step of d seconds takes the current hour on by the whole hours it reaches. -/
theorem hourIndex_setIndex_forward {c : Clock} (hday : c.day < 65536) (hsecond : c.second < 86400) (d : Nat) :
    (c.setIndex (moveIndex c.index d)).hourIndex = (c.hourIndex + (c.second % 3600 + d) / 3600) % hourSpan := by
  have hmove : moveIndex c.index d = (c.index + d) % secondSpan := by
    simp only [moveIndex, secondSpan]
    omega
  have hlt : moveIndex c.index d < secondSpan := hmove ▸ Nat.mod_lt _ (by decide)
  have hrange := c.setIndex_range (moveIndex c.index d)
  rw [Clock.hourIndex_eq hrange.1 hrange.2, Clock.setIndex_index c hlt, Clock.hourIndex_eq hday hsecond, hmove]
  simp only [Clock.index, secondSpan, hourSpan]
  omega

/-- A backward step within the minute leaves the current hour. -/
theorem hourIndex_setIndex_backward {c : Clock} (hday : c.day < 65536) (hsecond : c.second < 86400) {d : Int}
    (hneg : d < 0) (hminute : -d ≤ (c.second % 60 : Nat)) :
    (c.setIndex (moveIndex c.index d)).hourIndex = c.hourIndex := by
  have hmove : moveIndex c.index d = c.index - d.natAbs := by
    simp only [moveIndex, secondSpan, Clock.index]
    omega
  have hlt : moveIndex c.index d < secondSpan := by
    have := Clock.index_lt hday hsecond
    omega
  have hrange := c.setIndex_range (moveIndex c.index d)
  rw [Clock.hourIndex_eq hrange.1 hrange.2, Clock.setIndex_index c hlt, Clock.hourIndex_eq hday hsecond, hmove]
  simp only [Clock.index]
  omega

theorem Clock.advance_range {c : Clock} (hday : c.day < 65536) (hsecond : c.second < 86400) :
    c.advance.day < 65536 ∧ c.advance.second < 86400 := by
  unfold Clock.advance
  split
  · exact ⟨Nat.mod_lt _ (by decide), by dsimp only; decide⟩
  · exact ⟨hday, by dsimp only; omega⟩

/-- A second on: the current hour is the next one when it ends the hour. -/
theorem Clock.hourIndex_advance {c : Clock} (hday : c.day < 65536) (hsecond : c.second < 86400) : c.advance.hourIndex
    = (c.hourIndex + if c.advance.second % 3600 = 0 then 1 else 0) % hourSpan := by
  have hrange := Clock.advance_range hday hsecond
  rw [Clock.hourIndex_eq hrange.1 hrange.2, Clock.hourIndex_eq hday hsecond]
  unfold Clock.advance at *
  simp only [Clock.index, hourSpan]
  split <;> dsimp only <;> split <;> omega

/-! ### One slot's pending list -/

/-- The law of one slot's pending list at the current hour `now`. -/
abbrev Nominee.lawful (now : Nat) (n : Nominee) : Prop :=
  n.pending.length ≤ 4 ∧ n.pending.Pairwise (fun x y => hourDistance now x.1 < hourDistance now y.1)
    ∧ ∀ e ∈ n.pending, e.1 < hourSpan ∧ 0 < hourDistance now e.1

/-- Bringing into effect leaves the entries ahead of the new current hour, in their order (R16). -/
theorem bringDue_lawful {n : Nominee} (hk : k ≤ 786432) (hn : n.lawful h) :
    (bringDue ((h + k) % hourSpan) n).lawful ((h + k) % hourSpan) := by
  obtain ⟨hlen, hsorted, hahead⟩ := hn
  have hdist (e : Nat × Int) (he : e ∈ n.pending) :=
    hourDistance_later (hahead e he).2 hk
  have hsorted' : n.pending.Pairwise (fun x y =>
      hourDistance ((h + k) % hourSpan) x.1 < hourDistance ((h + k) % hourSpan) y.1) :=
    hsorted.imp_of_mem fun hx hy hlt => by rw [hdist _ hx, hdist _ hy]; omega
  unfold bringDue
  split
  · next hnone =>
    refine ⟨hlen, hsorted', fun e he => ⟨(hahead e he).1, ?_⟩⟩
    have hempty := List.getLast?_eq_none_iff.mp hnone
    by_contra hle
    exact (List.filter_eq_nil_iff.mp hempty) e he (by simpa using hle)
  · refine ⟨(List.length_filter_le _ _).trans hlen, hsorted'.filter _, fun e he => ?_⟩
    obtain ⟨hmem, hpos⟩ := List.mem_filter.mp he
    exact ⟨(hahead e hmem).1, by simpa using hpos⟩

theorem mem_insertByHour {now : Nat} {e x : Nat × Int} {l : List (Nat × Int)} :
    x ∈ insertByHour now e l ↔ x = e ∨ x ∈ l := by
  induction l with
  | nil => simp [insertByHour]
  | cons y l ih =>
    unfold insertByHour
    split
    · simp
    · simp only [List.mem_cons, ih]
      tauto

theorem insertByHour_length {now : Nat} {e : Nat × Int} {l : List (Nat × Int)} :
    (insertByHour now e l).length = l.length + 1 := by
  induction l with
  | nil => rfl
  | cons y l ih =>
    unfold insertByHour
    split
    · rfl
    · simp [ih]

/-- A new entry stands where its hour puts it (R15). -/
theorem insertByHour_sorted {now : Nat} {e : Nat × Int} {l : List (Nat × Int)}
    (hsorted : l.Pairwise (fun x y => hourDistance now x.1 < hourDistance now y.1))
    (hne : ∀ x ∈ l, hourDistance now x.1 ≠ hourDistance now e.1) :
    (insertByHour now e l).Pairwise (fun x y => hourDistance now x.1 < hourDistance now y.1) := by
  induction l with
  | nil => simp [insertByHour]
  | cons x l ih =>
    obtain ⟨hx, hl⟩ := List.pairwise_cons.mp hsorted
    unfold insertByHour
    split
    · next hlt =>
      refine List.pairwise_cons.mpr ⟨fun y hy => ?_, hsorted⟩
      obtain rfl | hy := List.mem_cons.mp hy
      · exact hlt
      · exact hlt.trans (hx y hy)
    · next hge =>
      refine List.pairwise_cons.mpr ⟨fun y hy => ?_, ih hl fun y hy => hne y (List.mem_cons_of_mem x hy)⟩
      obtain rfl | hy := mem_insertByHour.mp hy
      · have := hne x List.mem_cons_self
        omega
      · exact hx y hy

theorem enterNomination_lawful {now : Nat} {e : Nat × Int} {n : Nominee} (hn : n.lawful now) (he : e.1 < hourSpan)
    (hahead : 0 < hourDistance now e.1)
    (hroom : ¬ (4 ≤ n.pending.length ∧ n.pending.any (fun x => x.1 == e.1) = false)) :
    Nominee.lawful now { n with pending := enterNomination now e n.pending } := by
  obtain ⟨hlen, hsorted, hlaw⟩ := hn
  unfold enterNomination
  split
  · have hkey (x : Nat × Int) : (if x.1 = e.1 then e else x).1 = x.1 := by split <;> simp [*]
    refine ⟨by simpa using hlen, List.pairwise_map.mpr (by simpa only [hkey] using hsorted), fun y hy => ?_⟩
    obtain ⟨x, hx, rfl⟩ := List.mem_map.mp hy
    rw [hkey]
    exact hlaw x hx
  · next hnew =>
    have hne (x : Nat × Int) (hx : x ∈ n.pending) : x.1 ≠ e.1 := fun heq =>
      hnew (List.any_eq_true.mpr ⟨x, hx, by simpa using heq⟩)
    refine ⟨?_, insertByHour_sorted hsorted fun x hx heq => hne x hx (hourDistance_inj (hlaw x hx).1 he heq),
      fun y hy => ?_⟩
    · rw [insertByHour_length]
      have hnot := Bool.not_eq_true _ ▸ hnew
      by_contra hgt
      exact hroom ⟨by omega, hnot⟩
    · obtain rfl | hy := mem_insertByHour.mp hy
      · exact ⟨he, hahead⟩
      · exact hlaw y hy

/-! ### The law of the whole part -/

variable {s t : State}

/-- A synchronized clock and the law of the pending lists. -/
structure State.punctual (s : State) : Prop where
  synced : s.clock.synced = true
  day : s.clock.day < 65536
  second : s.clock.second < 86400
  lead : ∀ m, s.port.image = some m → 1 ≤ m.leadTime
  lists : ∀ n ∈ s.nom.shippers, n.lawful s.clock.hourIndex

theorem punctual_iff : s.punctual ↔ s.clock.synced = true ∧ s.pendingsSound :=
  ⟨fun h => ⟨h.synced, h.day, h.second, h.lead, h.lists⟩, fun ⟨h, hd, hs, hl, hn⟩ => ⟨h, hd, hs, hl, hn⟩⟩

/-- What keeps the standing time, the image and the nominations keeps the law. -/
theorem State.punctual.keep (h : s.punctual) (hsynced : t.clock.synced = s.clock.synced)
    (hday : t.clock.day = s.clock.day) (hsecond : t.clock.second = s.clock.second)
    (himage : t.port.image = s.port.image) (hlists : t.nom.shippers = s.nom.shippers) : t.punctual where
  synced := hsynced.trans h.synced
  day := hday ▸ h.day
  second := hsecond ▸ h.second
  lead := himage ▸ h.lead
  lists := by
    simp only [Clock.hourIndex, Clock.hour, hday, hsecond, hlists]
    exact h.lists

/-- What a boundary instant makes of the pending lists (R16). -/
theorem boundary_shippers (hour : Bool) (d : Option Nat) : (boundary hour d s).nom.shippers
    = if hour then s.nom.shippers.map (bringDue s.clock.hourIndex) else s.nom.shippers := by
  unfold boundary
  cases hour <;> cases d <;> dsimp only <;> split <;> simp [nominationHour, bringIntoEffect, confirmHour]

/-- The standing time moved on by whole hours `k`, the lists brought into effect when it reaches one (R16, R136, R140). -/
theorem punctual_of_moved (h : s.punctual) (hsynced : t.clock.synced = true) (hday : t.clock.day < 65536)
    (hsecond : t.clock.second < 86400) (himage : t.port.image = s.port.image) (hk : k ≤ 786432)
    (hhour : t.clock.hourIndex = (s.clock.hourIndex + k) % hourSpan)
    (hlists : t.nom.shippers = s.nom.shippers.map (bringDue t.clock.hourIndex) ∨ k = 0 ∧ t.nom.shippers = s.nom.shippers) :
    t.punctual where
  synced := hsynced
  day := hday
  second := hsecond
  lead := himage ▸ h.lead
  lists n hn := by
    obtain hlists | ⟨rfl, hlists⟩ := hlists
    · rw [hlists, List.mem_map] at hn
      obtain ⟨n, hn, rfl⟩ := hn
      rw [hhour]
      exact bringDue_lawful hk (h.lists n hn)
    · rw [hlists] at hn
      rw [hhour, Nat.add_zero, Nat.mod_eq_of_lt s.clock.hourIndex_lt]
      exact h.lists n hn

theorem takeSecond_punctual (h : s.punctual) : (takeSecond s).punctual := by
  unfold takeSecond
  split
  · exact h.keep rfl rfl rfl rfl rfl
  · have hrange := Clock.advance_range h.day h.second
    have hsynced : s.clock.advance.synced = true := by
      unfold Clock.advance
      split <;> exact h.synced
    have hhour := Clock.hourIndex_advance h.day h.second
    have hmoved (t : State) (hclock : t.clock = s.clock.advance) (himage : t.port.image = s.port.image)
        (hlists : t.nom.shippers = if s.clock.advance.second % 3600 = 0
          then s.nom.shippers.map (bringDue s.clock.advance.hourIndex) else s.nom.shippers) : t.punctual := by
      refine punctual_of_moved h (hclock ▸ hsynced) (hclock ▸ hrange.1) (hclock ▸ hrange.2) himage
        (k := if s.clock.advance.second % 3600 = 0 then 1 else 0) (by split <;> omega) (hclock ▸ hhour) ?_
      rw [hclock]
      split at hlists
      · exact .inl hlists
      · next hno => exact .inr ⟨if_neg hno, hlists⟩
    unfold raiseAdvance
    split
    · refine hmoved _ (by simp) (by simp) ?_
      rw [boundary_shippers]
      simp
    · next hno =>
      refine hmoved _ (by simp) (by simp) ?_
      have : ¬ s.clock.advance.second % 60 = 0 := fun hzero => hno ⟨by simpa using hsynced, by simpa using hzero⟩
      rw [if_neg (by omega)]
      simp

@[simp] theorem stepClock_clock (d : Int) :
    (stepClock d s).clock = s.clock.setIndex (moveIndex s.clock.index d) := rfl

theorem raiseStep_clock (second day : Nat) (d : Int) : (raiseStep second day d s).clock = s.clock := by simp

/-- A step of the standing time, forward below half the span or backward within the minute (R138, R140). -/
theorem applyDifference_punctual (h : s.punctual) {d : Int} (hd : d < 2831155200) : (applyDifference d s).punctual := by
  have hsecond := h.second
  have hrange (i : Nat) := s.clock.setIndex_range i
  unfold applyDifference
  dsimp only
  split
  · next hpos =>
    obtain ⟨n, rfl⟩ := Int.eq_ofNat_of_zero_le hpos
    have hhour := hourIndex_setIndex_forward h.day h.second n
    split
    · refine punctual_of_moved h (k := (s.clock.second % 3600 + n) / 3600) ?_ ?_ ?_ (by simp) (by omega) ?_ ?_
      · rw [raiseStep_clock]; exact h.synced
      · simpa using (hrange _).1
      · simpa using (hrange _).2
      · rw [raiseStep_clock]; exact hhour
      rw [raiseStep, boundary_shippers]
      split
      · exact .inl (by simp)
      · next hno =>
        refine .inr ⟨?_, by simp⟩
        simp only [decide_eq_true_eq] at hno
        omega
    · refine punctual_of_moved h h.synced (hrange _).1 (hrange _).2 rfl (k := (s.clock.second % 3600 + n) / 3600)
        (by omega) hhour (.inr ⟨by omega, rfl⟩)
  · split
    · next hneg hminute =>
      have hhour := hourIndex_setIndex_backward h.day h.second (by omega) hminute
      exact punctual_of_moved h h.synced (hrange _).1 (hrange _).2 rfl (k := 0) (by omega)
        (by rw [Nat.add_zero, Nat.mod_eq_of_lt s.clock.hourIndex_lt]; exact hhour) (.inr ⟨rfl, rfl⟩)
    · exact h.keep rfl rfl rfl rfl rfl

theorem largeStep_punctual (h : s.punctual) {d : Int} (hd : d < 2831155200) : (largeStep d s).punctual := by
  have hrefuse (r : Nat × Int) : (refuseStep d r s).punctual :=
    h.keep (by simp) (by simp) (by simp) (by simp) (by simp)
  unfold largeStep
  repeat' split
  · exact hrefuse _
  · exact hrefuse _
  · exact applyDifference_punctual h hd
  · exact hrefuse _

theorem takeTime_punctual (h : s.punctual) (day second : Nat) : (takeTime day second s).punctual := by
  have hd := secondDifference_lt s.clock.index (day * 86400 + second)
  unfold takeTime
  dsimp only
  repeat' split
  · exact h
  · next hno => simp [h.synced] at hno
  · exact applyDifference_punctual h hd
  · exact largeStep_punctual h hd

/-! ### Every command -/

theorem replicate_getD {α : Type} (n i : Nat) (x : α) : (List.replicate n x).getD i x = x := by
  rw [List.getD_eq_getElem?_getD, List.getElem?_replicate]
  split <;> rfl

theorem configured_image {slot : Nat} (h : s.cfg.configured slot = true) : ∃ m, s.port.image = some m := by
  cases himage : s.port.image with
  | none =>
    have hcfg : s.cfg = {} := by rw [State.cfg, himage]; rfl
    have hspace : (({} : Image).shipper slot).space = 0 := congrArg _ (replicate_getD 16 (slot - 1) _)
    rw [hcfg, Image.configured, hspace] at h
    simp at h
  | some m => exact ⟨m, rfl⟩

/-- What the checks of R14 leave of a NOMS that passes them. -/
theorem nomReason_none {slot day hour : Nat} {rate : Int} (h : nomReason s slot day hour rate = none) :
    s.cfg.configured slot = true ∧ (s.cfg.leadTime : Int) ≤ hourDistance s.clock.hourIndex (hourIndex day hour)
      ∧ ¬ (4 ≤ (s.nom.nominee slot).pending.length
        ∧ (s.nom.nominee slot).pending.any (fun e => e.1 == hourIndex day hour) = false) := by
  unfold nomReason at h
  dsimp only at h
  repeat' split at h
  all_goals cases h
  next hconf _ hlead _ hroom => exact ⟨by simpa using hconf, by omega, hroom⟩

theorem forall_mem_updateAt {α : Type} {p : α → Prop} {f : α → α} {l : List α} {i : Nat} (d : α) (hl : ∀ x ∈ l, p x)
    (hf : i < l.length → p (f (l.getD i d))) : ∀ x ∈ updateAt i f l, p x := by
  intro x hx
  obtain ⟨j, hj, rfl⟩ := List.getElem_of_mem hx
  rw [← List.getD_eq_getElem _ d]
  rw [updateAt_length] at hj
  by_cases hij : i = j
  · subst hij
    rw [updateAt_getD_self _ _ _ _ hj]
    exact hf hj
  · rw [updateAt_getD_of_ne _ _ _ _ _ hij, List.getD_eq_getElem _ _ hj]
    exact hl _ (List.getElem_mem hj)

theorem takeNomination_punctual {slot day hour : Nat} {rate : Int} (h : s.punctual) :
    (takeNomination slot day hour rate s).punctual := by
  unfold takeNomination
  split
  · exact h.keep (by simp) (by simp) (by simp) (by simp) (by simp)
  · next hnone =>
    obtain ⟨hconf, hlead, hroom⟩ := nomReason_none hnone
    obtain ⟨m, hm⟩ := configured_image hconf
    have hone : 1 ≤ s.cfg.leadTime := by
      rw [State.cfg, hm]
      exact h.lead m hm
    refine ⟨h.synced, h.day, h.second, h.lead, forall_mem_updateAt {} h.lists fun hi => ?_⟩
    have hmem : s.nom.shippers.getD (slot - 1) {} ∈ s.nom.shippers := by
      rw [List.getD_eq_getElem _ _ hi]
      exact List.getElem_mem _
    have hahead : 0 < hourDistance s.clock.hourIndex (hourIndex day hour) := by omega
    exact enterNomination_lawful (h.lists _ hmem) (hourIndex_lt day hour) hahead hroom

theorem lineReset_punctual (h : s.punctual) : (lineReset s).punctual :=
  h.keep (by simp) (by simp) (by simp) (by simp) (by simp)

theorem takeOrder_punctual {src k arg l : Nat} {answer : State → State × Option OrderOutcome}
    (h : (answer s).1.punctual) : (takeOrder src k arg l answer s).punctual := by
  rcases takeOrder_cases s src k arg l answer with ho | ⟨o, ho⟩
  · exact ho ▸ h
  · exact ho ▸ h.keep (by simp) (by simp) (by simp) (by simp) (by simp)

theorem answer_punctual {answer : State → State × Option OrderOutcome} (h : s.punctual)
    (hclock : (answer s).1.clock = s.clock) (hport : (answer s).1.port = s.port) (hnom : (answer s).1.nom = s.nom)
    {src k arg l : Nat} : (takeOrder src k arg l answer s).punctual :=
  takeOrder_punctual (h.keep (by rw [hclock]) (by rw [hclock]) (by rw [hclock]) (by rw [hport]) (by rw [hnom]))

theorem work_punctual {c : Instr} (hon : ∀ n u l, c ≠ .powerOnReset n u l) (hoff : c ≠ .powerLoss) (h : s.punctual) :
    (work c s).punctual := by
  cases c with
  | powerOnReset n u l => exact absurd rfl (hon n u l)
  | powerLoss => exact absurd rfl hoff
  | clockSecond => exact takeSecond_punctual h
  | time => exact takeTime_punctual h _ _
  | noms => exact takeNomination_punctual h
  | lineReset => exact lineReset_punctual (h.keep rfl rfl rfl rfl rfl)
  | orderShut => exact answer_punctual (answer := answerShut) h (by simp) (by simp) (by simp)
  | orderRelease => exact answer_punctual (answer := answerRelease) h (by simp) (by simp) (by simp)
  | orderUnlock => exact answer_punctual (answer := answerUnlock) h (by simp) (by simp) (by simp)
  | orderBedOut _ _ arg => exact answer_punctual (answer := answerBedOut arg) h (by simp) (by simp) (by simp)
  | orderBedIn _ _ arg => exact answer_punctual (answer := answerBedIn arg) h (by simp) (by simp) (by simp)
  | orderAccept src _ arg l =>
    exact answer_punctual (answer := answerSuspense true src 6 arg l) h (by simp) (by simp) (by simp)
  | orderCorrect src _ arg l =>
    exact answer_punctual (answer := answerSuspense false src 7 arg l) h (by simp) (by simp) (by simp)
  | orderClear => exact answer_punctual (answer := answerClear) h (by simp) (by simp) (by simp)
  | orderUnknownCommand => exact answer_punctual (answer := fun s => (s, some .refusedArg)) h rfl rfl rfl
  | _ => exact h.keep (by simp [work]) (by simp [work]) (by simp [work]) (by simp [work]) (by simp [work])

theorem keptByEnds_punctual : KeptByEnds State.punctual where
  receiveError _ h := h.keep rfl rfl rfl rfl rfl
  discard _ h := h.keep rfl rfl rfl rfl rfl
  failed _ h := h.keep rfl rfl rfl rfl rfl
  duplicate _ _ h := h.keep (by simp) (by simp) (by simp) (by simp) (by simp)
  hand _ h := h.keep (by simp) (by simp) (by simp) (by simp) (by simp)
  settle _ h := h.keep (by simp) (by simp) (by simp) (by simp) (by simp)
  request _ h := h.keep (by simp) (by simp) (by simp) (by simp) (by simp)
  restart _ h := lineReset_punctual h

/-- A loss of power leaves no pending entry, and no image. -/
theorem powerLoss_pendings (h : exec .powerLoss s = .next t) (hs : s.pendingsSound) : t.pendingsSound := by
  injection h with h
  split at h
  · obtain ⟨-, -, -, -, -, -, -, -, -, -, hreset⟩ := resetSound
    exact h ▸ hreset
  · exact h ▸ hs

/-- Settles O19: a nomination enters at least the lead time ahead, the standing time moves back within its minute alone,
and every hour it reaches brings the entries due into effect. -/
theorem pendingsStaySound : Obligations.PendingsStaySound := by
  intro s t hfront hsynced hsound h
  have hs := punctual_iff.mpr ⟨hsynced, hsound⟩
  by_cases hloss : s.pending.head? = some .powerLoss
  · refine ⟨?_, fun hno => absurd hloss hno⟩
    obtain ⟨rest, hrest⟩ : ∃ rest, s.pending = .powerLoss :: rest := by
      cases hp : s.pending with
      | nil => simp [hp] at hloss
      | cons c rest => simp [hp] at hloss; exact ⟨rest, by rw [hloss]⟩
    unfold step at h
    rw [hrest] at h
    exact powerLoss_pendings (s := { s with pending := rest }) h hsound
  · have ht := punctual_iff.mp (keptByEnds_punctual.step (s := s) (t := t)
      (fun _ _ hp => hp.keep rfl rfl rfl rfl rfl) (fun c rest hc hp => work_punctual
        (fun n u l he => hfront n u l (by simp [hc, he])) (fun he => hloss (by simp [hc, he])) hp) hs h)
    exact ⟨ht.2, fun _ => ht.1⟩

end Sys2Proof.Machine
end

section
/-! PROOFS. How a command that is taken comes out, as an equation; and with it the seconds and the TIME telegrams: the
hold-back, the advance, the small and the large steps, and the adoption (R135 to R141, R167). -/

namespace Sys2Proof.Machine

open Sys2Proof (Instr)

variable {s : State} {src dst : Nat}

/-! ### Commands that are taken -/

theorem plain_exec (h : s.powered = true) (f : State → State) : whilePowered f s = .next (f s) := by
  simp [whilePowered, h]

/-- An event of a steady part that ends with the handing of the SETPOINT fields. -/
theorem finished_exec (h : s.powered = true) (f : State → State) (hf : (f s).link.restartPending = false) :
    whilePowered (fun s => finish (f s)) s = .next (handAll (f s)) := by
  rw [plain_exec h, finish_eq_handAll _ hf]

/-- A telegram that a part hears, of a source it recognises. -/
theorem heard_next (h : s.hears src dst) (kind : Nat) (recognised : State → Bool) (take : State → State)
    (hr : recognised s = true) (hf : (take s).link.restartPending = false) :
    received src dst kind recognised take s = .next (handAll (take s)) := by
  rw [heard_exec h kind recognised take hr, finish_eq_handAll _ hf]

@[simp] theorem Intake.handing_of_handing (i j k : Intake) : i.handing (j.handing k) = i.handing k := rfl

theorem handAll_comp (s : State) : (handAll s).comp = s.comp := by simp

theorem handAll_mon (s : State) : (handAll s).mon = s.mon := by simp

theorem handAll_train (s : State) : (handAll s).train = s.train := by simp

/-- A part that answers a TIME of its time source. -/
theorem time_exec (h : s.hears src dst) (hsrc : src = s.cfg.timeSource) (day second : Nat) :
    exec (.time src dst day second) s = .next (handAll (takeTime day second s)) :=
  heard_next h 1 _ (takeTime day second) (by simp [hsrc]) (by simpa using h.1.1.2)

theorem clockSecond_exec (h : s.steady) (hf : (takeSecond s).link.restartPending = false) :
    exec .clockSecond s = .next (handAll (takeSecond s)) := finished_exec h.1 takeSecond hf

/-! ### A second of the time base -/

theorem takeSecond_of_hold (h : 0 < s.clock.holdBack) : takeSecond s
    = { s with clock := { s.clock with holdBack := s.clock.holdBack - 1 }, intake := s.intake.tick } := if_pos h

/-- The counts of an advanced second are those of `State.afterSecond`. -/
theorem countAdvanced_advance : countAdvanced (s.onClock Clock.advance) = s.afterSecond := by
  have hcomp : s.comp.tick (decide (s.train.demand = 0)) = s.afterSecond.comp := by
    by_cases h : s.train.demand = 0 <;> simp [Compressor.tick, State.afterSecond, h]
  have hpeers : (countAdvanced (s.onClock Clock.advance)).peers = s.afterSecond.peers := by
    by_cases h : s.peers.startQueue = [] <;> simp [countAdvanced, State.afterSecond, h]
  exact State.eq_of_blocks rfl rfl rfl rfl rfl rfl hpeers rfl hcomp rfl rfl rfl rfl rfl rfl rfl rfl

theorem takeSecond_of_no_hold (h : s.clock.holdBack = 0) : takeSecond s = raiseAdvance s.clock.day s.afterSecond := by
  rw [takeSecond, if_neg (by omega), countAdvanced_advance]

theorem afterSecond_clock : s.afterSecond.clock = { s.clock with
    second := if s.clock.second = 86399 then 0 else s.clock.second + 1
    day := if s.clock.second = 86399 then (s.clock.day + 1) % 65536 else s.clock.day } := by
  unfold State.afterSecond
  dsimp only
  split <;> rfl

@[simp] theorem afterSecond_synced : s.afterSecond.clock.synced = s.clock.synced := by rw [afterSecond_clock]

/-- The second that an advance reaches is a multiple of a part of the day exactly when the one before ended that part. -/
theorem afterSecond_second_mod {n : Nat} (hn : 86400 % n = 0) :
    s.afterSecond.clock.second % n = 0 ↔ (s.clock.second + 1) % n = 0 := by
  rw [afterSecond_clock]
  dsimp only
  split
  · next h => rw [h, hn, Nat.zero_mod]
  · rfl

theorem raiseAdvance_of_no_boundary (h : s.clock.synced = false ∨ (s.clock.second + 1) % 60 ≠ 0) (day : Nat) :
    raiseAdvance day s.afterSecond = s.afterSecond := by
  refine if_neg fun hb => ?_
  rw [afterSecond_synced, afterSecond_second_mod (by decide)] at hb
  obtain h | h := h
  · rw [h] at hb; exact absurd hb.1 (by decide)
  · exact h hb.2

theorem raiseAdvance_of_boundary (hsynced : s.clock.synced = true) (h : (s.clock.second + 1) % 60 = 0) (day : Nat) :
    raiseAdvance day s.afterSecond = instantWork (decide ((s.clock.second + 1) % 3600 = 0))
      (if s.clock.second = 86399 then some day else none) s.afterSecond := by
  have hzero : s.afterSecond.clock.second = 0 ↔ s.clock.second = 86399 := by
    rw [afterSecond_clock]
    dsimp only
    split <;> omega
  rw [raiseAdvance, if_pos, boundary_eq_instantWork]
  · simp only [afterSecond_second_mod (s := s) (n := 3600) (by decide), hzero]
  · rw [afterSecond_synced, afterSecond_second_mod (by decide)]
    exact ⟨hsynced, h⟩

/-- Settles O12: the hold-back takes the second, or the advance does. -/
theorem holdBack : Obligations.HoldBack := by
  refine ⟨fun s hs hhold => ?absorbed, fun s hs hhold => ⟨?runOut, ?advanced⟩⟩
  case absorbed =>
    have hexec := clockSecond_exec hs (by rw [takeSecond_of_hold hhold]; exact hs.2)
    rw [takeSecond_of_hold hhold] at hexec
    refine ⟨_, hexec, handAll_eq_handing _, ?_⟩
    simp [Intake.tick, Option.map_map, Function.comp_def]
  case runOut => exact plain_exec hs.1 id
  case advanced =>
    refine ⟨_, clockSecond_exec hs (by simpa using hs.2), ?_⟩
    rw [takeSecond_of_no_hold hhold, ← afterSecond_clock]
    simp

/-! ### TIME telegrams -/

/-- Moving an index by its difference to another gives that one (R134). -/
theorem moveIndex_secondDifference (a : Nat) {b : Nat} (hb : b < 5662310400) :
    moveIndex a (secondDifference a b) = b := by
  rw [secondDifference_eq, moveIndex]
  simp only [secondSpan]
  split <;> omega

theorem Clock.setIndex_received (c : Clock) {day second : Nat} (hday : day < 65536) (hsecond : second ≤ 86399) :
    c.setIndex (moveIndex c.index (secondDifference c.index (day * 86400 + second)))
      = { c with day := day, second := second } := by
  have h1 : (day * 86400 + second) / 86400 % 65536 = day := by omega
  have h2 : (day * 86400 + second) % 86400 = second := by omega
  rw [moveIndex_secondDifference _ (by omega), Clock.setIndex, h1, h2]

/-- A step of the clock to a received time, before any boundary (R138, R140). -/
theorem stepClock_received {day second : Nat} (hsynced : s.clock.synced = true) (hday : day < 65536)
    (hsecond : second ≤ 86399) : (stepClock (secondDifference s.clock.index (day * 86400 + second)) s).onClock
      (fun c => { c with holdBack := 0, refused := none })
    = s.afterStep (secondDifference s.clock.index (day * 86400 + second)) day second := by
  have hclock := Clock.setIndex_received s.clock hday hsecond
  refine State.eq_of_blocks rfl rfl rfl ?_ rfl rfl rfl rfl rfl rfl rfl rfl rfl rfl rfl rfl rfl
  simp only [State.onClock, stepClock_clock, hclock, State.afterStep, hsynced]

theorem takeTime_small {day second : Nat} (hsynced : s.clock.synced = true) (hsecond : second ≤ 86399)
    (hd : (secondDifference s.clock.index (day * 86400 + second)).natAbs ≤ 3600) : takeTime day second s
      = applyDifference (secondDifference s.clock.index (day * 86400 + second)) s := by
  rw [takeTime, if_neg (by omega), if_neg (by simp [hsynced]), if_pos hd]

theorem takeTime_large {day second : Nat} (hsynced : s.clock.synced = true) (hsecond : second ≤ 86399)
    (hd : 3600 < (secondDifference s.clock.index (day * 86400 + second)).natAbs) : takeTime day second s
      = largeStep (secondDifference s.clock.index (day * 86400 + second)) s := by
  rw [takeTime, if_neg (by omega), if_neg (by simp [hsynced]), if_neg (by omega)]

/-- A difference that crosses no minute moves the standing time alone (R138). -/
theorem applyDifference_within {d : Int}
    (h : (0 ≤ d ∧ ((s.clock.second % 60 : Nat) : Int) + d < 60) ∨ (d < 0 ∧ -d ≤ ((s.clock.second % 60 : Nat) : Int))) :
    applyDifference d s = (stepClock d s).onClock (fun c => { c with holdBack := 0, refused := none }) := by
  unfold applyDifference
  obtain ⟨hpos, hwithin⟩ | ⟨hneg, hwithin⟩ := h
  · exact (if_pos hpos).trans (if_neg (by omega))
  · exact (if_neg (by omega)).trans (if_pos hwithin)

/-- A backward difference past the minute is held back (R138, R139). -/
theorem applyDifference_held {d : Int} (hneg : d < 0) (h : ((s.clock.second % 60 : Nat) : Int) < -d) :
    applyDifference d s = { s with clock := { s.clock with holdBack := d.natAbs, refused := none } } := by
  unfold applyDifference
  exact (if_neg (by omega)).trans (if_neg (by omega))

/-- A forward difference that reaches the next minute raises one instant's work (R140). -/
theorem applyDifference_forward {d : Int} (hpos : 0 ≤ d) (h : 60 ≤ ((s.clock.second % 60 : Nat) : Int) + d) :
    applyDifference d s = instantWork (decide (3600 ≤ ((s.clock.second % 3600 : Nat) : Int) + d))
      (if 86400 ≤ (s.clock.second : Int) + d then some s.clock.day else none)
      ((stepClock d s).onClock (fun c => { c with holdBack := 0, refused := none })) := by
  unfold applyDifference
  rw [if_pos hpos, ← boundary_eq_instantWork]
  exact if_pos h

/-- Settles O15, by the rows of R138. -/
theorem timeStepped : Obligations.TimeStepped := by
  intro s src dst day second hears hsrc hsynced hday hsecond hday' hsecond' d m hsmall
  have htake : takeTime day second s = applyDifference d s := takeTime_small hsynced hsecond hsmall
  have hexec := time_exec hears hsrc day second
  rw [htake] at hexec
  refine ⟨fun hwithin => ⟨_, hexec, ?stepped⟩, fun ⟨hneg, hpast⟩ => ⟨_, hexec, ?held⟩⟩
  case stepped =>
    rw [applyDifference_within hwithin, stepClock_received hsynced hday hsecond]
    refine ⟨by simp [State.afterStep, hsynced], by simp [State.afterStep, d], by simp only [handAll_frame]; rfl, ?_⟩
    rw [handAll_eq_handing]
    rfl
  case held =>
    rw [applyDifference_held hneg hpast]
    exact handAll_eq_handing _

/-! ### Large steps -/

theorem largeStep_refused {d : Int} {record : Nat × Int} (h : s.clock.refused = none ∧ record = (1, d)
    ∨ (∃ e, s.clock.refused = some (1, e) ∧ (d - e).natAbs ≤ 2 ∧ record = (2, e))
    ∨ (∃ n e, s.clock.refused = some (n, e) ∧ 2 < (d - e).natAbs ∧ record = (1, d))) :
    largeStep d s = refuseStep d record s := by
  unfold largeStep
  obtain ⟨hnone, rfl⟩ | ⟨e, hone, hagree, rfl⟩ | ⟨n, e, hsome, hfar, rfl⟩ := h
  · rw [hnone]
  · rw [hone]
    exact (if_pos hagree).trans (if_pos rfl)
  · rw [hsome]
    exact if_neg (by omega)

theorem largeStep_taken {d e : Int} (h : s.clock.refused = some (2, e)) (hagree : (d - e).natAbs ≤ 2) :
    largeStep d s = applyDifference d s := by
  unfold largeStep
  rw [h]
  exact (if_pos hagree).trans (if_neg (by decide))

theorem refuseStep_raises {d : Int} {record : Nat × Int} (hs : s.mon.sized) :
    raisedOnce .clockStep s (handAll (refuseStep d record s)) := by
  have h := raise_raisedOnce (s.onClock (fun c => { c with refused := some record })) .clockStep 0 d (by decide) hs
  exact raisedOnce_of_reading h (by simp [refuseStep])

/-- Settles O16: the refused-step record runs through a run's three rows, and a step that reaches a minute does its
instant's work. -/
theorem largeStepRefused : Obligations.LargeStepRefused := by
  refine ⟨fun s src dst day second hears hsrc hsynced hsecond hsized => ?large,
    fun s src dst day second hears hsrc hsynced hday hsecond hday' hsecond' => ?forward⟩
  case large =>
    intro d hlarge
    have hexec := time_exec hears hsrc day second
    rw [takeTime_large hsynced hsecond hlarge] at hexec
    refine ⟨fun record hrecord => ⟨_, hexec, ?_⟩, fun e he hagree hneg => ⟨_, hexec, ?_⟩⟩
    · rw [largeStep_refused hrecord]
      refine ⟨by simp, refuseStep_raises hsized, ?_⟩
      simp
    · rw [largeStep_taken he hagree, applyDifference_held hneg (by omega)]
      exact handAll_eq_handing _
  case forward =>
    intro d hreach hsmall u
    have hpos : 0 ≤ d := by omega
    have htake : takeTime day second s = applyDifference d s := by
      by_cases hd : d.natAbs ≤ 3600
      · exact takeTime_small hsynced hsecond hd
      · obtain hle | ⟨e, he, hagree⟩ := hsmall
        · omega
        · rw [takeTime_large hsynced hsecond (by omega), largeStep_taken he hagree]
    have hexec := time_exec hears hsrc day second
    rw [htake, applyDifference_forward hpos hreach, stepClock_received hsynced hday hsecond] at hexec
    refine ⟨_, hexec, ?_, handAll_eq_handing _⟩
    simp only [handAll_frame, ← boundary_eq_instantWork, boundary_frame, State.afterStep, hsynced]

end Sys2Proof.Machine
end

section
/-! PROOFS. The exception list under a raised condition (R157), a condition not raised; and with it the NOMS (R14, R15)
and the advance of the clock (R135, R136). -/

namespace Sys2Proof.Machine

open Sys2Proof (Instr Bed Flow)

variable {s t u : State} {c : Cond}

/-! ### The exception list -/

theorem notRaised_iff : notRaised c s t ↔ t.mon.reading c = s.mon.reading c := by
  simp [Monitor.reading, notRaised]

theorem escalated_iff : s.escalated c = true ↔ s.train.mode ≠ .config ∧ s.cfg.escalates (condCode c) = true := by
  simp [State.escalated]

theorem escalate_keeps_record {m : Monitor} {r q : ExceptionRecord} (h : r ∈ m.exceptions) :
    r ∈ (m.escalate q).exceptions := by
  unfold Monitor.escalate
  dsimp only
  split
  · exact List.mem_append_left _ h
  · exact h

theorem raiseQuiet_keeps_record {r : ExceptionRecord} {slot : Nat} {v : Int} (h : r ∈ s.mon.exceptions) :
    r ∈ (raiseQuiet c slot v s).mon.exceptions := by
  unfold raiseQuiet
  split
  · exact escalate_keeps_record h
  · exact h

theorem queueConditionReport_keeps_record {r : ExceptionRecord} {q : ConditionReport} (h : r ∈ s.mon.exceptions) :
    r ∈ (queueConditionReport q s).mon.exceptions := by
  unfold queueConditionReport
  split
  · exact h
  · exact h
  · exact raiseQuiet_keeps_record h
  · exact raiseQuiet_keeps_record h
  · exact raiseQuiet_keeps_record h

/-- A record stays in the exception list whatever is raised after it (R157). -/
theorem raise_keeps_record {r : ExceptionRecord} {slot : Nat} {v : Int} (h : r ∈ s.mon.exceptions) :
    r ∈ (raise c slot v s).mon.exceptions := by
  unfold raise
  dsimp only
  split
  · exact queueConditionReport_keeps_record (raiseQuiet_keeps_record h)
  · exact raiseQuiet_keeps_record h

/-- A raised condition that is escalated enters the exception list while there is room (R157). -/
theorem raise_recorded {p : ExceptionRecord → Prop} {slot : Nat} {v : Int} (hp : p (s.exceptionRecord c slot v)) :
    recorded c p s (raise c slot v s) := by
  intro hmode hesc hroom
  have hescalated := escalated_iff.mpr ⟨hmode, hesc⟩
  refine ⟨s.exceptionRecord c slot v, ?_, rfl, rfl, rfl, hp⟩
  unfold raise
  dsimp only
  rw [if_pos hescalated]
  refine queueConditionReport_keeps_record ?_
  rw [raiseQuiet, if_pos hescalated]
  simp [Monitor.escalate, Monitor.count, hroom]

theorem recorded.later {p : ExceptionRecord → Prop} (h : recorded c p s t)
    (hkeep : ∀ r ∈ t.mon.exceptions, r ∈ u.mon.exceptions) : recorded c p s u := by
  intro hmode hesc hroom
  obtain ⟨r, hr, hrest⟩ := h hmode hesc hroom
  exact ⟨r, hkeep r hr, hrest⟩

/-- A record made from a state that has the mode, the configuration, the standing time and the list of an earlier one. -/
theorem recorded.before {p : ExceptionRecord → Prop} (h : recorded c p t u) (hmode : t.train.mode = s.train.mode)
    (hcfg : t.cfg = s.cfg) (hclock : t.clock = s.clock) (hlist : t.mon.exceptions = s.mon.exceptions) :
    recorded c p s u := by
  intro hm hesc hroom
  have := h (hmode ▸ hm) (hcfg ▸ hesc) (hlist ▸ hroom)
  rwa [hclock] at this

/-! ### NOMS -/

variable {src dst slot day hour : Nat} {rate : Int}

theorem noms_exec (h : s.hears src dst) (hsrc : src = s.cfg.scheduling) :
    exec (.noms src dst slot day hour rate) s = .next (handAll (takeNomination slot day hour rate s)) :=
  heard_next h 2 _ (takeNomination slot day hour rate) (by simp [hsrc]) (by simpa using h.1.1.2)

/-- The model's checks are those of R14, in their order. -/
theorem nomReason_eq (hlen : (s.nom.nominee slot).pending.length ≤ 4) : nomReason s slot day hour rate
    = if nomsFailing s slot day hour rate = 0 then none else some (nomsFailing s slot day hour rate) := by
  have hconf : (s.cfg.configured slot = false) ↔ ¬ (1 ≤ slot ∧ slot ≤ 16 ∧ 0 < (s.cfg.shipper slot).space) := by
    simp only [Image.configured, ← Bool.not_eq_true, Bool.and_eq_true, decide_eq_true_eq, and_assoc]
  have hany : (s.nom.nominee slot).pending.any (fun e => e.1 == hourIndex day hour) = false
      ↔ ∀ e ∈ (s.nom.nominee slot).pending, e.1 ≠ hourIndex day hour := by
    simp
  have hfull : (4 ≤ (s.nom.nominee slot).pending.length) ↔ (s.nom.nominee slot).pending.length = 4 := by omega
  unfold nomReason nomsFailing
  simp only [hconf, hany, ge_iff_le, hfull, gt_iff_lt]
  split_ifs <;> trivial

theorem takeNomination_of_failing (hlen : (s.nom.nominee slot).pending.length ≤ 4)
    (h : nomsFailing s slot day hour rate ≠ 0) : takeNomination slot day hour rate s
      = raise .nomRefused (if 1 ≤ slot ∧ slot ≤ 16 then slot else 0) (nomsFailing s slot day hour rate) s := by
  rw [takeNomination, nomReason_eq hlen, if_neg h]

theorem takeNomination_of_passing (hlen : (s.nom.nominee slot).pending.length ≤ 4)
    (h : nomsFailing s slot day hour rate = 0) : takeNomination slot day hour rate s
      = s.onNom (fun n => { n with shippers := updateAt (slot - 1) (fun r =>
          { r with pending := enterNomination s.clock.hourIndex (hourIndex day hour, rate) r.pending }) n.shippers }) := by
  rw [takeNomination, nomReason_eq hlen, if_pos h]

/-- Settles O17, by the checks in their order. -/
theorem nomsRefused : Obligations.NomsRefused := by
  intro s src dst slot day hour rate hears hsrc hsized hlen hfail
  have hexec := noms_exec (slot := slot) (day := day) (hour := hour) (rate := rate) hears hsrc
  rw [takeNomination_of_failing hlen hfail] at hexec
  refine ⟨_, hexec, by simp, ?raised, fun hesc hroom => ?record, by simp⟩
  case raised =>
    have hraise := raise_raisedOnce s .nomRefused (if 1 ≤ slot ∧ slot ≤ 16 then slot else 0)
      (nomsFailing s slot day hour rate) (by decide) hsized
    exact raisedOnce_of_reading hraise (by simp)
  case record =>
    have hrec := raise_recorded (s := s) (c := .nomRefused) (slot := if 1 ≤ slot ∧ slot ≤ 16 then slot else 0)
      (v := nomsFailing s slot day hour rate) (p := fun r => r.slot = (if 1 ≤ slot ∧ slot ≤ 16 then slot else 0)
        ∧ r.value = nomsFailing s slot day hour rate) ⟨rfl, rfl⟩
    obtain ⟨r, hr, hcode, -, -, hslot, hvalue⟩ := hrec hears.1.2 hesc hroom
    exact ⟨r, by simpa using hr, hcode, hslot, hvalue⟩

/-- The entries of a list that an accepted nomination has entered (R15). -/
theorem mem_enterNomination {now : Nat} {e x : Nat × Int} {l : List (Nat × Int)} :
    x ∈ enterNomination now e l ↔ x = e ∨ (x ∈ l ∧ x.1 ≠ e.1) := by
  unfold enterNomination
  split
  · next hany =>
    obtain ⟨y, hy, hye⟩ := List.any_eq_true.mp hany
    have hye : y.1 = e.1 := by simpa using hye
    simp only [List.mem_map]
    constructor
    · rintro ⟨z, hz, rfl⟩
      split
      · exact .inl rfl
      · next hne => exact .inr ⟨hz, hne⟩
    · rintro (rfl | ⟨hx, hne⟩)
      · exact ⟨y, hy, if_pos hye⟩
      · exact ⟨x, hx, if_neg hne⟩
  · next hnone =>
    rw [mem_insertByHour]
    refine or_congr_right (iff_self_and.mpr fun hx heq => hnone (List.any_eq_true.mpr ⟨x, hx, by simpa using heq⟩))

theorem enterNomination_length {now : Nat} {e : Nat × Int} {l : List (Nat × Int)} : (enterNomination now e l).length
    = if ∃ x ∈ l, x.1 = e.1 then l.length else l.length + 1 := by
  have hany : l.any (fun x => x.1 == e.1) = true ↔ ∃ x ∈ l, x.1 = e.1 := by simp
  unfold enterNomination
  by_cases h : ∃ x ∈ l, x.1 = e.1
  · rw [if_pos h, if_pos (hany.mpr h), List.length_map]
  · rw [if_neg h, if_neg (hany.not.mpr h), insertByHour_length]

/-- Settles O18: the entry is entered in its slot's list alone. -/
theorem nomsAccepted : Obligations.NomsAccepted := by
  intro s src dst slot day hour rate hears hsrc hshippers hlen hpass before
  have hexec := noms_exec (slot := slot) (day := day) (hour := hour) (rate := rate) hears hsrc
  rw [takeNomination_of_passing hlen hpass] at hexec
  have hslot : 1 ≤ slot ∧ slot ≤ 16 := by
    obtain ⟨hconf, -⟩ := nomReason_none ((nomReason_eq hlen).trans (if_pos hpass))
    simp only [Image.configured, Bool.and_eq_true, decide_eq_true_eq] at hconf
    exact hconf.1
  have hself : (Nominations.nominee { s.nom with shippers := updateAt (slot - 1) (fun r => { r with
        pending := enterNomination s.clock.hourIndex (hourIndex day hour, rate) r.pending }) s.nom.shippers } slot)
      = { s.nom.nominee slot with pending := enterNomination s.clock.hourIndex (hourIndex day hour, rate) before } :=
    updateAt_getD_self _ _ _ _ (by omega)
  refine ⟨_, hexec, fun e => ?entries, ?length, ?current, fun i h1 hi => ?others, by simp, by simp, by simp, ?frame⟩
  case entries => simp only [handAll_frame, State.onNom_nom, hself, mem_enterNomination]
  case length => simp only [handAll_frame, State.onNom_nom, hself, enterNomination_length]
  case current => simp only [handAll_frame, State.onNom_nom, hself]
  case others =>
    simp only [handAll_frame, State.onNom_nom]
    exact updateAt_getD_of_ne _ _ _ _ _ (by omega)
  case frame =>
    rw [handAll_eq_handing]
    rfl

/-! ### The advance of the clock -/

/-- The interval's metering keeps of the intake the meters and what is open, but for the suspense records it books. -/
theorem bookSuspense_open {f : Flow} {bed : Option Bed} : (bookSuspense f bed s).intake.volume = s.intake.volume
    ∧ (bookSuspense f bed s).intake.compWh = s.intake.compWh
    ∧ (bookSuspense f bed s).intake.heaterWh = s.intake.heaterWh
    ∧ (bookSuspense f bed s).intake.samples = s.intake.samples
    ∧ (bookSuspense f bed s).intake.latestCv = s.intake.latestCv := by
  have hset (i : Intake) (r : Option Suspense) : (i.setSuspense f r).volume = i.volume
      ∧ (i.setSuspense f r).compWh = i.compWh ∧ (i.setSuspense f r).heaterWh = i.heaterWh
      ∧ (i.setSuspense f r).samples = i.samples ∧ (i.setSuspense f r).latestCv = i.latestCv := by
    cases f <;> exact ⟨rfl, rfl, rfl, rfl, rfl⟩
  unfold bookSuspense
  split
  · simp
  · split
    · simp
    · simp [replyDue, hset]

/-- An open interval that holds nothing (R130). -/
abbrev Intake.emptied (i : Intake) : Prop :=
  i.volume = 0 ∧ i.compWh = 0 ∧ i.heaterWh = 0 ∧ i.samples = 0 ∧ i.latestCv = none

theorem closeInterval_emptied : (closeInterval s).2.intake.emptied := by
  simp [closeInterval]

theorem meterMinute_emptied : (meterMinute s).2.intake.emptied := by
  have hclose := closeInterval_emptied (s := s)
  simpa [meterMinute, bookSuspense_open, Intake.emptied] using hclose

/-- The instant's work out of CONFIG leaves the open interval empty. -/
theorem instantWork_emptied (hour : Bool) (d : Option Nat) (hmode : s.train.mode ≠ .config) :
    (instantWork hour d s).intake.emptied := by
  have hclosed : (d.elim (meterMinute s).2 (closeDay · (meterMinute s).2)).intake.emptied := by
    cases d <;> simpa using meterMinute_emptied
  unfold instantWork
  dsimp only
  rw [if_neg hmode]
  cases hour <;> simpa using hclosed

/-- The open interval emptied, before the condition of its CV (R130). -/
def emptyInterval (s : State) : State := s.onIntake (fun i =>
  { i with volume := 0, compWh := 0, heaterWh := 0, latestCv := none
           hourSamples := satAdd top16 i.hourSamples i.samples, samples := 0 })

/-- A record with its volume and CV source raises the condition of that source, and no other (R37). -/
theorem raiseCv_of_source {r : Interval} (h : r.volume = 0 ∨ r.source = .latest) :
    raiseCv r s = s := by
  unfold raiseCv
  obtain h | h := h
  · exact if_pos h
  · split
    · rfl
    · rw [h]

theorem raiseCv_raises {r : Interval} {c d : Cond} (hs : s.mon.sized)
    (hraise : 0 < r.volume → raiseCv r s = raise c 0 r.cv s) (hc : c ≠ .txDrop) (hd : d ≠ .txDrop) (hne : d ≠ c) :
    notRaised d s (raiseCv r s) ∧ (r.volume = 0 → notRaised c s (raiseCv r s)) ∧ (0 < r.volume →
      raisedOnce c s (raiseCv r s) ∧ recorded c (fun e => e.slot = 0 ∧ e.value = r.cv) s (raiseCv r s)) := by
  obtain hzero | hpos := r.volume.eq_zero_or_pos
  · rw [raiseCv_of_source (.inl hzero)]
    exact ⟨⟨rfl, rfl⟩, fun _ => ⟨rfl, rfl⟩, fun hpos => absurd hzero hpos.ne'⟩
  · rw [hraise hpos]
    exact ⟨notRaised_iff.mpr (raise_reading s d c 0 r.cv hne hd), fun hzero => absurd hzero hpos.ne',
      fun _ => ⟨raise_raisedOnce s c 0 r.cv hc hs, raise_recorded ⟨rfl, rfl⟩⟩⟩

theorem raiseCv_link_mon {r : Interval} :
    raiseCv r s = { s with mon := (raiseCv r s).mon, link := (raiseCv r s).link } := by
  refine State.eq_of_blocks ?_ ?_ ?_ ?_ ?_ ?_ ?_ ?_ ?_ ?_ ?_ rfl rfl ?_ ?_ ?_ ?_ <;> simp

/-- The metering of a minute in its order (R34, R53, R101). -/
theorem meterMinute_eq : (meterMinute s).2 = dryerMinute (intervalRecord s) (bookSuspense .withdraw s.dryer.adsorbing
    (bookSuspense .inject s.dryer.adsorbing (bookInterval s.intake.volume (intervalRecord s).cv
      ((s.intake.compWh + s.comp.fuelCarry) / 1000) ((closeInterval s).2.onComp (fun c =>
        { c with fuelCarry := (s.intake.compWh + s.comp.fuelCarry) % 1000 }))))) := by
  have hcomp : (closeInterval s).2.comp = s.comp := by simp
  have hdryer : (closeInterval s).2.dryer = s.dryer := by simp
  rw [meterMinute, hcomp, hdryer]
  rfl

/-- Settles O13: the second's counts, the instant's work on them, and the metering as it is composed. -/
theorem clockAdvances : Obligations.ClockAdvances := by
  refine ⟨fun s hs hhold hno => ?second, fun s hs hhold hsynced hminute => ?minute, fun s hsized => ?metering⟩
  case second =>
    have hexec := clockSecond_exec hs (by simpa using hs.2)
    rw [takeSecond_of_no_hold hhold, raiseAdvance_of_no_boundary hno] at hexec
    exact ⟨_, hexec, handAll_eq_handing _⟩
  case minute =>
    have hexec := clockSecond_exec hs (by simpa using hs.2)
    rw [takeSecond_of_no_hold hhold, raiseAdvance_of_boundary hsynced hminute] at hexec
    refine ⟨_, hexec, ?_, handAll_eq_handing _, fun hmode => ?_⟩
    · simp [← boundary_eq_instantWork]
    · simpa using instantWork_emptied _ _ (s := s.afterSecond) hmode
  case metering =>
    intro r fuel u bed
    have hr : r = intervalRecord s := rfl
    refine ⟨rfl, rfl, rfl, rfl, rfl, fun v hlatest => ?latest, fun x hlatest hheld => ?held,
      fun hlatest hheld => ?default, raiseCv_link_mon, meterMinute_eq, by simp [fuel, formFuel]⟩
    case latest =>
      have hrecord : r.cv = v ∧ r.source = .latest := by simp [hr, intervalRecord, cvInForce, hlatest]
      have hno : u = emptyInterval s := raiseCv_of_source (.inr hrecord.2)
      exact ⟨hrecord.1, hno ▸ ⟨rfl, rfl⟩, hno ▸ ⟨rfl, rfl⟩⟩
    case held =>
      have hrecord : r.cv = x.value.toNat ∧ r.source = .held := by simp [hr, intervalRecord, cvInForce, hlatest, hheld]
      exact ⟨hrecord.1, raiseCv_raises (s := emptyInterval s) hsized (fun hvol => by
        rw [raiseCv, if_neg hvol.ne', ← hr, hrecord.2]) (by decide) (by decide) (by decide)⟩
    case default =>
      have hrecord : r.cv = s.cfg.defaultCv ∧ r.source = .default := by
        simp [hr, intervalRecord, cvInForce, hlatest, hheld]
      exact ⟨hrecord.1, raiseCv_raises (s := emptyInterval s) hsized (fun hvol => by
        rw [raiseCv, if_neg hvol.ne', ← hr, hrecord.2]) (by decide) (by decide) (by decide)⟩

end Sys2Proof.Machine
end

section
/-! PROOFS. The receive filters (R149), the halt set (R153) and the train shut in (R66). -/

namespace Sys2Proof.Machine

open Sys2Proof (Instr)

variable {s : State} {src dst kind : Nat}

/-! ### The filters -/

/-- A telegram that is passed on by its kind goes through the receive filter. -/
theorem passed_exec {c : Instr} {known : Bool} (h : passedTelegram s c = some (src, dst, kind, known)) :
    ∃ recognised take, exec c s = received src dst kind recognised take s ∧ recognised s = known := by
  cases c <;> simp only [passedTelegram, reduceCtorEq, Option.some.injEq, Prod.mk.injEq] at h
  all_goals obtain ⟨rfl, rfl, rfl, rfl⟩ := h
  all_goals refine ⟨_, _, rfl, ?_⟩
  all_goals simp [fromTrain, fromConsole]

theorem received_config (hp : s.powered = true) (hm : s.train.mode = .config) (recognised : State → Bool)
    (take : State → State) : received src dst kind recognised take s = .next s := by
  simp [received, whilePowered, hp, filterTelegram, hm]

theorem received_zero (hp : s.powered = true) (hm : s.train.mode ≠ .config) (recognised : State → Bool)
    (take : State → State) : received 0 dst kind recognised take s = .next (countReceiveError s) := by
  simp [received, whilePowered, hp, filterTelegram, hm]

/-- A telegram under the part's own number is a duplicate's (R149, R152). -/
theorem received_own (hp : s.powered = true) (hm : s.train.mode ≠ .config) (hstation : s.station ≠ 0)
    (recognised : State → Bool) (take : State → State) :
    received s.station dst kind recognised take s = exec (.dupStation kind) s := by
  have hdup : exec (.dupStation kind) s = execDupStation kind s := rfl
  rw [hdup]
  simp [received, execDupStation, whilePowered, hp, filterTelegram, hm, hstation]

theorem received_elsewhere (hp : s.powered = true) (hm : s.train.mode ≠ .config) (h0 : src ≠ 0) (hs : src ≠ s.station)
    (hd0 : dst ≠ 0) (hd : dst ≠ s.station) (recognised : State → Bool) (take : State → State) :
    received src dst kind recognised take s = .next s := by
  simp [received, whilePowered, hp, filterTelegram, hm, h0, hs, State.addressed, hd0, hd]

theorem received_unknown (hp : s.powered = true) (hm : s.train.mode ≠ .config) (h0 : src ≠ 0) (hs : src ≠ s.station)
    (hd : dst = 0 ∨ dst = s.station) {recognised : State → Bool} (hr : recognised s = false) (take : State → State) :
    received src dst kind recognised take s = .next (countDiscard s) := by
  have ha : s.addressed dst = true := by simpa [State.addressed] using hd
  simp [received, whilePowered, hp, filterTelegram, hm, h0, hs, ha, hr]

theorem receiveError_exec (hp : s.powered = true) :
    exec .receiveError s = .next (if s.train.mode = .config then s else countReceiveError s) :=
  plain_exec hp (fun s => if s.train.mode = .config then s else countReceiveError s)

theorem report_exec (hp : s.powered = true) (src dst : Nat) : exec (.report src dst) s
    = .next (if s.train.mode ≠ .config ∧ src = 0 then countReceiveError s
        else if s.train.mode ≠ .config ∧ src = s.station then finish (takeDuplicate 11 s) else s) :=
  plain_exec hp (fun s => if s.train.mode ≠ .config ∧ src = 0 then countReceiveError s
    else if s.train.mode ≠ .config ∧ src = s.station then finish (takeDuplicate 11 s) else s)

/-- Settles O26, row by row of R149. -/
theorem telegramsFiltered : Obligations.TelegramsFiltered := by
  refine ⟨fun s c src dst kind known hpassed hp => ?passed, fun s src dst kind hp => ⟨fun hm => ?config, fun hm => ?work⟩⟩
  case passed =>
    obtain ⟨recognised, take, hexec, hknown⟩ := passed_exec hpassed
    rw [hexec]
    refine ⟨fun hm => received_config hp hm _ _, fun hm h0 => ?_, fun hm h0 hs => ?_,
      fun hm h0 hs hd0 hd => received_elsewhere hp hm h0 hs hd0 hd _ _,
      fun hm h0 hs hd hno => received_unknown hp hm h0 hs hd (hknown.trans hno) _⟩
    · rw [h0]; exact received_zero hp hm _ _
    · rw [hs]; exact received_own hp hm (hs ▸ h0) _ _
  case config =>
    refine ⟨by rw [receiveError_exec hp, if_pos hm], received_config hp hm _ _, ?_⟩
    rw [report_exec hp, if_neg (by simp [hm]), if_neg (by simp [hm])]
  case work =>
    refine ⟨by rw [receiveError_exec hp, if_neg hm]; rfl, fun h0 hs => ?_,
      fun h0 hs hd => received_unknown hp hm h0 hs hd rfl _⟩
    rw [report_exec hp, if_neg (by simp [h0]), if_neg (by simp [hs])]

/-! ### The train shut in -/

theorem stopTrain_shutIn_train : (stopTrain .shutIn s).train = { s.train with
    mode := .shutIn, phase := none, lineup := .closed, offer := 0, share := 0, demand := 0
    dwell := if s.train.mode = .reversing ∧ s.train.phase = some .ramp then some s.clock.index else s.train.dwell } :=
  stopTrain_train s .shutIn

/-- A train that is neither in CONFIG nor shut in is shut in (R66). -/
theorem shutIn_eq (hc : s.train.mode ≠ .config) (hs : s.train.mode ≠ .shutIn) :
    shutIn s = sequencerReact (enterShutIn s) := if_neg (by simp [hc, hs])

theorem shutIn_of_shutIn (h : s.train.mode = .config ∨ s.train.mode = .shutIn) : shutIn s = s := if_pos h

theorem shutIn_train (hc : s.train.mode ≠ .config) (hs : s.train.mode ≠ .shutIn) :
    (shutIn s).train = (stopTrain .shutIn s).train := by
  rw [shutIn_eq hc hs, ← enterShutIn_train_eq]
  simp

theorem shutIn_unit (hc : s.train.mode ≠ .config) (hs : s.train.mode ≠ .shutIn) :
    (shutIn s).comp.unit = unitShutIn s.comp.unit := by
  have hmode : (enterShutIn s).train.mode = .shutIn := by rw [enterShutIn_train_eq, stopTrain_shutIn_train]
  have hunit : (enterShutIn s).comp.unit = s.comp.unit := by simp
  rw [shutIn_eq hc hs, sequencerReact_shutIn hmode, hunit]

theorem enterShutIn_room {n : Nat} (h : s.room n) (hn : n < 8) : (enterShutIn s).room (n + 1) := by
  refine enqueue_room _ _ _ ?_ hn
  simpa [State.room] using h

theorem shutIn_room {n : Nat} (h : s.room n) (hn : n < 6) : (shutIn s).room (n + 3) := by
  unfold shutIn
  split
  · exact h.mono (by omega)
  · exact sequencerReact_room _ (enterShutIn_room h (by omega)) (by omega)

/-- The OFFER of a train shut in waits in a queue with room (R82). -/
theorem shutIn_offer {n : Nat} (h : s.room n) (hn : n < 6) (hc : s.train.mode ≠ .config) (hs : s.train.mode ≠ .shutIn) :
    ∃ u, (shutIn s).waits (.offer s.train.offerDir 0 0 s.nom.target .shutIn u) := by
  have hstop := stopTrain_shutIn_train (s := s)
  have hwaits : (enterShutIn s).waits (offerTelegram (stopTrain .shutIn s)) :=
    enqueue_self_waits _ _ _ (by rw [hstop]; simp) (n := n) (by simpa [State.room] using h) (by omega)
  have hoffer : offerTelegram (stopTrain .shutIn s)
      = .offer s.train.offerDir 0 0 s.nom.target .shutIn (stopTrain .shutIn s).comp.unit := by
    rw [offerTelegram, hstop]
    simp
  rw [hoffer] at hwaits
  rw [shutIn_eq hc hs]
  exact ⟨_, sequencerReact_waits _ _ (enterShutIn_room h (by omega)) (by omega) hwaits (by simp)⟩

/-- What a train shut in looks like after the fields have been handed, or a reply queued behind (R66). -/
theorem takenToShutIn_of {t u : State} (hs : s.train.mode ≠ .shutIn) (hc : s.train.mode ≠ .config)
    (hu : u.train = s.train ∧ u.comp = s.comp ∧ u.clock = s.clock ∧ u.nom = s.nom)
    (hroom : s.roomy → u.room 4) (htrain : t.train = (shutIn u).train) (hunit : t.comp.unit = (shutIn u).comp.unit)
    (hwaits : ∀ m, s.roomy → (shutIn u).waits m → t.waits m) : takenToShutIn s t := by
  obtain ⟨hut, huc, hucl, hun⟩ := hu
  have hs' : u.train.mode ≠ .shutIn := hut ▸ hs
  have hc' : u.train.mode ≠ .config := hut ▸ hc
  refine ⟨?_, ?_, fun hr => ?_⟩
  · rw [htrain, shutIn_train hc' hs', stopTrain_shutIn_train, hut, hucl]
  · rw [hunit, shutIn_unit hc' hs', huc]
  · obtain ⟨unit, hoffer⟩ := shutIn_offer (hroom hr) (by omega) hc' hs'
    rw [hut, hun] at hoffer
    exact ⟨unit, hwaits _ hr hoffer⟩

theorem orderShut_exec (h : s.obeys src dst) (arg litres : Nat) : exec (.orderShut src dst arg litres) s
    = .next (handAll (replyTo .other src 1 arg litres .done (shutIn s))) :=
  obeyed_exec h 1 arg litres answerShut .done (shutIn s) rfl (by simpa using h.1.1.1.2)

/-- Settles O28: SHUT shuts in a train that is not, and is answered DONE. -/
theorem orderShut : Obligations.OrderShut := by
  intro s src dst arg litres h
  have hc : s.train.mode ≠ .config := h.1.1.2
  have hroom (hr : s.roomy) : (shutIn s).room 7 := shutIn_room hr (by omega)
  refine ⟨_, orderShut_exec h arg litres, fun hs => ?shut, fun hs => ?stays, fun hr => ?reply, by simp⟩
  case shut =>
    refine takenToShutIn_of (u := s) hs hc ⟨rfl, rfl, rfl, rfl⟩ id (by simp) (by simp) fun m hr hm => ?_
    rw [handAll_waits]
    exact replyTo_keeps_waits m _ _ _ _ _ _ (hroom hr) (by omega) hm
  case stays =>
    rw [shutIn_of_shutIn (.inr hs)]
    simp
  case reply =>
    exact handed_reply_waits _ _ _ _ _ _ (by
      by_cases hs : s.train.mode = .shutIn
      · rw [shutIn_of_shutIn (.inr hs)]; exact hc
      · rw [shutIn_train hc hs, stopTrain_shutIn_train]; simp) (hroom hr) (by omega)

/-! ### The halt set -/

theorem filterHalt_taken (hp : s.powered = true) (h0 : src ≠ 0) (hs : src ≠ s.station) (hd : dst = 0 ∨ dst = s.station)
    (take : State → State) (hf : (take s).link.restartPending = false) :
    whilePowered (filterHalt src dst kind take) s = .next (handAll (take s)) := by
  have ha : s.addressed dst = true := by simpa [State.addressed] using hd
  rw [← finish_eq_handAll _ hf]
  simp [whilePowered, hp, filterHalt, h0, hs, ha]

/-- A HALT or RESUME under the part's own number is a duplicate's, in every train mode (R152). -/
theorem filterHalt_own (hp : s.powered = true) (hstation : s.station ≠ 0) (hk : takenInConfig kind = true)
    (take : State → State) :
    whilePowered (filterHalt s.station dst kind take) s = exec (.dupStation kind) s := by
  have hdup : exec (.dupStation kind) s = execDupStation kind s := rfl
  rw [hdup]
  simp [execDupStation, whilePowered, hp, filterHalt, hstation, hk]

theorem dupStation_exec (hs : s.steady) (h : s.train.mode ≠ .config ∨ takenInConfig kind = true) :
    exec (.dupStation kind) s = .next (handAll (takeDuplicate kind s)) := by
  have hdup : exec (.dupStation kind) s = execDupStation kind s := rfl
  have htaken : ¬ (s.train.mode = .config ∧ takenInConfig kind = false) := by
    rintro ⟨hm, hk⟩
    obtain h | h := h
    · exact h hm
    · simp [hk] at h
  have hf : (takeDuplicate kind s).link.restartPending = false := by simpa using hs.2
  rw [hdup, execDupStation, plain_exec hs.1, if_neg htaken, finish_eq_handAll _ hf]

/-- The halt set with a station added, before the train is shut in. -/
def addHalt (src : Nat) (s : State) : State := s.onLink (fun l => { l with haltSet := l.haltSet ++ [src] })

theorem takeHalt_of_mem (h : src ∈ s.link.haltSet) : takeHalt src s = s := if_pos (by simpa using h)

theorem takeHalt_of_new (h : src ∉ s.link.haltSet) :
    takeHalt src s = if s.link.haltSet = [] then shutIn (addHalt src s) else addHalt src s := by
  simp only [takeHalt, List.contains_eq_mem, h, decide_false, Bool.false_eq_true, if_false, List.isEmpty_iff]
  rfl

theorem takeHalt_haltSet (src : Nat) : (takeHalt src s).link.haltSet
    = if src ∈ s.link.haltSet then s.link.haltSet else s.link.haltSet ++ [src] := by
  split
  · next h => rw [takeHalt_of_mem h]
  · next h =>
    rw [takeHalt_of_new h]
    split <;> simp [addHalt]

/-- A HALT that finds a station halting the train already, or no train to shut in, changes the halt set alone. -/
theorem takeHalt_quiet (h : s.link.haltSet ≠ [] ∨ s.train.mode = .config ∨ s.train.mode = .shutIn) :
    takeHalt src s = { s with link := { s.link with haltSet := (takeHalt src s).link.haltSet } } := by
  rw [takeHalt_haltSet]
  by_cases hmem : src ∈ s.link.haltSet
  · rw [takeHalt_of_mem hmem, if_pos hmem]
  · rw [takeHalt_of_new hmem, if_neg hmem]
    split
    · next hempty => rw [shutIn_of_shutIn (s := addHalt src s) (h.resolve_left (not_not.mpr hempty))]; rfl
    · rfl

/-- A duplicate's telegram raises DUP_STATION as it takes the link to SILENT (R152). -/
theorem takeDuplicate_raises (hs : s.mon.sized) (h : s.link.state ≠ .silent) :
    raisedOnce .dupStation s (takeDuplicate kind s) := by
  have hlower : (lowerOffer (s.onLink (·.quit .silent))).mon = s.mon := by simp
  have hraise := raise_raisedOnce (lowerOffer (s.onLink (·.quit .silent))) .dupStation 0 kind (by decide)
    (hlower ▸ hs)
  rw [takeDuplicate, if_neg h]
  exact raisedOnce_of_before (raisedOnce_of_reading hraise (sequencerReact_reading _ _ (by decide))) (by rw [hlower])

/-- Settles O25: a HALT, a RESUME, and either under the part's own number. -/
theorem haltSet : Obligations.HaltSet := by
  refine ⟨fun s src dst reason hs h0 hsrc hd => ?halt, fun s src dst hs h0 hsrc hd => ?resume,
    fun s dst reason hs hstation => ⟨filterHalt_own hs.1 hstation rfl _, filterHalt_own hs.1 hstation rfl _,
      fun kind hkind => ?own⟩⟩
  case halt =>
    have hexec : exec (.halt src dst reason) s = .next (handAll (takeHalt src s)) :=
      filterHalt_taken hs.1 h0 hsrc hd (takeHalt src) (by simpa using hs.2)
    refine ⟨_, hexec, by simpa using takeHalt_haltSet src, fun hempty hc hshut => ?_, fun hquiet => ?_, by simp⟩
    · have hnew : src ∉ s.link.haltSet := by simp [hempty]
      rw [takeHalt_of_new hnew, if_pos hempty]
      exact takenToShutIn_of (u := addHalt src s) hshut hc ⟨rfl, rfl, rfl, rfl⟩ id (by simp) (by simp)
        fun m _ hm => (handAll_waits _ m).mpr hm
    · rw [takeHalt_quiet hquiet, handAll_eq_handing]
      rfl
  case resume =>
    have hexec : exec (.resume src dst) s = .next (handAll (takeResume src s)) :=
      filterHalt_taken hs.1 h0 hsrc hd (takeResume src) hs.2
    exact ⟨_, hexec, handAll_eq_handing _⟩
  case own =>
    have hk : takenInConfig kind = true := by obtain rfl | rfl := hkind <;> rfl
    refine ⟨_, dupStation_exec hs (.inr hk), by simp, by simp, fun hsilent hsized => ?_⟩
    exact raisedOnce_of_reading (takeDuplicate_raises (kind := kind) hsized hsilent) (by simp)

end Sys2Proof.Machine
end

section
/-! PROOFS. What the peer tables take from OFFER, CLAIM, CEDE and JOIN (R78, R81, R91 to R93, R154), and what goes on
waiting in a queue with room. -/

namespace Sys2Proof.Machine

open Sys2Proof (Instr)

variable {s : State} {src dst : Nat} {m : Telegram} {n : Nat}

/-! ### What waits in a queue with room -/

/-- A telegram waits, and the queue has room: its mark is clear, and it holds at most `n` entries. -/
abbrev State.holds (s : State) (n : Nat) (m : Telegram) : Prop := s.room n ∧ s.waits m

/-- A waiting telegram goes on waiting beside a telegram that does not replace it. -/
theorem enqueue_holds {o : Owner} {t : Telegram} (h : s.holds n m) (hn : n < 8)
    (hr : ∀ e : Entry, e.telegram = m → replaces t e = false) : (enqueue t o s).holds (n + 1) m := by
  obtain ⟨hroom, e, he, htel, hwait⟩ := h
  refine ⟨enqueue_room s t o hroom hn, ?_⟩
  by_cases hc : s.train.mode = .config
  · rw [enqueue_config s t o hc]
    exact ⟨e, he, htel, hwait⟩
  · have hlen := hroom.2
    rw [enqueue_of_room s t o hc hroom.1 (by omega)]
    refine ⟨e, ?_, htel, hwait⟩
    simp only [State.onLink_link]
    split
    · exact List.mem_map.mpr ⟨e, he, by rw [hr e htel]; rfl⟩
    · simp [Link.enter, Link.withQueue, mem_insertEntry, he]

theorem queueCede_holds (h : s.holds n m) (hn : n < 8) : (queueCede s).holds (n + 1) m :=
  ⟨queueCede_room s h.1 hn, queueCede_waits s m h.1 (by omega) h.2⟩

theorem withdrawClaim_holds (h : s.holds n m) (hn : n < 9) (hm : m ≠ .claim) : (withdrawClaim s).holds n m := by
  refine ⟨withdrawClaim_room s h.1 hn, ?_⟩
  obtain ⟨e, he, htel, hwait⟩ := h.2
  unfold withdrawClaim
  split
  · refine ⟨e, List.mem_filter.mpr ⟨he, ?_⟩, htel, hwait⟩
    simp [Entry.isClaim, htel, hm]
  · exact h.2

theorem stopTests_holds (h : s.holds n m) (hn : n < 8) : (stopTests s).holds (n + 1) m := by
  have hmono : s.holds (n + 1) m := ⟨h.1.mono (by omega), h.2⟩
  unfold stopTests
  split
  · split
    · exact queueCede_holds (by exact h) hn
    · exact hmono
  · split
    · exact hmono
    · exact hmono
  all_goals exact hmono

/-- The tests before the claim queue at most one CEDE between them. -/
theorem stopTests_cancelTests_holds (h : s.holds n m) (hn : n < 8) (hm : m ≠ .claim) :
    (stopTests (cancelTests s)).holds (n + 1) m := by
  unfold cancelTests
  split
  · exact stopTests_holds h hn
  · split
    · have hstopped : (queueCede (s.onComp (·.setUnit .stopped))).comp.unit = .stopped := by simp
      have hstill : stopTests (queueCede (s.onComp (·.setUnit .stopped)))
          = queueCede (s.onComp (·.setUnit .stopped)) := by
        unfold stopTests
        rw [hstopped]
      rw [hstill]
      exact queueCede_holds (by exact h) hn
    · exact stopTests_holds (withdrawClaim_holds h (by omega) hm) hn

/-- The sequencer's tests leave waiting what waits, but for the part's CLAIM. -/
theorem sequencerReact_keeps (h : s.holds n m) (hn : n < 8) (hm : m ≠ .claim) : (sequencerReact s).waits m := by
  obtain ⟨hroom, hwaits⟩ := stopTests_cancelTests_holds h hn hm
  unfold sequencerReact claimTest
  split
  · exact enqueue_waits _ m _ _ (n := n + 1) (by exact hroom) (by omega) (by exact hwaits)
      fun e _ => (replaces_claim e).1
  · exact hwaits

/-! ### OFFER -/

theorem offer_exec (h : s.hears src dst) (hp : src ∈ s.cfg.expected) (dir offer share target mode unit : Nat) :
    exec (.offer src dst dir offer share target mode unit) s = .next (handAll (takeOffer src dir offer target s)) :=
  heard_next h 3 _ (takeOffer src dir offer target) (by simpa [fromTrain] using hp) (by simpa using h.1.1.2)

theorem takeOffer_of_unknown {dir : Nat} (h : dirOfCode dir = none) (offer target : Nat) :
    takeOffer src dir offer target s = s := by
  unfold takeOffer
  rw [h]

/-- The mark and the condition of R81 after an OFFER with this target. -/
theorem divergeAfter_eq (hm : s.train.mode ≠ .config) (target : Nat) (before : Bool) : divergeAfter s target before
    = if s.clock.synced = true ∧ 60 ≤ s.clock.second % 3600
      then (decide (target ≠ s.nom.target), decide (target ≠ s.nom.target) && !before) else (before, false) := by
  unfold divergeAfter
  by_cases hs : s.clock.synced = true
  · by_cases h60 : 60 ≤ s.clock.second % 3600
    · rw [if_neg (by simp [hs, hm]; omega), if_pos ⟨hs, h60⟩]
    · rw [if_pos (.inr (.inr (by omega))), if_neg (fun h => h60 h.2)]
  · rw [if_pos (.inl (by simpa using hs)), if_neg (fun h => hs h.1)]

/-- Settles O21, by the table of R81. -/
theorem offerTaken : Obligations.OfferTaken := by
  intro s src dst dir offer share target mode unit hears hp hsized compared before
  have hm : s.train.mode ≠ .config := hears.1.2
  refine ⟨_, offer_exec hears hp dir offer share target mode unit, fun hdir => ?unknown, fun d hd => ?known, by simp⟩
  case unknown =>
    have hnone : dirOfCode dir = none := by
      unfold dirOfCode
      split <;> simp_all
    rw [takeOffer_of_unknown hnone]
    exact handAll_eq_handing s
  case known =>
    have hmark := divergeAfter_eq hm target before
    have htake : takeOffer src dir offer target s
        = if (divergeAfter s target before).2 then raise .targetDiverge 0 src (s.onPeers (·.setOffer src (some
            { dir := d, offer := offer, target := target, heard := s.clock.index
              diverge := (divergeAfter s target before).1 })))
          else s.onPeers (·.setOffer src (some { dir := d, offer := offer, target := target, heard := s.clock.index
                                                 diverge := (divergeAfter s target before).1 })) := by
      unfold takeOffer
      rw [hd]
    have hraised : (divergeAfter s target before).2 = true ↔ compared ∧ target ≠ s.nom.target ∧ before = false := by
      rw [hmark]
      split
      · next hc => simp [compared, hc]
      · next hc => simp [compared, hc]
    have hdiverge : (divergeAfter s target before).1 = if compared then decide (target ≠ s.nom.target) else before := by
      rw [hmark]
      split <;> rfl
    rw [htake]
    refine ⟨?_, fun hyes => ?_, fun hno => ?_⟩
    · rw [← hdiverge]
      split <;> simp [Peers.setOffer]
    · rw [if_pos (hraised.mpr hyes)]
      have hraise (f : Peers → Peers) := raise_raisedOnce (s.onPeers f) .targetDiverge 0 src (by decide) hsized
      exact raisedOnce_of_reading (hraise _) (congrArg _ (handAll_mon _))
    · rw [if_neg (fun h => hno (hraised.mp h))]
      simp

/-! ### CLAIM and CEDE -/

theorem claim_exec (h : s.hears src dst) (hp : src ∈ s.cfg.expected) :
    exec (.claim src dst) s = .next (handAll (takeClaim src s)) :=
  heard_next h 6 _ (takeClaim src) (by simpa [fromTrain] using hp) (by simpa using h.1.1.2)

theorem cede_exec (h : s.hears src dst) (hp : src ∈ s.cfg.expected) :
    exec (.cede src dst) s = .next (handAll (sequencerReact (removeFromCopy src s))) :=
  heard_next h 7 _ (fun s => sequencerReact (removeFromCopy src s)) (by simpa [fromTrain] using hp)
    (by simpa using h.1.1.2)

theorem takeClaim_of_mem (h : src ∈ s.peers.startQueue) : takeClaim src s = s := if_pos (by simpa using h)

theorem takeClaim_of_full (h : src ∉ s.peers.startQueue) (hfull : 8 ≤ s.peers.startQueue.length) :
    takeClaim src s = countDiscard s := by
  unfold takeClaim
  rw [if_neg (by simpa using h), if_pos hfull]

theorem takeClaim_of_new (h : src ∉ s.peers.startQueue) (hroom : s.peers.startQueue.length < 8) :
    takeClaim src s = addToCopy src s := by
  unfold takeClaim
  rw [if_neg (by simpa using h), if_neg (by omega)]

/-- The copy after a station's entry has left it, wherever it stood (R92). -/
theorem removeFromCopy_peers_eq (src : Nat) : (removeFromCopy src s).peers = { s.peers with
    startQueue := s.peers.startQueue.filter (· != src)
    headAge := if s.peers.startQueue.head? = some src then 0 else s.peers.headAge } := by
  rw [removeFromCopy_peers]
  split
  · simp only [beq_iff_eq]
  · next hno =>
    have hmem : src ∉ s.peers.startQueue := by simpa using hno
    have hfilter : s.peers.startQueue.filter (· != src) = s.peers.startQueue :=
      List.filter_eq_self.mpr fun x hx => by simpa using fun h : x = src => hmem (h ▸ hx)
    have hhead : s.peers.startQueue.head? ≠ some src := fun h => hmem (List.mem_of_head? h)
    rw [hfilter, if_neg hhead]

/-- A QUEUED unit whose own entry becomes head goes to STARTING with a start of age 0 (R88, R93). -/
theorem ownHead_starts (h : s.comp.unit = .queued) : (ownHead s).comp.unit = .starting
    ∧ (ownHead s).comp.command = .start ∧ (ownHead s).comp.startTimer = some 0
    ∧ (ownHead s).comp.starts.getLast? = some 0 := by
  rw [ownHead, if_pos h]
  simp [Compressor.setUnit, commandOf]

theorem removeFromCopy_starts {rest : List Nat} (hq : s.peers.startQueue = src :: s.station :: rest)
    (hne : src ≠ s.station) (hu : s.comp.unit = .queued) : (removeFromCopy src s).comp.unit = .starting
      ∧ (removeFromCopy src s).comp.command = .start ∧ (removeFromCopy src s).comp.startTimer = some 0
      ∧ (removeFromCopy src s).comp.starts.getLast? = some 0 := by
  have hhead : (s.peers.startQueue.filter (· != src)).head? = some s.station := by
    simp [hq, hne.symm]
  have hown : ¬ (src = s.station ∧ s.comp.unit = .queued) := fun h => hne h.1
  unfold removeFromCopy
  simp only [hhead, State.onPeers_comp, hown, if_false]
  rw [if_pos (by simp [hq]), if_pos (by simp [hq])]
  exact ownHead_starts hu

/-- Settles O23: the copy's rules, and the start of a QUEUED unit at the head. -/
theorem startQueueCopied : Obligations.StartQueueCopied := by
  refine ⟨fun s src dst hears hp => ?claim, fun s src dst hears hp => ?cede⟩
  case claim =>
    refine ⟨_, claim_exec hears hp, fun hmem => ?_, fun hnew hfull => ?_, fun hnew hroom => ?_, ?_⟩
    · rw [takeClaim_of_mem hmem]; simp
    · rw [takeClaim_of_full hnew hfull]; simp
    · rw [takeClaim_of_new hnew hroom]; simp [addToCopy]
    · rw [handAll_eq_handing]
      refine State.eq_of_blocks ?_ ?_ ?_ ?_ ?_ ?_ rfl ?_ ?_ ?_ ?_ ?_ rfl ?_ ?_ ?_ ?_ <;> simp
  case cede =>
    refine ⟨_, cede_exec hears hp, ?_, fun rest hq hu hm => ?_, by simp⟩
    · simpa using removeFromCopy_peers_eq src
    · obtain ⟨hunit, hcommand, htimer, hstarts⟩ := removeFromCopy_starts hq hears.2.2.1 hu
      have hcomp := sequencerReact_starting hunit (by simpa using hm)
      rw [handAll_comp, hcomp]
      exact ⟨hunit, hcommand, htimer, hstarts⟩

/-! ### JOIN -/

theorem join_exec (h : s.hears src dst) : exec (.join src dst) s = .next (handAll (takeJoin src s)) :=
  heard_next h 4 _ (takeJoin src) rfl (by simpa using h.1.1.2)

/-- Both INVT halves wait in a queue with room, as they stood when they were queued (R27, R28). -/
theorem queueInvts_holds (hc : s.train.mode ≠ .config) (h : s.room n) (hn : n < 7) {half : Nat}
    (hhalf : half = 1 ∨ half = 2) :
    (queueInvts s).holds (n + 2) (.invt half s.clock.day s.clock.hour (halfInventories half s)) := by
  have hfirst : (queueInvt 1 s).holds (n + 1) (.invt 1 s.clock.day s.clock.hour (halfInventories 1 s)) :=
    ⟨enqueue_room s _ _ h (by omega), enqueue_self_waits s _ _ hc h (by omega)⟩
  obtain rfl | rfl := hhalf
  · exact enqueue_holds hfirst (by omega) fun e he => by simp [replaces, he]
  · have hc' : (queueInvt 1 s).train.mode ≠ .config := by simpa [queueInvt] using hc
    have hself : (queueInvt 1 s).clock = s.clock ∧ halfInventories 2 (queueInvt 1 s) = halfInventories 2 s := by
      simp [queueInvt, halfInventories, State.inventory]
    have hsecond := enqueue_self_waits (queueInvt 1 s) (.invt 2 (queueInvt 1 s).clock.day (queueInvt 1 s).clock.hour
      (halfInventories 2 (queueInvt 1 s))) .other hc' hfirst.1 (by omega)
    refine ⟨enqueue_room (queueInvt 1 s) _ _ hfirst.1 (by omega), ?_⟩
    rw [hself.1, hself.2] at hsecond
    rw [queueInvts, queueInvt, hself.1, hself.2]
    exact hsecond

/-- Settles O24: the JOIN's removals, and the three telegrams in a queue with room. -/
theorem joinTaken : Obligations.JoinTaken := by
  intro s src dst hears hr
  let u := (removeFromCopy src s).onPeers (·.setOffer src none)
  have hroom : u.room 4 := by simpa [u, State.room] using hr
  have hc : u.train.mode ≠ .config := by simpa [u] using hears.1.2
  have htake : takeJoin src s = sequencerReact (queueOffer (queueInvts u)) := rfl
  have hpeers : (takeJoin src s).peers = (removeFromCopy src s).peers.setOffer src none := by simp [htake, u]
  have hoffer : offerTelegram (queueInvts u) = .offer s.train.offerDir s.train.offer s.train.share s.nom.target
      s.train.mode (queueInvts u).comp.unit := by simp [offerTelegram, u]
  refine ⟨_, join_exec hears, ?_, ?_, ?_, fun half hhalf => ?invt, ⟨(queueInvts u).comp.unit, ?offer⟩, by simp⟩
  · simp [hpeers, Peers.setOffer, removeFromCopy_peers_eq]
  · simp [hpeers, Peers.setOffer, removeFromCopy_peers_eq]
  · simp [hpeers, Peers.setOffer, removeFromCopy_peers_eq]
  case invt =>
    have hholds := enqueue_holds (t := offerTelegram (queueInvts u)) (o := .other)
      (queueInvts_holds hc hroom (by omega) hhalf) (by omega) fun e he => by simp [hoffer, replaces, he]
    have hwaits := sequencerReact_keeps hholds (by omega) (by simp)
    have hstate : u.clock = s.clock ∧ halfInventories half u = halfInventories half s := by
      simp [u, halfInventories, State.inventory]
    rw [handAll_waits, htake]
    rw [hstate.1, hstate.2] at hwaits
    exact hwaits
  case offer =>
    have hroom' : (queueInvts u).room 6 := (queueInvts_holds hc hroom (by omega) (.inl rfl)).1
    have hc' : (queueInvts u).train.mode ≠ .config := by simpa using hc
    have hself : (queueOffer (queueInvts u)).holds 7 (offerTelegram (queueInvts u)) :=
      ⟨enqueue_room _ _ _ hroom' (by omega), enqueue_self_waits _ _ _ hc' hroom' (by omega)⟩
    rw [handAll_waits, htake, ← hoffer]
    exact sequencerReact_keeps hself (by omega) (by simp [hoffer])

end Sys2Proof.Machine
end

section
/-! PROOFS. The link's own work (R79, R144, R145, R150 to R152): what goes onto the line, the JOIN, the line's faults and
the echo's mismatches; before them what every telegram queued on the way leaves of the entries already there. -/

namespace Sys2Proof.Machine

variable {s : State} {P : Entry → Prop} {k n : Nat}

/-! ### What all entries have in common -/

/-- A property that an entry has when it enters under a ticket from `k` on, unless it is a restart's reply, and that new
content leaves it. -/
structure EntryLaw (P : Entry → Prop) (k : Nat) : Prop where
  fresh : ∀ t o i, o ≠ .restart → k ≤ i → P { telegram := t, owner := o, ticket := i }
  content : ∀ x t, P x → P { x with telegram := t }

/-- The next ticket is `k` or a later one, and every entry of the queue has the property. -/
def State.entries (P : Entry → Prop) (k : Nat) (s : State) : Prop :=
  k ≤ s.link.nextTicket ∧ ∀ x ∈ s.link.queue, P x

theorem State.entries.of_link {t : State} (h : s.entries P k) (hl : t.link = s.link) : t.entries P k := by
  rwa [State.entries, hl]

theorem entries_filter {l : Link} (h : s.entries P k) (p : Entry → Bool) (hq : l.queue = s.link.queue.filter p)
    (ht : l.nextTicket = s.link.nextTicket) : ({ s with link := l } : State).entries P k :=
  ⟨ht ▸ h.1, fun x hx => h.2 x (List.mem_filter.mp (by simpa [hq] using hx)).1⟩

theorem enter_entries (hP : EntryLaw P k) (h : s.entries P k) (t : Telegram) {o : Owner} (ho : o ≠ .restart) :
    (s.onLink (·.enter t o)).entries P k := by
  refine ⟨Nat.le_succ_of_le h.1, fun x hx => ?_⟩
  have hx : x ∈ insertEntry s.link.queue { telegram := t, owner := o, ticket := s.link.nextTicket } := hx
  obtain rfl | hx := (mem_insertEntry _ _ _).mp hx
  · exact hP.fresh t o _ ho h.1
  · exact h.2 x hx

theorem raiseQuiet_entries (h : s.entries P k) (c : Cond) (slot : Nat) (v : Int) : (raiseQuiet c slot v s).entries P k :=
  h.of_link (by simp)

theorem queueConditionReport_entries (hP : EntryLaw P k) (h : s.entries P k) (r : ConditionReport) :
    (queueConditionReport r s).entries P k := by
  unfold queueConditionReport
  split
  · exact enter_entries hP h _ (by simp)
  · exact enter_entries hP h _ (by simp)
  all_goals exact raiseQuiet_entries h _ _ _

theorem raise_entries (hP : EntryLaw P k) (h : s.entries P k) (c : Cond) (slot : Nat) (v : Int) :
    (raise c slot v s).entries P k := by
  unfold raise
  dsimp only
  split
  · exact queueConditionReport_entries hP (raiseQuiet_entries h _ _ _) _
  · exact raiseQuiet_entries h _ _ _

theorem raiseDrop_entries (hP : EntryLaw P k) (h : s.entries P k) (t : Telegram) : (raiseDrop t s).entries P k := by
  unfold raiseDrop
  split
  · exact raiseQuiet_entries h _ _ _
  · exact raise_entries hP h _ _ _

theorem enqueue_entries (hP : EntryLaw P k) (h : s.entries P k) (t : Telegram) {o : Owner} (ho : o ≠ .restart) :
    (enqueue t o s).entries P k := by
  unfold enqueue
  split
  · exact h
  · split
    · refine ⟨h.1, fun x hx => ?_⟩
      obtain ⟨y, hy, rfl⟩ := List.mem_map.mp hx
      split
      · exact hP.content y t (h.2 y hy)
      · exact h.2 y hy
    · exact enter_entries hP h t ho
    · next e _ =>
      have hremoved : (s.onLink (·.remove e)).entries P k := entries_filter h _ rfl rfl
      exact enter_entries hP (raiseDrop_entries hP (hremoved.of_link (by simp)) _) t ho
    all_goals exact raiseDrop_entries hP (h.of_link (by simp)) t

theorem queueCede_entries (hP : EntryLaw P k) (h : s.entries P k) : (queueCede s).entries P k := by
  unfold queueCede
  split
  · exact h
  · have hpending : (s.onComp (fun c => { c with cedePending := true })).entries P k := h.of_link rfl
    exact enqueue_entries hP hpending _ (by simp)

theorem withdrawClaim_entries (h : s.entries P k) : (withdrawClaim s).entries P k := by
  unfold withdrawClaim
  split
  · exact State.entries.of_link (entries_filter (l := s.link.withdraw Entry.isClaim) h _ rfl rfl) rfl
  · exact h

theorem sequencerReact_entries (hP : EntryLaw P k) (h : s.entries P k) : (sequencerReact s).entries P k := by
  have hcancel : (cancelTests s).entries P k := by
    unfold cancelTests
    split
    · exact h
    · split
      · exact queueCede_entries hP (h.of_link rfl)
      · exact withdrawClaim_entries h
  have hstop : (stopTests (cancelTests s)).entries P k := by
    unfold stopTests
    split
    · split
      · exact queueCede_entries hP (hcancel.of_link rfl)
      · exact hcancel
    · split
      · exact hcancel.of_link rfl
      · exact hcancel
    all_goals exact hcancel
  unfold sequencerReact claimTest
  split
  · have hclaimed : ((stopTests (cancelTests s)).onComp (fun c => { c with claimInFlight := true })).entries P k :=
      hstop.of_link rfl
    exact enqueue_entries hP hclaimed _ (by simp)
  · exact hstop

theorem handAll_entries (h : s.entries P k) : (handAll s).entries P k := h.of_link (by simp)

/-- An entry enters waiting, and new content leaves it where it stands. -/
theorem entryLaw_waiting : EntryLaw (fun x => x.onLine = false) 0 := ⟨fun _ _ _ _ _ => rfl, fun _ _ h => h⟩

/-- A ticket given away is given to no later entry. -/
theorem entryLaw_ticket (i : Nat) : EntryLaw (fun x => x.ticket ≠ i) (i + 1) :=
  ⟨fun _ _ _ _ h => by dsimp only; omega, fun _ _ h => h⟩

/-- Only a RESTART's own reply has the restart for its owner. -/
theorem entryLaw_owner : EntryLaw (fun x => x.owner ≠ .restart) 0 := ⟨fun _ _ _ h _ => h, fun _ _ h => h⟩

/-! ### What stays in a queue with room -/

/-- An entry stands in the queue, which has room: its mark is clear, and it holds at most `n` entries. -/
abbrev State.carries (s : State) (n : Nat) (x : Entry) : Prop := s.room n ∧ x ∈ s.link.queue

variable {x : Entry}

theorem enqueue_carries {o : Owner} {t : Telegram} (h : s.carries n x) (hn : n < 8) (hr : replaces t x = false) :
    (enqueue t o s).carries (n + 1) x := by
  refine ⟨enqueue_room s t o h.1 hn, ?_⟩
  have hlen := h.1.2
  by_cases hc : s.train.mode = .config
  · rw [enqueue_config s t o hc]
    exact h.2
  · rw [enqueue_of_room s t o hc h.1.1 (by omega), State.onLink_link]
    split
    · exact List.mem_map.mpr ⟨x, h.2, by rw [hr]; rfl⟩
    · exact (mem_insertEntry _ _ _).mpr (.inr h.2)

theorem raise_carries (h : s.carries n x) (hn : n < 8) (c : Cond) (slot : Nat) (v : Int) :
    (raise c slot v s).carries (n + 1) x := by
  refine ⟨raise_room s c slot v h.1 hn, ?_⟩
  have hquiet : x ∈ (raiseQuiet c slot v s).link.queue := by simpa using h.2
  unfold raise
  dsimp only
  split
  · unfold queueConditionReport
    split
    · exact (mem_insertEntry _ _ _).mpr (.inr hquiet)
    · exact (mem_insertEntry _ _ _).mpr (.inr hquiet)
    all_goals simpa using h.2
  · exact hquiet

theorem queueCede_carries (h : s.carries n x) (hn : n < 8) : (queueCede s).carries (n + 1) x := by
  unfold queueCede
  split
  · exact ⟨h.1.mono (by omega), h.2⟩
  · exact enqueue_carries (by exact h) hn (replaces_claim x).2

theorem withdrawClaim_carries (h : s.carries n x) (hn : n < 9) (hx : x.telegram ≠ .claim) :
    (withdrawClaim s).carries n x := by
  refine ⟨withdrawClaim_room s h.1 hn, ?_⟩
  unfold withdrawClaim
  split
  · exact List.mem_filter.mpr ⟨h.2, by simp [Entry.isClaim, hx]⟩
  · exact h.2

theorem stopTests_carries (h : s.carries n x) (hn : n < 8) : (stopTests s).carries (n + 1) x := by
  have hmono : s.carries (n + 1) x := ⟨h.1.mono (by omega), h.2⟩
  unfold stopTests
  split
  · split
    · exact queueCede_carries (by exact h) hn
    · exact hmono
  · split
    · exact hmono
    · exact hmono
  all_goals exact hmono

theorem cancelTests_carries (h : s.carries n x) (hn : n < 8) (hx : x.telegram ≠ .claim) :
    (cancelTests s).carries (n + 1) x := by
  have hmono : s.carries (n + 1) x := ⟨h.1.mono (by omega), h.2⟩
  unfold cancelTests
  split
  · exact hmono
  · split
    · exact queueCede_carries (by exact h) hn
    · exact withdrawClaim_carries hmono (by omega) hx

/-- The sequencer's tests leave every entry of the queue, but for the part's CLAIM. -/
theorem sequencerReact_carries (h : s.carries n x) (hn : n < 6) (hx : x.telegram ≠ .claim) :
    (sequencerReact s).carries (n + 3) x := by
  have hstop := stopTests_carries (cancelTests_carries h (by omega) hx) (by omega)
  unfold sequencerReact claimTest
  split
  · exact enqueue_carries (by exact hstop) (by omega) (replaces_claim x).1
  · exact ⟨hstop.1.mono (by omega), hstop.2⟩

/-! ### What goes onto the line -/

theorem startFirst_eq (q : List Entry) :
    startFirst q = (q.take 1).map (fun e => { e with onLine := true }) ++ q.drop 1 := by
  cases q <;> rfl

theorem Link.sending_iff {l : Link} : l.sending = true ↔ l.join = .onLine ∨ ∃ e ∈ l.queue, e.onLine = true := by
  simp [Link.sending]

theorem Link.start_of_sending {l : Link} (h : l.sending = true) : l.start = l := if_pos h

theorem Link.start_of_idle {l : Link} (h : ¬ l.sending = true) :
    (l.state = .silent → l.start = l)
      ∧ (l.state = .active → l.start = { l with queue := startFirst l.queue })
      ∧ (l.state = .joining ∨ l.state = .fault →
          l.start = { l with join := if l.join = .waiting then .onLine else l.join }) := by
  refine ⟨fun hst => ?_, fun hst => ?_, fun hst => ?_⟩
  · simp [Link.start, h, hst]
  · simp [Link.start, h, hst]
  · have hwait : l.start = if l.join = .waiting then { l with join := .onLine } else l := by
      obtain hst | hst := hst <;> rw [Link.start, if_neg h, hst]
    rw [hwait]
    split <;> rfl

/-- Settles O35: what goes onto an idle line by link state, and what lost arbitration leaves. -/
theorem lineTaken : Obligations.LineTaken := by
  refine ⟨fun s hp hm => ?start, fun s hp => ⟨_, plain_exec hp (fun s => s.onLink Link.lose), rfl⟩⟩
  have hexec : exec .sendStart s = .next (s.onLink Link.start) := by
    have h : exec .sendStart s = execSendStart s := rfl
    rw [h, execSendStart, plain_exec hp (fun s => if s.train.mode = .config then s else s.onLink Link.start), if_neg hm]
  refine ⟨_, hexec, fun hsending => ?_, fun hj hq => ?_⟩
  · rw [State.onLink, Link.start_of_sending (Link.sending_iff.mpr hsending)]
  · have hidle : ¬ s.link.sending = true := by
      rw [Link.sending_iff]
      rintro (h | ⟨e, he, h⟩)
      · exact hj h
      · simp [hq e he] at h
    obtain ⟨hsilent, hactive, hjoin⟩ := Link.start_of_idle hidle
    refine ⟨fun hst => ?_, fun hst => ?_, fun hst => ?_⟩
    · rw [State.onLink, hsilent hst]
    · rw [State.onLink, hactive hst, startFirst_eq]
    · rw [State.onLink, hjoin hst]

/-! ### The JOIN completed -/

theorem elapsed_self (s : State) : elapsed s s.clock.index = 0 := by simp [elapsed]

theorem joinDone_eq : joinDone s
    = (s.onLink (fun l => { l with state := .active, join := .absent, joinFailures := 0 })).onTrain
        (fun t => { t with joinTime := some s.clock.index }) := by
  refine listenTest_neg ?_
  rintro ⟨-, -, j, hj, h30, -⟩
  obtain rfl : s.clock.index = j := by simpa using hj
  have hzero := elapsed_self s
  simp [elapsed] at hzero h30

/-- Settles O36: the JOIN's echo leaves the JOIN time, at which no mark of LISTEN is reached. -/
theorem joinCompletes : Obligations.JoinCompletes := by
  intro s h hj
  have hecho : echoIntact s = sequencerReact (joinDone s) := if_pos hj
  have hexec : exec .echoIntact s = .next (handAll (echoIntact s)) :=
    finished_exec h.1.1 echoIntact (by rw [hecho, joinDone_eq]; simpa using h.1.2)
  rw [hecho, joinDone_eq] at hexec
  exact ⟨_, hexec, by simp⟩

/-! ### The link out of service -/

theorem clampDemand_along {dir : Sys2Proof.Dir} {d : Int}
    (h : (dir = some .inject ∧ 0 ≤ d) ∨ (dir = some .withdraw ∧ d ≤ 0) ∨ dir = none) : clampDemand 0 dir d = 0 := by
  unfold clampDemand
  obtain ⟨rfl, h⟩ | ⟨rfl, h⟩ | rfl := h <;> dsimp only <;> split <;> simp_all [signedRate] <;> omega

theorem lowerOffer_train : (lowerOffer s).train
    = { s.train with offer := 0, share := 0, demand := clampDemand 0 s.train.offerDir s.train.demand } :=
  setDemand_train _

/-- The link taken to FAULT or SILENT, with the condition that says why, and the sequencer's reaction (R79, R151, R152). -/
def quitService (st : LinkState) (c : Cond) (v : Int) (s : State) : State :=
  sequencerReact (raise c 0 v (lowerOffer (s.onLink (·.quit st))))

theorem enterFault_eq (v : Int) : enterFault v s = quitService .fault .linkFault v s := rfl

theorem takeDuplicate_eq (h : s.link.state ≠ .silent) (kind : Nat) :
    takeDuplicate kind s = quitService .silent .dupStation kind s := if_neg h

section
variable {st : LinkState} {c : Cond} {v : Int}

@[simp] theorem quitService_frame : (quitService st c v s).acct.slots = s.acct.slots ∧ (quitService st c v s).nom = s.nom
    ∧ (quitService st c v s).dryer = s.dryer ∧ (quitService st c v s).clock = s.clock
    ∧ (quitService st c v s).peers = s.peers ∧ (quitService st c v s).powered = s.powered
    ∧ (quitService st c v s).straps = s.straps ∧ (quitService st c v s).link.state = st
    ∧ (quitService st c v s).link.join = .absent ∧ (quitService st c v s).link.restartPending = s.link.restartPending
    ∧ (quitService st c v s).link.receiveErrors = s.link.receiveErrors := by
  simp [quitService, Link.quit]

theorem quitService_train : (quitService st c v s).train
    = { s.train with offer := 0, share := 0, demand := clampDemand 0 s.train.offerDir s.train.demand } := by
  simp [quitService, lowerOffer_train]

theorem quitService_entries {P : Entry → Prop} {k : Nat} (hP : EntryLaw P k)
    (h : (s.onLink (·.quit st)).entries P k) : (quitService st c v s).entries P k :=
  sequencerReact_entries hP (raise_entries hP (h.of_link (by simp)) c 0 v)

theorem quitService_waiting : ∀ x ∈ (quitService st c v s).link.queue, x.onLine = false := by
  refine (quitService_entries entryLaw_waiting ⟨Nat.zero_le _, fun x hx => ?_⟩).2
  obtain ⟨y, -, rfl⟩ := List.mem_map.mp hx
  rfl

theorem quitService_carries (hr : s.roomy) {x : Entry} (hx : x ∈ s.link.queue) (hclaim : x.telegram ≠ .claim) :
    { x with onLine := false } ∈ (quitService st c v s).link.queue := by
  have hquit : (lowerOffer (s.onLink (·.quit st))).carries 4 x.halted := by
    have hlink : (lowerOffer (s.onLink (·.quit st))).link = s.link.quit st := by simp
    have hlen := hr.2
    refine ⟨⟨by rw [hlink]; exact hr.1, by rw [hlink]; simpa [Link.quit] using hlen⟩, ?_⟩
    rw [hlink]
    exact List.mem_map.mpr ⟨x, hx, rfl⟩
  exact (sequencerReact_carries (raise_carries hquit (by omega) c 0 v) (by omega) hclaim).2

theorem quitService_raises (hs : s.mon.sized) (hc : c ≠ .txDrop) : raisedOnce c s (quitService st c v s) := by
  have hlower : (lowerOffer (s.onLink (·.quit st))).mon = s.mon := by simp
  have hraise := raise_raisedOnce (lowerOffer (s.onLink (·.quit st))) c 0 v hc (hlower ▸ hs)
  exact raisedOnce_of_before (raisedOnce_of_reading hraise (sequencerReact_reading _ _ hc)) (by rw [hlower])

end

theorem four_mem_alertCauses : 4 ∈ alertCauses s ↔ s.link.state = .fault ∨ s.link.state = .silent := by
  simp [alertCauses]

/-- Settles O39. -/
theorem lineFaults : Obligations.LineFaults := by
  refine ⟨fun s h hsized => ?held, fun s hp => ?idle⟩
  case held =>
    have hheld : s.link.state = .joining ∨ s.link.state = .active → lineHeld s = quitService .fault .linkFault 2 s := by
      intro hst
      rw [lineHeld, if_neg h.2]
      obtain hst | hst := hst <;> rw [hst] <;> rfl
    have hstill : s.link.state = .fault ∨ s.link.state = .silent → lineHeld s = s := by
      intro hst
      rw [lineHeld, if_neg h.2]
      obtain hst | hst := hst <;> rw [hst]
    have hexec : exec .lineHeld s = .next (handAll (lineHeld s)) :=
      finished_exec h.1.1 lineHeld (by simpa using h.1.2)
    refine ⟨_, hexec, fun hst => ?_, fun hst => ?_, by simp⟩
    · rw [hstill hst]
      exact handAll_eq_handing s
    · rw [hheld hst]
      refine ⟨by simp, by simp, by simpa using quitService_waiting, by simp [quitService_train], fun hd => ?_, ?_, ?_⟩
      · simpa [quitService_train] using clampDemand_along hd
      · exact raisedOnce_of_reading (quitService_raises (st := .fault) (c := .linkFault) (v := 2) hsized (by decide))
          (by simp)
      · rw [four_mem_alertCauses]
        simp
  case idle =>
    refine ⟨_, plain_exec hp (fun s => s.onLink Link.recover), fun hst hj => ?_, fun hst => ?_⟩
    · rw [State.onLink, Link.recover, if_pos ⟨hst, hj⟩]
    · rw [State.onLink, Link.recover, if_neg (by rintro ⟨h1, h2⟩; simp [h1, h2] at hst)]

/-! ### The echo's mismatches -/

theorem enqueue_outstanding (h : s.acct.outstanding = false) (t : Telegram) (o : Owner) :
    (enqueue t o s).acct.outstanding = false := by
  have htell (x : State) (hx : x.acct.outstanding = false) (o : Owner) (t : Telegram) :
      (tellUnsent o t x).acct.outstanding = false := by
    unfold tellUnsent
    split <;> simp [hx]
  unfold enqueue
  split
  · exact h
  · split <;> simp [htell, h]

theorem queueCede_outstanding (h : s.acct.outstanding = false) : (queueCede s).acct.outstanding = false := by
  unfold queueCede
  split
  · exact h
  · exact enqueue_outstanding (by exact h) _ _

theorem sequencerReact_outstanding (h : s.acct.outstanding = false) : (sequencerReact s).acct.outstanding = false := by
  have hcancel : (cancelTests s).acct.outstanding = false := by
    unfold cancelTests
    split
    · exact h
    · split
      · exact queueCede_outstanding (by exact h)
      · unfold withdrawClaim
        split <;> exact h
  have hstop : (stopTests (cancelTests s)).acct.outstanding = false := by
    unfold stopTests
    split
    · split
      · exact queueCede_outstanding (by exact hcancel)
      · exact hcancel
    · split <;> exact hcancel
    all_goals exact hcancel
  unfold sequencerReact claimTest
  split
  · exact enqueue_outstanding (by exact hstop) _ _
  · exact hstop

section
variable {a b : List Entry} {e : Entry}

theorem State.sends.onLineEntry (h : s.sends a e b) : s.link.onLineEntry = some e := by
  obtain ⟨-, hq, he, hrest⟩ := h
  have ha : a.find? (·.onLine) = none :=
    List.find?_eq_none.mpr fun x hx => by simp [(hrest x (List.mem_append_left b hx)).1]
  simp [Link.onLineEntry, hq, List.find?_append, ha, he]

theorem State.sends.remove (h : s.sends a e b) : s.link.remove e = s.link.withQueue (a ++ b) := by
  obtain ⟨-, hq, -, hrest⟩ := h
  have hkeep (l : List Entry) (hl : ∀ x ∈ l, x ∈ a ++ b) : l.filter (fun x => x.ticket != e.ticket) = l :=
    List.filter_eq_self.mpr fun x hx => by simpa using (hrest x (hl x hx)).2
  rw [Link.remove, hq, List.filter_append, hkeep a (by simp +contextual), List.filter_cons_of_neg (by simp),
    hkeep b (by simp +contextual)]

theorem State.sends.mismatch (h : s.sends a e b) : s.link.mismatch e
    = { s.link with queue := a ++ { e with onLine := false, mismatches := e.mismatches + 1 } :: b } := by
  obtain ⟨-, hq, -, hrest⟩ := h
  have hkeep (l : List Entry) (hl : ∀ x ∈ l, x ∈ a ++ b) : l.map (fun x => if x.ticket = e.ticket then
      { x with onLine := false, mismatches := x.mismatches + 1 } else x) = l :=
    (List.map_congr_left fun x hx => if_neg (hrest x (hl x hx)).2).trans (List.map_id l)
  rw [Link.mismatch, hq, List.map_append, List.map_cons, hkeep a (by simp +contextual), if_pos rfl,
    hkeep b (by simp +contextual)]

/-- What stays of a queue whose entry on the line is taken out: it waits, under other tickets, with room where there was
room. -/
theorem State.sends.removed (h : s.sends a e b) : (∀ x ∈ (s.link.remove e).queue, x.onLine = false)
    ∧ (∀ x ∈ (s.link.remove e).queue, x.ticket ≠ e.ticket)
    ∧ (s.roomy → ∀ x ∈ a ++ b, (s.onLink (·.remove e)).carries 3 x) := by
  have hremove := State.sends.remove h
  obtain ⟨-, hq, -, hrest⟩ := h
  rw [hremove]
  refine ⟨fun x hx => (hrest x hx).1, fun x hx => (hrest x hx).2, fun hr x hx => ⟨⟨?_, ?_⟩, ?_⟩⟩
  all_goals rw [State.onLink_link, hremove]
  · have hlen := hr.2
    simp only [hq, List.length_append, List.length_cons] at hlen
    rw [Link.withQueue_mark, hr.1]
    exact refusalMarkAfter_false _ (by simp; omega)
  · have hlen := hr.2
    simp [hq] at hlen ⊢
    omega
  · exact hx

end

/-- An entry taken out at its sixteenth mismatch, its owner told and TX_FAIL raised, before a CEDE is queued again
(R145). -/
def givenUp (e : Entry) (s : State) : State :=
  raise .txFail 0 (telegramKind e.telegram) (tellUnsent e.owner e.telegram (s.onLink (·.remove e)))

theorem failEntry_eq (e : Entry) (s : State) : failEntry e s
    = if e.telegram = .cede ∧ (givenUp e s).peers.startQueue.contains (givenUp e s).station then queueCede (givenUp e s)
      else givenUp e s := rfl

section
variable {e : Entry}

@[simp] theorem failEntry_receiveErrors : (failEntry e s).link.receiveErrors = s.link.receiveErrors := by
  rw [failEntry_eq]
  split <;> simp [givenUp, Link.remove, Link.withQueue]

theorem failEntry_entries {P : Entry → Prop} {k : Nat} (hP : EntryLaw P k) (h : (s.onLink (·.remove e)).entries P k) :
    (failEntry e s).entries P k := by
  have hgiven : (givenUp e s).entries P k := raise_entries hP (h.of_link (by simp)) _ _ _
  rw [failEntry_eq]
  split
  · exact queueCede_entries hP hgiven
  · exact hgiven

theorem failEntry_carries {x : Entry} {n : Nat} (h : (s.onLink (·.remove e)).carries n x) (hn : n < 7) :
    (failEntry e s).carries (n + 2) x := by
  have hgiven : (givenUp e s).carries (n + 1) x :=
    raise_carries ⟨by simpa [State.room] using h.1, by simpa using h.2⟩ (by omega) _ _ _
  rw [failEntry_eq]
  split
  · exact queueCede_carries hgiven (by omega)
  · exact ⟨hgiven.1.mono (by omega), hgiven.2⟩

theorem failEntry_raises (hs : s.mon.sized) : raisedOnce .txFail s (failEntry e s) := by
  have hmon : (tellUnsent e.owner e.telegram (s.onLink (·.remove e))).mon = s.mon := by simp
  have hraise := raise_raisedOnce (tellUnsent e.owner e.telegram (s.onLink (·.remove e))) .txFail 0
    (telegramKind e.telegram) (by decide) (hmon ▸ hs)
  refine raisedOnce_of_before (raisedOnce_of_reading hraise ?_) (by rw [hmon])
  rw [failEntry_eq]
  split
  · exact queueCede_reading _ _ (by decide)
  · rfl

theorem failEntry_outstanding (h : e.owner = .dayCursor) : (failEntry e s).acct.outstanding = false := by
  have hgiven : (givenUp e s).acct.outstanding = false := by simp [givenUp, h, tellUnsent]
  rw [failEntry_eq]
  split
  · exact queueCede_outstanding hgiven
  · exact hgiven

end

/-- Settles O27: the duplicate's telegram, the mismatch of an entry and that of the JOIN. -/
theorem duplicatesAndMismatches : Obligations.DuplicatesAndMismatches := by
  have hcount (s : State) (h : s.atWork) : countBrokenEcho s = countReceiveError s := if_neg h.2
  have hexec (s : State) (h : s.atWork) (hf : (echoMismatch s).link.restartPending = s.link.restartPending) :
      exec .echoMismatch s = .next (handAll (echoMismatch s)) :=
    finished_exec h.1.1 echoMismatch (hf.trans h.1.2)
  refine ⟨fun s kind h hsized => ?duplicate, fun s a e b h hsized hsends => ?entry, fun s h hsized hj => ?join⟩
  case duplicate =>
    refine ⟨_, dupStation_exec h.1 (.inl h.2), fun hst => ?_, fun hst => ?_, by simp⟩
    · rw [takeDuplicate, if_pos hst]
      exact handAll_eq_handing s
    · rw [takeDuplicate_eq hst]
      refine ⟨by simp, by simp, by simpa using quitService_waiting, fun hr x hx hclaim => ?_,
        by simp [quitService_train], fun hd => ?_, ?_, ?_⟩
      · simpa using quitService_carries hr hx hclaim
      · simpa [quitService_train] using clampDemand_along hd
      · exact raisedOnce_of_reading (quitService_raises (st := .silent) (c := .dupStation) (v := kind) hsized (by decide))
          (by simp)
      · rw [four_mem_alertCauses]
        simp
  case entry =>
    have hline : s.link.onLineEntry = some e := State.sends.onLineEntry hsends
    have hmismatch : echoMismatch s = if 16 ≤ e.mismatches + 1 then sequencerReact (failEntry e (countReceiveError s))
        else (countReceiveError s).onLink (·.mismatch e) := by
      rw [echoMismatch, if_neg hsends.1, hline]
      dsimp only
      rw [hcount s h]
    have hsent : (countReceiveError s).sends a e b := hsends
    obtain ⟨hwaiting, htickets, hcarries⟩ := State.sends.removed hsent
    refine ⟨_, hexec s h (by rw [hmismatch]; split <;> simp [countReceiveError, Link.mismatch]), ?_, ?_, ?_, ?_,
      fun hfew => ?_, fun hmany => ?_⟩
    all_goals rw [hmismatch]
    · split <;> simp
    · split <;> simp
    · split <;> simp
    · split
      · simp only [handAll_frame, sequencerReact_frame, failEntry_receiveErrors]; rfl
      · simp [countReceiveError, Link.mismatch]
    · rw [if_neg (by omega), handAll_eq_handing, State.onLink, State.sends.mismatch hsent]
      rfl
    · rw [if_pos hmany]
      refine ⟨?_, ?_, fun hticket => ?_, fun hr x hx hclaim => ?_, by simp, fun hday => ?_⟩
      · have hraised := failEntry_raises (s := countReceiveError s) (e := e) hsized
        exact raisedOnce_of_reading hraised (by rw [handAll_mon]; exact sequencerReact_reading _ _ (by decide))
      · exact (handAll_entries (sequencerReact_entries entryLaw_waiting (failEntry_entries entryLaw_waiting
          ⟨Nat.zero_le _, hwaiting⟩))).2
      · exact (handAll_entries (sequencerReact_entries (entryLaw_ticket _)
          (failEntry_entries (s := countReceiveError s) (entryLaw_ticket _) ⟨hticket, htickets⟩))).2
      · have hstays := sequencerReact_carries (failEntry_carries (hcarries hr x hx) (by omega)) (by omega) hclaim
        simpa using hstays.2
      · simpa using sequencerReact_outstanding (failEntry_outstanding hday)
  case join =>
    have hmismatch : echoMismatch s = joinMismatch (countReceiveError s) := by
      rw [echoMismatch, if_pos hj, hcount s h]
    have hjoining (hst : s.link.state = .joining) : joinMismatch (countReceiveError s)
        = if 2 ≤ s.link.joinFailures then enterFault 1 ((countReceiveError s).onLink
            (fun l => { l with join := .waiting, joinFailures := l.joinFailures + 1 }))
          else (countReceiveError s).onLink (fun l => { l with join := .waiting, joinFailures := l.joinFailures + 1 }) := by
      have hst : (countReceiveError s).link.state = .joining := hst
      rw [joinMismatch, hst]
      simp [countReceiveError]
    have hother (hst : s.link.state ≠ .joining) : joinMismatch (countReceiveError s)
        = (countReceiveError s).onLink (fun l => { l with join := .absent }) := by
      have hst : (countReceiveError s).link.state ≠ .joining := hst
      unfold joinMismatch
      split
      · next hj => exact absurd hj hst
      all_goals rfl
    have hframe : (joinMismatch (countReceiveError s)).link.receiveErrors = satAdd top16 s.link.receiveErrors 1
        ∧ (joinMismatch (countReceiveError s)).link.restartPending = s.link.restartPending := by
      by_cases hst : s.link.state = .joining
      · rw [hjoining hst]
        split <;> simp [enterFault_eq, countReceiveError]
      · rw [hother hst]
        simp [countReceiveError]
    obtain ⟨herrors, hpending⟩ := hframe
    refine ⟨_, hexec s h (by rw [hmismatch, hpending]), by simp [hmismatch],
      by simp [hmismatch], by simpa [hmismatch] using herrors, fun hst hfew => ?_, fun hst hmany => ?_,
      fun hst => ?_⟩
    all_goals rw [hmismatch]
    · rw [hjoining hst, if_neg (by omega), handAll_eq_handing]
      rfl
    · rw [hjoining hst, if_pos hmany, enterFault_eq]
      refine ⟨by simp, by simp, by simp [quitService_train], by simp [quitService_train], ?_, ?_⟩
      · have hraised (f : Link → Link) := quitService_raises (s := (countReceiveError s).onLink f) (st := .fault)
          (c := .linkFault) (v := 1) hsized (by decide)
        exact raisedOnce_of_reading (hraised _) (congrArg _ (handAll_mon _))
      · rw [four_mem_alertCauses]
        simp
    · rw [hother (by simp [hst]), handAll_eq_handing]
      rfl

end Sys2Proof.Machine
end

section
/-! PROOFS. The orders for the suspense records and the condition monitor (R129, R158 to R160), and what a reply that the
transmit queue does not take leaves behind (R147, R156, R157). -/

namespace Sys2Proof.Machine

open Sys2Proof (Flow)

variable {s : State} {src dst arg litres : Nat}

/-! ### The order taken -/

theorem ordered_exec (h : s.obeys src dst) (command : Nat) (answer : State → State × Option OrderOutcome)
    (hf : (takeOrder src command arg litres answer s).link.restartPending = false) :
    ordered src dst command arg litres answer s = .next (handAll (takeOrder src command arg litres answer s)) :=
  heard_next h.1 5 (fromConsole src dst) (takeOrder src command arg litres answer)
    (by simp [fromConsole, h.2.1, h.2.2]) hf

theorem takeOrder_answered {command : Nat} {answer : State → State × Option OrderOutcome} {u : State}
    {o : OrderOutcome} (h : answer s = (u, some o)) :
    takeOrder src command arg litres answer s = replyTo .other src command arg litres o u := by
  rw [takeOrder, h]

theorem takeOrder_unanswered {command : Nat} {answer : State → State × Option OrderOutcome} {u : State}
    (h : answer s = (u, none)) : takeOrder src command arg litres answer s = u := by
  rw [takeOrder, h]

/-! ### ACCEPT and CORRECT (R129) -/

@[simp] theorem flowOfCode_flowCode (f : Flow) : flowOfCode (flowCode f) = some f := by cases f <;> rfl

theorem flowOfCode_none (h1 : arg ≠ 1) (h2 : arg ≠ 2) : flowOfCode arg = none := by
  unfold flowOfCode
  split <;> simp_all

section
variable {accept : Bool} {command : Nat} {f : Flow}

theorem answerSuspense_unknown (h : flowOfCode arg = none) :
    answerSuspense accept src command arg litres s = (s, some .refusedArg) := by
  rw [answerSuspense, h]

theorem answerSuspense_none (hf : flowOfCode arg = some f) (hr : s.intake.suspense f = none) :
    answerSuspense accept src command arg litres s = (s, some .refusedNone) := by
  rw [answerSuspense, hf]
  dsimp only
  rw [hr]

theorem answerSuspense_some {r : Suspense} (hf : flowOfCode arg = some f) (hr : s.intake.suspense f = some r) :
    answerSuspense accept src command arg litres s
      = if r.due.isSome then (s, some .refusedState)
        else (bookedLitres accept litres r).elim (s, some .refusedNone) fun v =>
          (s.onIntake (fun i => i.setSuspense f (some { r with
            due := some { console := src, command := command, arg := arg, litres := litres, book := v } })), none) := by
  rw [answerSuspense, hf]
  dsimp only
  rw [hr]
  dsimp only
  cases bookedLitres accept litres r <;> rfl

/-- An order for a suspense record is refused and changes nothing, or makes the record due and is not answered. -/
theorem answerSuspense_cases : (∃ o, answerSuspense accept src command arg litres s = (s, some o))
    ∨ ∃ f r, answerSuspense accept src command arg litres s = (s.onIntake (fun i => i.setSuspense f r), none) := by
  rcases hf : flowOfCode arg with _ | f
  · exact .inl ⟨_, answerSuspense_unknown hf⟩
  · rcases hr : s.intake.suspense f with _ | r
    · exact .inl ⟨_, answerSuspense_none hf hr⟩
    · rw [answerSuspense_some hf hr]
      split
      · exact .inl ⟨_, rfl⟩
      · cases bookedLitres accept litres r
        · exact .inl ⟨_, rfl⟩
        · exact .inr ⟨_, _, rfl⟩

end

theorem Intake.setSuspense_eq (i : Intake) (f : Flow) (r : Option Suspense) : i.setSuspense f r
    = { i with suspInject := (i.setSuspense f r).suspInject, suspWithdraw := (i.setSuspense f r).suspWithdraw } := by
  cases f <;> rfl

@[simp] theorem handAll_suspense (s : State) (f : Flow) : (handAll s).intake.suspense f = s.intake.suspense f := by
  cases f <;> simp [Intake.suspense]

/-- Settles O32, by the rows of R129. -/
theorem suspenseOrders : Obligations.SuspenseOrders := by
  intro s src dst arg litres accept h command answered
  have harm : exec (if accept then .orderAccept src dst arg litres else .orderCorrect src dst arg litres) s
      = ordered src dst command arg litres (answerSuspense accept src command arg litres) s := by cases accept <;> rfl
  have hanswered {o : OrderOutcome} (ho : answerSuspense accept src command arg litres s = (s, some o)) :
      answered (handAll (takeOrder src command arg litres (answerSuspense accept src command arg litres) s)) o := by
    rw [takeOrder_answered ho]
    exact ⟨fun hr => handed_reply_waits _ _ _ _ _ _ h.1.1.2 hr (by omega), by simp, by simp⟩
  have hf : (takeOrder src command arg litres (answerSuspense accept src command arg litres) s).link.restartPending
      = false := by
    have hsteady := h.1.1.1.2
    obtain ⟨o, ho⟩ | ⟨f, r, ho⟩ := answerSuspense_cases (accept := accept) (command := command) (s := s) (src := src)
      (arg := arg) (litres := litres)
    · rw [takeOrder_answered ho]
      simpa using hsteady
    · rw [takeOrder_unanswered ho]
      exact hsteady
  refine ⟨_, harm.trans (ordered_exec h _ _ hf), fun h1 h2 => ?arg, fun f hcode => ⟨fun hr => ?none, fun r hr =>
    ⟨fun hdue => ?due, fun hdue haccept hv => ?empty, fun v hdue hv => ?made⟩⟩, ?frame⟩
  case arg => exact hanswered (answerSuspense_unknown (flowOfCode_none h1 h2))
  case frame =>
    obtain ⟨o, ho⟩ | ⟨f, r, ho⟩ := answerSuspense_cases (accept := accept) (command := command) (s := s) (src := src)
      (arg := arg) (litres := litres)
    · rw [takeOrder_answered ho, handAll_eq_handing, replyTo_eq _ _ _ _ _ _ (by simp)]
      rfl
    · rw [takeOrder_unanswered ho, handAll_eq_handing, State.onIntake, Intake.setSuspense_eq]
      rfl
  all_goals have hflow : flowOfCode arg = some f := hcode ▸ flowOfCode_flowCode f
  case none => exact hanswered (answerSuspense_none hflow hr)
  all_goals have hsome := answerSuspense_some (accept := accept) (src := src) (command := command) (litres := litres)
              hflow hr
  case due => exact hanswered (hsome.trans (if_pos (by simpa [Option.isSome_iff_ne_none] using hdue)))
  case empty =>
    refine hanswered ?_
    rw [hsome, hdue, bookedLitres, haccept, if_pos rfl, hv]
    rfl
  case made =>
    have hbooked : bookedLitres accept litres r = some v := by
      cases accept
      · simpa [bookedLitres] using hv
      · simpa [bookedLitres] using hv
    rw [hdue, hbooked] at hsome
    rw [takeOrder_unanswered (hsome.trans (if_neg (by simp)))]
    refine ⟨by simp, ?_, ?_⟩
    · simp [Intake.setSuspense_suspense]
    · rw [handAll_suspense, State.onIntake_intake, Intake.setSuspense_suspense, if_neg (by cases f <;> decide)]

/-! ### What a queue does not take (R147) -/

section
variable {t : Telegram} {o : Owner}

theorem fateOf_unadmitted (h : ¬ s.admits) (hclass : telegramClass t = 3) (hr : ∀ e, replaces t e = false) :
    fateOf s.link t = .refused ∨ fateOf s.link t = .dropped := by
  unfold fateOf
  rw [if_neg (by simp [hr]), hclass]
  split
  · exact .inl rfl
  · next hmark =>
    have hmark : s.link.refusalMark = false := by simpa using hmark
    rw [if_neg (fun hlen => h ⟨hmark, hlen⟩), newestAbove_three]
    exact .inr rfl

theorem enqueue_unadmitted (hc : s.train.mode ≠ .config) (h : ¬ s.admits) (hclass : telegramClass t = 3)
    (hr : ∀ e, replaces t e = false) : enqueue t o s = raiseDrop t (tellUnsent o t s) := by
  unfold enqueue
  rw [if_neg hc]
  obtain hf | hf := fateOf_unadmitted h hclass hr <;> rw [hf]

theorem queueConditionReport_unadmitted (h : ¬ s.admits) (r : ConditionReport) :
    queueConditionReport r s = raiseQuiet .txDrop 0 11 s := by
  unfold queueConditionReport
  obtain hf | hf := fateOf_unadmitted (t := .condition r) h rfl (fun _ => by simp [replaces]) <;> rw [hf]

end

/-! ### CLEAR (R158) -/

/-- A monitor that has held no condition but TX_DROP since it was cleared, and at most `n` records. -/
structure Monitor.dropsAlone (m : Monitor) (n : Nat) : Prop where
  sized : m.sticky.length = 31
  flags : ∀ c, c ≠ .txDrop → m.sticky.getD (condCode c - 1) false = false
  counters : ∀ c, c ≠ .txDrop → m.counters.getD (condCode c - 1) 0 = 0
  summary : ∀ c, c ≠ .txDrop → m.summary.getD (condCode c - 1) false = false
  records : ∀ r ∈ m.exceptions, r.code = 16
  few : m.exceptions.length ≤ n
  lost : m.lostCount = 0

theorem replicate_getD_default {α : Type} (n i : Nat) (d : α) : (List.replicate n d).getD i d = d := by
  simp [List.getD_eq_getElem?_getD, List.getElem?_replicate]
  split <;> rfl

theorem Monitor.clear_dropsAlone (m : Monitor) : m.clear.dropsAlone 0 where
  sized := List.length_replicate
  flags c _ := replicate_getD_default 31 _ _
  counters c _ := replicate_getD_default 31 _ _
  summary c _ := replicate_getD_default 31 _ _
  records r hr := by cases hr
  few := Nat.le_refl 0
  lost := rfl

theorem condCode_sub_ne {c d : Cond} (h : c ≠ d) : condCode c - 1 ≠ condCode d - 1 := fun heq =>
  h (condCode_inj c d (by have := condCode_range c; have := condCode_range d; omega))

theorem Monitor.dropsAlone.count {m : Monitor} {n : Nat} (h : m.dropsAlone n) : (m.count (condCode .txDrop)).dropsAlone n where
  sized := (updateAt_length _ _ _).trans h.sized
  flags c hc := (updateAt_getD_of_ne _ _ _ _ _ (condCode_sub_ne hc.symm)).trans (h.flags c hc)
  counters c hc := (updateAt_getD_of_ne _ _ _ _ _ (condCode_sub_ne hc.symm)).trans (h.counters c hc)
  summary := h.summary
  records := h.records
  few := h.few
  lost := h.lost

theorem Monitor.dropsAlone.escalate {m : Monitor} {n : Nat} (h : m.dropsAlone n) (hn : n < 8) {r : ExceptionRecord}
    (hr : r.code = condCode .txDrop) : (m.escalate r).dropsAlone (n + 1) := by
  have hfew := h.few
  have hroom : m.exceptions.length < 8 := by omega
  rw [Monitor.escalate, if_pos hroom, hr]
  exact
    { sized := h.sized
      flags := h.flags
      counters := h.counters
      summary := fun c hc => (updateAt_getD_of_ne _ _ _ _ _ (condCode_sub_ne hc.symm)).trans (h.summary c hc)
      records := fun x hx => by
        obtain hx | hx := List.mem_append.mp hx
        · exact h.records x hx
        · rw [List.mem_singleton.mp hx, hr]; rfl
      few := by simp; omega
      lost := h.lost }

theorem raiseQuiet_dropsAlone {n : Nat} (h : s.mon.dropsAlone n) (hn : n < 8) (slot : Nat) (v : Int) :
    (raiseQuiet .txDrop slot v s).mon.dropsAlone (n + 1) := by
  unfold raiseQuiet
  split
  · exact h.count.escalate hn rfl
  · exact { h.count with few := Nat.le_succ_of_le h.few }

/-- A reply that is not admitted after a clear leaves TX_DROP alone, raised once for it and once for a report of its own
that is not admitted either. -/
theorem raise_txDrop_dropsAlone (h : s.mon.dropsAlone 0) (hadmits : ¬ s.admits) (slot : Nat) (v : Int) :
    (raise .txDrop slot v s).mon.dropsAlone 2
      ∧ (raise .txDrop slot v s).mon.sticky.getD (condCode .txDrop - 1) false = true
      ∧ (raise .txDrop slot v s).link = s.link := by
  have hset (x : State) (hx : x.mon.sticky.length = 31) (slot : Nat) (v : Int) :
      (raiseQuiet .txDrop slot v x).mon.sticky.getD (condCode .txDrop - 1) false = true := by
    rw [(raiseQuiet_flags x .txDrop slot v).1, updateAt_getD_self _ _ _ _ (by rw [hx]; decide)]
  have hquiet := raiseQuiet_dropsAlone h (by omega) slot v
  unfold raise
  dsimp only
  split
  · rw [queueConditionReport_unadmitted (by simpa [State.admits] using hadmits)]
    exact ⟨raiseQuiet_dropsAlone hquiet (by omega) _ _, hset _ hquiet.sized _ _, by simp⟩
  · exact ⟨{ hquiet with few := Nat.le_succ_of_le hquiet.few }, hset s h.sized slot v, by simp⟩

theorem seven_mem_alertCauses : 7 ∈ alertCauses s ↔ true ∈ s.mon.summary := by
  simp [alertCauses]

/-- Settles O33. -/
theorem orderClear : Obligations.OrderClear := by
  intro s src dst arg litres h
  have hc : s.train.mode ≠ .config := h.1.1.2
  refine ⟨?clear, fun command hadmits => ?unknown⟩
  case clear =>
    let u := s.onMon Monitor.clear
    have harm : exec (.orderClear src dst arg litres) s = ordered src dst 8 arg litres answerClear s := rfl
    have hexec := obeyed_exec h 8 arg litres answerClear .done u rfl h.1.1.1.2
    refine ⟨_, harm.trans hexec, fun hadmits => ?_, fun hnot => ?_, by simp [u, Monitor.clear], by simp [u, Monitor.clear],
      by simp [u, Monitor.clear], by simp [u, Monitor.clear], ?_⟩
    · have hmon : (handAll (replyTo .other src 8 arg litres .done u)).mon = s.mon.clear := by
        rw [handAll_mon, replyTo, enqueue_of_room u _ _ hc hadmits.1 hadmits.2]
        rfl
      refine ⟨?_, hmon, ?_⟩
      · rw [seven_mem_alertCauses, hmon]
        simp [Monitor.clear]
      · exact handed_reply_waits (n := 11) _ _ _ _ _ _ hc ⟨hadmits.1, Nat.le_of_lt_succ hadmits.2⟩ (by omega)
    · have hdrop : replyTo .other src 8 arg litres .done u = raise .txDrop 0 11 u :=
        enqueue_unadmitted hc hnot rfl (fun _ => by simp [replaces])
      obtain ⟨halone, hset, hlink⟩ := raise_txDrop_dropsAlone (s := u) s.mon.clear_dropsAlone hnot 0 11
      rw [hdrop]
      simp only [handAll_mon, handAll_frame]
      refine ⟨fun c => ?_, fun c hne => ⟨halone.counters c hne, halone.summary c hne⟩, halone.records, halone.lost,
        hlink⟩
      by_cases hdropped : c = .txDrop
      · rw [hdropped, hset]
        rfl
      · rw [halone.flags c hdropped]
        simp [hdropped]
    · rw [handAll_eq_handing, replyTo_eq _ _ _ _ _ _ (by simp)]
      rfl
  case unknown =>
    have harm : exec (.orderUnknownCommand src dst command arg litres) s
        = ordered src dst command arg litres (fun s => (s, some .refusedArg)) s := rfl
    have hexec := obeyed_exec h command arg litres (fun s => (s, some .refusedArg)) .refusedArg s rfl h.1.1.1.2
    refine ⟨_, harm.trans hexec, ?_, ?_⟩
    · exact handed_reply_waits (n := 11) _ _ _ _ _ _ hc ⟨hadmits.1, Nat.le_of_lt_succ hadmits.2⟩ (by omega)
    · rw [handAll_eq_handing, replyTo, enqueue_of_room s _ _ hc hadmits.1 hadmits.2]
      rfl

end Sys2Proof.Machine
end

section
/-! PROOFS. A bed taken out, put back or run out of its phase (R111, R113 to R118): its record, its charge, the bed taken
into service in its place, and the orders and the phase maxima that do it. -/

namespace Sys2Proof.Machine

open Sys2Proof (Bed Flow)

variable {s : State} {bed : Bed}

/-! ### A bed's charge (R50, R115) -/

theorem bookRegeneration_dryer (bed : Bed) (g : Nat) : (bookRegeneration (some bed) g s).dryer
    = s.dryer.onBed bed (fun r => { r with passage := List.replicate 17 0 }) := by simp [bookRegeneration]

theorem bookRegeneration_sumHeater (o : Option Bed) (g : Nat) :
    (bookRegeneration o g s).mon.sumHeater = s.mon.sumHeater + g := by cases o <;> simp [bookRegeneration]

theorem Dryer.onBed_onBed (d : Dryer) (bed : Bed) (f g : BedRecord → BedRecord) :
    (d.onBed bed f).onBed bed g = d.onBed bed (fun r => g (f r)) := by cases bed <;> rfl

theorem chargeBed_dryer : (chargeBed bed s).dryer = s.dryer.onBed bed (fun r => { r with
    accumulator := 0, passage := List.replicate 17 0
    heaterCarry := ((s.dryer.bed bed).accumulator + (s.dryer.bed bed).heaterCarry) % 1000 }) := by
  rw [chargeBed, bookRegeneration_dryer, State.onDryer_dryer, Dryer.onBed_onBed]

theorem chargeBed_sumHeater : (chargeBed bed s).mon.sumHeater
    = s.mon.sumHeater + ((s.dryer.bed bed).accumulator + (s.dryer.bed bed).heaterCarry) / 1000 := by
  rw [chargeBed, bookRegeneration_sumHeater, State.onDryer_mon]

theorem bookFuel_room {n : Nat} (h : s.room n) (hn : n < 8) (k : FuelKind) (amount : Nat) (w : List Nat) :
    (bookFuel k amount w s).room (n + 1) := by
  unfold bookFuel
  dsimp only
  split
  · exact State.room.mono (by exact h) (by omega)
  · exact raise_room _ _ _ _ (by exact h) hn

theorem chargeBed_room {n : Nat} (h : s.room n) (hn : n < 8) : (chargeBed bed s).room (n + 1) :=
  bookFuel_room (s := s.onDryer _) h hn _ _ _

theorem bookFuel_reading {c : Cond} (h : c ≠ .fuelShortfall) (hx : c ≠ .txDrop) (k : FuelKind) (amount : Nat)
    (w : List Nat) : (bookFuel k amount w s).mon.reading c = s.mon.reading c := by
  unfold bookFuel
  dsimp only
  split
  · rfl
  · exact raise_reading _ c _ _ _ h hx

theorem chargeBed_reading {c : Cond} (h : c ≠ .fuelShortfall) (hx : c ≠ .txDrop) :
    (chargeBed bed s).mon.reading c = s.mon.reading c := bookFuel_reading (s := s.onDryer _) h hx _ _ _

/-! ### A bed taken out (R116) -/

/-- A bed's record gone OUT, DEW_HIGH cleared with an ADSORBING one, before any charge or change of service (R116). -/
def outBed (bed : Bed) (s : State) : State := s.onDryer (fun d =>
  { d.onBed bed (enterOut s.cfg.dryer.capacity) with
    dewHigh := if (s.dryer.bed bed).state = .adsorbing then false else d.dewHigh })

theorem outBed_beds : (outBed bed s).dryer.bed bed = enterOut s.cfg.dryer.capacity (s.dryer.bed bed)
    ∧ (outBed bed s).dryer.bed (otherBed bed) = s.dryer.bed (otherBed bed) := by cases bed <;> exact ⟨rfl, rfl⟩

theorem takeBedOut_charges (h : (s.dryer.bed bed).state = .heating ∨ (s.dryer.bed bed).state = .cooling) :
    takeBedOut bed s = chargeBed bed (outBed bed s) := by
  obtain h | h := h <;> simp only [takeBedOut, outBed, h]

theorem takeBedOut_serving (h : (s.dryer.bed bed).state = .adsorbing) :
    takeBedOut bed s = takeBedIn (outBed bed s) := by simp only [takeBedOut, outBed, h]

theorem takeBedOut_resting (h : (s.dryer.bed bed).state = .standby ∨ (s.dryer.bed bed).state = .out) :
    takeBedOut bed s = outBed bed s := by
  obtain h | h := h <;> simp only [takeBedOut, outBed, h]

/-- With one bed OUT, the other is taken into service when it is STANDBY and the lineup is WITHDRAW (R111). -/
theorem takeBedIn_of_out (h : (s.dryer.bed bed).state = .out) : takeBedIn s
    = if (s.dryer.bed (otherBed bed)).state = .standby ∧ s.train.lineup = .withdraw
      then s.onDryer (fun d => d.onBed (otherBed bed) (fun r => { r with state := .adsorbing })) else s := by
  have hads : s.dryer.adsorbing
      = if (s.dryer.bed (otherBed bed)).state = .adsorbing then some (otherBed bed) else none := by
    cases bed <;> simp_all [Dryer.adsorbing, Dryer.bed, otherBed] <;> rfl
  have hstandby : s.dryer.standbyBed
      = if (s.dryer.bed (otherBed bed)).state = .standby then some (otherBed bed) else none := by
    cases bed <;> simp_all [Dryer.standbyBed, Dryer.bed, otherBed] <;> rfl
  rw [takeBedIn, hads, hstandby]
  by_cases hfree : (s.dryer.bed (otherBed bed)).state = .standby
  · rw [if_neg (by simp [hfree]), if_pos hfree]
    simp [hfree]
  · rw [if_neg hfree, if_neg (c := _ ∧ _) (fun hin => hfree hin.1)]
    split <;> simp_all

theorem takeBedOut_bed : ((takeBedOut bed s).dryer.bed bed).state = .out
    ∧ ((takeBedOut bed s).dryer.bed bed).loading = s.cfg.dryer.capacity
    ∧ ((takeBedOut bed s).dryer.bed bed).phaseTimer = none := by
  obtain ⟨hbed, -⟩ := outBed_beds (bed := bed) (s := s)
  cases hst : (s.dryer.bed bed).state
  case heating | cooling =>
    rw [takeBedOut_charges (by simp [hst]), chargeBed_dryer, Dryer.onBed_bed_same, hbed]
    exact ⟨rfl, rfl, rfl⟩
  case adsorbing =>
    rw [takeBedOut_serving hst, takeBedIn_of_out (bed := bed) (by rw [hbed]; rfl)]
    split
    · rw [State.onDryer_dryer, Dryer.onBed_other_bed, hbed]
      exact ⟨rfl, rfl, rfl⟩
    · rw [hbed]
      exact ⟨rfl, rfl, rfl⟩
  case standby | out =>
    rw [takeBedOut_resting (by simp [hst]), hbed]
    exact ⟨rfl, rfl, rfl⟩

theorem takeBedOut_other : (takeBedOut bed s).dryer.bed (otherBed bed) = { s.dryer.bed (otherBed bed) with
    state := if (s.dryer.bed bed).state = .adsorbing ∧ (s.dryer.bed (otherBed bed)).state = .standby
      ∧ s.train.lineup = .withdraw then .adsorbing else (s.dryer.bed (otherBed bed)).state } := by
  obtain ⟨hbed, hother⟩ := outBed_beds (bed := bed) (s := s)
  cases hst : (s.dryer.bed bed).state
  case heating | cooling =>
    rw [takeBedOut_charges (by simp [hst]), chargeBed_dryer, Dryer.onBed_bed_other, hother]
    rfl
  case adsorbing =>
    have hlineup : (outBed bed s).train.lineup = s.train.lineup := rfl
    rw [takeBedOut_serving hst, takeBedIn_of_out (bed := bed) (by rw [hbed]; rfl), hother, hlineup]
    split
    · next hin => simp [hother, hin]
    · next hin => simp [hother, hin]
  case standby | out =>
    rw [takeBedOut_resting (by simp [hst]), hother]
    rfl

theorem takeBedOut_dewHigh : (takeBedOut bed s).dryer.dewHigh
    = if (s.dryer.bed bed).state = .adsorbing then false else s.dryer.dewHigh := by
  have hout : (outBed bed s).dryer.dewHigh = if (s.dryer.bed bed).state = .adsorbing then false else s.dryer.dewHigh := by
    simp [outBed]
  obtain ⟨hbed, -⟩ := outBed_beds (bed := bed) (s := s)
  rw [← hout]
  cases hst : (s.dryer.bed bed).state
  case heating | cooling => rw [takeBedOut_charges (by simp [hst]), chargeBed_dryer]; simp
  case adsorbing =>
    rw [takeBedOut_serving hst, takeBedIn_of_out (bed := bed) (by rw [hbed]; rfl)]
    split <;> simp
  case standby | out => rw [takeBedOut_resting (by simp [hst])]

theorem takeBedOut_slots (h : (s.dryer.bed bed).state = .standby ∨ (s.dryer.bed bed).state = .adsorbing) :
    (takeBedOut bed s).acct.slots = s.acct.slots := by
  obtain h | h := h
  · rw [takeBedOut_resting (.inl h)]
    rfl
  · rw [takeBedOut_serving h]
    simp [outBed]

/-- A HEATING or COOLING bed that goes OUT is charged by its own accumulator and carry (R115). -/
theorem takeBedOut_charged (h : (s.dryer.bed bed).state = .heating ∨ (s.dryer.bed bed).state = .cooling) :
    charged s (takeBedOut bed s) bed := by
  obtain ⟨hbed, -⟩ := outBed_beds (bed := bed) (s := s)
  rw [takeBedOut_charges h, charged, chargeBed_dryer, chargeBed_sumHeater, Dryer.onBed_bed_same, hbed]
  exact ⟨rfl, rfl, rfl, rfl⟩

theorem takeBedOut_room {n : Nat} (h : s.room n) (hn : n < 8) : (takeBedOut bed s).room (n + 1) := by
  cases hst : (s.dryer.bed bed).state
  case heating | cooling =>
    rw [takeBedOut_charges (by simp [hst])]
    exact chargeBed_room (by exact h) hn
  case adsorbing =>
    rw [takeBedOut_serving hst]
    exact State.room.mono (by simpa [State.room, outBed] using h) (by omega : n ≤ n + 1)
  case standby | out =>
    rw [takeBedOut_resting (by simp [hst])]
    exact State.room.mono (by exact h) (by omega : n ≤ n + 1)

theorem takeBedOut_reading {c : Cond} (h : c ≠ .fuelShortfall) (hx : c ≠ .txDrop) :
    (takeBedOut bed s).mon.reading c = s.mon.reading c := by
  cases hst : (s.dryer.bed bed).state
  case heating | cooling =>
    rw [takeBedOut_charges (by simp [hst]), chargeBed_reading h hx]
    rfl
  case adsorbing =>
    rw [takeBedOut_serving hst]
    simp [outBed]
  case standby | out =>
    rw [takeBedOut_resting (by simp [hst])]
    rfl

/-! ### The demand held -/

theorem applyHold_train : (applyHold s).train = { s.train with demand := if s.demandHeld then 0 else s.train.demand } := by
  unfold applyHold
  split <;> simp [setDemand_train]

/-- A withdrawing train without a bed in service is held at 0 (R70). -/
theorem demandHeld_of_no_bed (hm : s.train.mode = .withdraw) (hl : s.train.lineup = .withdraw)
    (hbeds : ∀ x, (s.dryer.bed x).state ≠ .adsorbing) : s.demandHeld = true := by
  simp [State.demandHeld, hm, hl, Dryer.adsorbing_eq_none.mpr hbeds, modeFlow]

/-! ### The orders (R116, R117) -/

@[simp] theorem bedOfCode_bedCode (bed : Bed) : bedOfCode (bedCode bed) = some bed := by cases bed <;> rfl

theorem bedOfCode_none {arg : Nat} (h1 : arg ≠ 1) (h2 : arg ≠ 2) : bedOfCode arg = none := by
  unfold bedOfCode
  split <;> simp_all

theorem Dryer.heater_iff (d : Dryer) (bed : Bed) :
    d.heater = true ↔ (d.bed bed).state = .heating ∨ (d.bed (otherBed bed)).state = .heating := by
  cases bed <;> simp [Dryer.heater, Dryer.bed, otherBed, or_comm]

/-- The field of a bed's valve (R106). -/
def Setpoint.valve (p : Setpoint) : Bed → Valve
  | .a => p.valveA
  | .b => p.valveB

theorem handAll_valve (bed : Bed) : (handAll s).intake.handed.valve bed = valveOf (s.dryer.bed bed).state := by
  rw [handAll_handed]
  cases bed <;> rfl

theorem handAll_heater : (handAll s).intake.handed.heater = s.dryer.heater := by rw [handAll_handed]; rfl

/-- Settles O31, by the rows of R116 and R117. -/
theorem bedOrders : Obligations.BedOrders := by
  refine ⟨fun s src dst arg litres h => ?out, fun s src dst arg litres h => ?putBack⟩
  case out =>
    have harm : exec (.orderBedOut src dst arg litres) s = ordered src dst 4 arg litres (answerBedOut arg) s := rfl
    have hexec {u : State} {o : OrderOutcome} (hu : answerBedOut arg s = (u, some o))
        (hf : u.link.restartPending = s.link.restartPending) :
        exec (.orderBedOut src dst arg litres) s = .next (handAll (replyTo .other src 4 arg litres o u)) :=
      harm.trans (obeyed_exec h 4 arg litres _ o u hu (hf.trans h.1.1.1.2))
    have hreply {u : State} (o : OrderOutcome) (hm : u.train.mode = s.train.mode) (hr : s.roomy → u.room 5)
        (hroom : s.roomy) : (handAll (replyTo .other src 4 arg litres o u)).waits
          (.reply { console := src, command := 4, arg := arg, litres := litres, outcome := o }) :=
      handed_reply_waits _ _ _ _ _ _ (hm ▸ h.1.1.2) (hr hroom) (by omega)
    have hroom5 (hroom : s.roomy) : s.room 5 := State.room.mono (n := 4) hroom (by omega)
    rcases hcode : bedOfCode arg with _ | bed
    · have hu : answerBedOut arg s = (s, some .refusedArg) := by rw [answerBedOut, hcode]
      refine ⟨_, _, hexec hu rfl, hreply _ rfl hroom5, fun _ _ => ⟨rfl, by simp⟩, fun bed hbed => ?_, by simp⟩
      rw [← hbed, bedOfCode_bedCode] at hcode
      cases hcode
    · have hu : answerBedOut arg s
          = (if (s.dryer.bed bed).state = .out then s else applyHold (takeBedOut bed s), some .done) := by
        rw [answerBedOut, hcode]
      have hknown : bedCode bed = arg := by
        unfold bedOfCode at hcode
        split at hcode <;> cases hcode <;> rfl
      have hroom (hroom : s.roomy) :
          (if (s.dryer.bed bed).state = .out then s else applyHold (takeBedOut bed s)).room 5 := by
        split
        · exact hroom5 hroom
        · simpa [State.room] using takeBedOut_room (bed := bed) hroom (by omega)
      refine ⟨_, _, hexec hu (by split <;> simp), hreply _ (by split <;> simp) hroom, fun h1 h2 => ?_, fun x hx => ?_, ?_⟩
      · rw [bedOfCode_none h1 h2] at hcode
        cases hcode
      · obtain rfl : x = bed := by
          rw [← hx, bedOfCode_bedCode] at hcode
          simpa using hcode
        refine ⟨rfl, fun hst => by simp [hst], fun hst => ?_⟩
        rw [if_neg hst]
        obtain ⟨hstate, hloading, htimer⟩ := takeBedOut_bed (bed := x) (s := s)
        have hother := takeBedOut_other (bed := x) (s := s)
        have hvalve := handAll_valve (s := replyTo .other src 4 arg litres .done (applyHold (takeBedOut x s))) x
        simp only [replyTo_frame, applyHold_frame, hstate] at hvalve
        simp only [handAll_heater, handAll_frame, replyTo_frame, applyHold_frame, hstate, hloading, htimer]
        refine ⟨trivial, trivial, trivial, by cases x <;> exact hvalve, ?_, hother, takeBedOut_dewHigh, fun hphase => ?_,
          takeBedOut_slots, fun hm hl hno => ?_⟩
        · rw [Dryer.heater_iff _ x, hstate, hother]
          dsimp only
          split
          · next hin => simp [hin]
          · simp
        · simpa [charged] using takeBedOut_charged hphase
        · rw [applyHold_train, if_pos (demandHeld_of_no_bed (by simpa using hm) (by simpa using hl) fun y => ?_)]
          obtain rfl | rfl := bed_eq_or_other x y
          · simp [hstate]
          · exact hno
      · split
        · simp
        · simp [applyHold_train]
  case putBack =>
    have harm : exec (.orderBedIn src dst arg litres) s = ordered src dst 5 arg litres (answerBedIn arg) s := rfl
    have hexec {u : State} {o : OrderOutcome} (hu : answerBedIn arg s = (u, some o))
        (hf : u.link.restartPending = s.link.restartPending) :
        exec (.orderBedIn src dst arg litres) s = .next (handAll (replyTo .other src 5 arg litres o u)) :=
      harm.trans (obeyed_exec h 5 arg litres _ o u hu (hf.trans h.1.1.1.2))
    have hframe (u : State) (o : OrderOutcome) (hu : u = { s with dryer := u.dryer }) :
        handAll (replyTo .other src 5 arg litres o u)
          = { s with dryer := (handAll (replyTo .other src 5 arg litres o u)).dryer
                     link := (handAll (replyTo .other src 5 arg litres o u)).link
                     mon := (handAll (replyTo .other src 5 arg litres o u)).mon
                     intake := s.intake.handing (handAll (replyTo .other src 5 arg litres o u)).intake } := by
      rw [handAll_eq_handing, replyTo_eq _ _ _ _ _ _ (by simp), hu]
      rfl
    rcases hcode : bedOfCode arg with _ | bed
    · have hu : answerBedIn arg s = (s, some .refusedArg) := by rw [answerBedIn, hcode]
      refine ⟨_, _, hexec hu rfl, fun hr => handed_reply_waits _ _ _ _ _ _ h.1.1.2 hr (by omega), fun _ _ => ⟨rfl, by simp⟩,
        fun bed hbed => ?_, hframe s _ rfl⟩
      rw [← hbed, bedOfCode_bedCode] at hcode
      cases hcode
    · let may := (s.dryer.bed bed).state = .out ∧ (s.dryer.bed (otherBed bed)).state ≠ .heating
      have hbed {x : Bed} (hx : bedCode x = arg) : x = bed := by
        rw [← hx, bedOfCode_bedCode] at hcode
        simpa using hcode
      have hunknown {p : Prop} (h1 : arg ≠ 1) (h2 : arg ≠ 2) : p := by
        rw [bedOfCode_none h1 h2] at hcode
        cases hcode
      by_cases hmay : may
      · let u := s.onDryer (fun d => d.onBed bed enterHeating)
        have hu : answerBedIn arg s = (u, some .done) := by
          rw [answerBedIn, hcode]
          exact if_pos hmay
        refine ⟨_, _, hexec hu rfl, fun hr => handed_reply_waits _ _ _ _ _ _ h.1.1.2 hr (by omega),
          fun h1 h2 => hunknown h1 h2, fun x hx => ⟨fun _ => ?_, fun hnot => ?_⟩, hframe u _ rfl⟩
        · obtain rfl := hbed hx
          have hvalve := handAll_valve (s := replyTo .other src 5 arg litres .done u) x
          have hstate : ((replyTo .other src 5 arg litres .done u).dryer.bed x).state = .heating := by
            simp [u, enterHeating]
          rw [hstate] at hvalve
          refine ⟨rfl, by simp [u, enterHeating], by cases x <;> exact hvalve, ?_, by simp [u], by simp [u]⟩
          rw [handAll_heater, Dryer.heater_iff _ x]
          exact .inl hstate
        · obtain rfl := hbed hx
          exact absurd hmay hnot
      · have hu : answerBedIn arg s = (s, some .refusedState) := by
          rw [answerBedIn, hcode]
          exact if_neg hmay
        refine ⟨_, _, hexec hu rfl, fun hr => handed_reply_waits _ _ _ _ _ _ h.1.1.2 hr (by omega),
          fun h1 h2 => hunknown h1 h2, fun x hx => ⟨fun hyes => ?_, fun _ => ⟨rfl, by simp⟩⟩, hframe s _ rfl⟩
        obtain rfl := hbed hx
        exact absurd hyes hmay

/-! ### The phase maxima (R113, R114) -/

theorem settle_dryer (s : State) : (settle s).dryer = s.dryer := by simp [settle]

theorem settle_eq (s : State) : settle s = handAll (applyHold (sequencerReact s)) := rfl

theorem phaseExpiry_over {phase : BedState} {limit n : Nat} (hm : s.train.mode ≠ .config)
    (hst : (s.dryer.bed bed).state = phase) (ht : (s.dryer.bed bed).phaseTimer = some n) (h : limit * 60 ≤ n) :
    phaseExpiry bed phase limit s = bedFault bed s := if_pos ⟨hm, hst, by rw [ht]; exact h⟩

theorem phaseExpiry_short {phase : BedState} {limit : Nat}
    (h : (s.dryer.bed bed).state = phase → (s.dryer.bed bed).phaseTimer.getD 0 < limit * 60) :
    phaseExpiry bed phase limit s = s := if_neg fun ⟨_, hst, hover⟩ => absurd (h hst) (by omega)

theorem bedFault_raises (hs : s.mon.sized) : raisedOnce .bedFault s (bedFault bed s) :=
  raisedOnce_of_reading (raise_raisedOnce s .bedFault 0 (bedCode bed) (by decide) hs)
    (takeBedOut_reading (by decide) (by decide))

/-- Settles O49. -/
theorem phaseMaxima : Obligations.PhaseMaxima := by
  intro s bed c phase limit h hsized hc
  have hphase : phase = .heating ∨ phase = .cooling := by
    obtain ⟨-, rfl, -⟩ | ⟨-, rfl, -⟩ := hc <;> simp
  have hexec : exec c s = .next (settle (phaseExpiry bed phase limit s)) := by
    obtain ⟨rfl, rfl, rfl⟩ | ⟨rfl, rfl, rfl⟩ := hc
    · exact timed_exec h.1 (fun s => phaseExpiry bed .heating s.cfg.dryer.heatMaximum s) (by simpa using h.1.2)
    · exact timed_exec h.1 (fun s => phaseExpiry bed .cooling s.cfg.dryer.coolMaximum s) (by simpa using h.1.2)
  have hstill (hshort : phaseExpiry bed phase limit s = s) :
      (settle (phaseExpiry bed phase limit s)).dryer = s.dryer
        ∧ (settle (phaseExpiry bed phase limit s)).acct.slots = s.acct.slots := by
    rw [hshort]
    simp [settle]
  have hraise : (raise .bedFault 0 (bedCode bed) s).dryer = s.dryer := by simp
  refine ⟨_, hexec, ?other, ?dewHigh, by simp [settle], by simp [settle], by simp [settle], fun n hst ht => ⟨fun hover => ?expired,
    fun hshort => hstill (phaseExpiry_short fun _ => by rw [ht]; exact hshort)⟩,
    fun hne => hstill (phaseExpiry_short fun hst => absurd hst hne)⟩
  case other =>
    rw [settle_dryer]
    unfold phaseExpiry
    split
    · next hover =>
      obtain ⟨-, hst, -⟩ := hover
      rw [bedFault, takeBedOut_other, hraise, if_neg (by rw [hst]; obtain rfl | rfl := hphase <;> simp)]
    · rfl
  case dewHigh =>
    rw [settle_dryer]
    unfold phaseExpiry
    split
    · next hover =>
      obtain ⟨-, hst, -⟩ := hover
      rw [bedFault, takeBedOut_dewHigh, hraise, if_neg (by rw [hst]; obtain rfl | rfl := hphase <;> simp)]
    · rfl
  case expired =>
    rw [phaseExpiry_over h.2 hst ht hover]
    obtain ⟨hout, hloading, htimer⟩ := takeBedOut_bed (bed := bed) (s := raise .bedFault 0 (bedCode bed) s)
    have hcharged : charged (raise .bedFault 0 (bedCode bed) s) (bedFault bed s) bed :=
      takeBedOut_charged (by rw [hraise, hst]; exact hphase)
    refine ⟨by rw [settle_dryer]; exact hout, ?_, by rw [settle_dryer]; exact htimer, ?_, ?_⟩
    · rw [settle_dryer, bedFault, hloading]
      simp [State.cfg]
    · simpa [charged, settle] using hcharged
    · exact raisedOnce_of_reading (bedFault_raises hsized) (settle_reading _ _ (by decide))

end Sys2Proof.Machine
end

section
/-! PROOFS. The events of the timers (R57, R65, R89, R92 to R99, R124, R128): each mark's own work and the settling of the
event behind it. -/

namespace Sys2Proof.Machine

open Sys2Proof (Flow Instr)

variable {s : State} {n : Nat}

/-! ### The settling of a timer's event -/

@[simp] theorem settle_link : (settle s).link = (sequencerReact s).link := by simp [settle]

@[simp] theorem settle_mon : (settle s).mon = (sequencerReact s).mon := by simp [settle]

theorem settle_comp : (settle s).comp = { (sequencerReact s).comp with zeroDemand := (settle s).comp.zeroDemand } := by
  have happly (u : State) : (applyHold u).comp = { u.comp with zeroDemand := (applyHold u).comp.zeroDemand } := by
    unfold applyHold
    split
    · unfold setDemand
      rfl
    · rfl
  rw [settle, handAll_comp, happly]

theorem settle_waits {m : Telegram} : (settle s).waits m ↔ (sequencerReact s).waits m := by
  rw [State.waits, settle_link, State.waits]

theorem settle_train : (settle s).train = { s.train with demand := (settle s).train.demand } := by
  simp [settle, applyHold_train]

/-- A train that neither flows nor ramps has no demand to hold (R70). -/
theorem settle_train_of_calm (hm : modeFlow s.train.mode = none) (hr : s.train.mode ≠ .reversing) :
    (settle s).train = s.train := by
  have hheld : (sequencerReact s).demandHeld = false := by simp [State.demandHeld, hm, hr]
  rw [settle, handAll_train, applyHold_train, if_neg (by simp [hheld])]
  simp

theorem settle_intake : (settle s).intake = s.intake.handing (settle s).intake := by
  rw [settle, handAll_intake]
  simp

/-- With room in the queue the sequencer's tests raise nothing. -/
theorem enqueue_mon (h : s.room n) (hn : n < 12) (t : Telegram) (o : Owner) : (enqueue t o s).mon = s.mon := by
  have hlen := h.2
  by_cases hc : s.train.mode = .config
  · rw [enqueue_config s t o hc]
  · rw [enqueue_of_room s t o hc h.1 (by omega)]
    rfl

theorem queueCede_mon (h : s.room n) (hn : n < 12) : (queueCede s).mon = s.mon := by
  unfold queueCede
  split
  · rfl
  · exact enqueue_mon (by exact h) hn _ _

theorem withdrawClaim_mon : (withdrawClaim s).mon = s.mon := by
  unfold withdrawClaim
  split <;> rfl

theorem sequencerReact_mon (h : s.room n) (hn : n < 6) : (sequencerReact s).mon = s.mon := by
  have hcancel : (cancelTests s).mon = s.mon ∧ (cancelTests s).room (n + 1) := by
    have hmono : s.room (n + 1) := h.mono (by omega)
    unfold cancelTests
    split
    · exact ⟨rfl, hmono⟩
    · split
      · exact ⟨queueCede_mon (s := s.onComp _) h (by omega), queueCede_room (s := s.onComp _) h (by omega)⟩
      · exact ⟨withdrawClaim_mon, withdrawClaim_room s hmono (by omega)⟩
  obtain ⟨hmon, hroom⟩ := hcancel
  have hstop : (stopTests (cancelTests s)).mon = s.mon ∧ (stopTests (cancelTests s)).room (n + 2) := by
    have hmono : (cancelTests s).room (n + 2) := hroom.mono (by omega)
    unfold stopTests
    split
    · split
      · exact ⟨(queueCede_mon (s := (cancelTests s).onComp _) hroom (by omega)).trans hmon,
          queueCede_room (s := (cancelTests s).onComp _) hroom (by omega)⟩
      · exact ⟨hmon, hmono⟩
    · split
      · exact ⟨hmon, hmono⟩
      · exact ⟨hmon, hmono⟩
    all_goals exact ⟨hmon, hmono⟩
  unfold sequencerReact claimTest
  split
  · exact (enqueue_mon (s := (stopTests (cancelTests s)).onComp _) hstop.2 (by omega) _ _).trans hstop.1
  · exact hstop.1

/-! ### The intake's marks (R65, R124, R128) -/

theorem raise_settles {c : Cond} {slot : Nat} {v : Int} {f : Intake → Intake} (hs : s.mon.sized) (hc : c ≠ .txDrop) :
    raisedOnce c s (settle (raise c slot v (s.onIntake f))) :=
  raisedOnce_of_reading (raise_raisedOnce (s.onIntake f) c slot v hc hs) (settle_reading _ _ hc)

theorem settle_quiet {c : Cond} (hc : c ≠ .txDrop) : (settle s).intake = s.intake.handing (settle s).intake
    ∧ notRaised c s (settle s) ∧ (s.roomy → (settle s).mon = s.mon) :=
  ⟨settle_intake, notRaised_iff.mpr (settle_reading s c hc), fun hr => by rw [settle_mon, sequencerReact_mon hr (by omega)]⟩

theorem fieldLostMode_eq (hc : s.train.mode ≠ .config) (hh : s.train.mode ≠ .hold) (hs : s.train.mode ≠ .shutIn) :
    fieldLostMode s = enterHold s := by
  unfold fieldLostMode
  split <;> simp_all

theorem fieldLostMode_still (h : s.train.mode = .config ∨ s.train.mode = .hold ∨ s.train.mode = .shutIn) :
    fieldLostMode s = s := by
  obtain h | h | h := h <;> rw [fieldLostMode, h]

theorem fieldLostMode_reading {c : Cond} (hc : c ≠ .txDrop) : (fieldLostMode s).mon.reading c = s.mon.reading c := by
  unfold fieldLostMode
  split
  all_goals (try rfl)
  all_goals exact (enqueue_reading _ _ _ _ hc).trans (by simp)

theorem three_mem_alertCauses : 3 ∈ alertCauses s ↔ s.intake.fieldLost = true := by
  simp [alertCauses]

theorem Intake.setSuspense_handing (i j : Intake) (f : Flow) (r : Option Suspense) :
    (i.setSuspense f r).handing j = (i.handing j).setSuspense f r := by cases f <;> rfl

theorem Intake.handing_setSuspense (i j : Intake) (f : Flow) (r : Option Suspense) :
    i.handing (j.setSuspense f r) = i.handing j := by cases f <;> rfl

/-- Settles O44. -/
theorem intakeTimers : Obligations.IntakeTimers := by
  intro s h hsized
  refine ⟨?late, ?lost, fun f => ?old⟩
  case late =>
    refine ⟨_, timed_exec h fieldLateTest (by simpa using h.2), by simp, by simp, by simp, fun hmark => ?_, fun hnot => ?_⟩
    all_goals rw [← settle_eq]
    · rw [fieldLateTest, if_pos hmark]
      refine ⟨raise_settles hsized (by decide), ?_⟩
      rw [settle_intake]
      simp [Intake.handing]
    · rw [fieldLateTest, if_neg hnot]
      exact settle_quiet (by decide)
  case lost =>
    refine ⟨_, timed_exec h fieldLostTest (by simpa using h.2), by simp, by simp, fun hnot => ?_, fun hmark => ?_⟩
    all_goals rw [← settle_eq]
    · rw [fieldLostTest, if_neg hnot]
      obtain ⟨hintake, hquiet, hmon⟩ := settle_quiet (s := s) (c := .fieldLost) (by decide)
      exact ⟨hintake, hquiet, hmon, by rw [settle_train]⟩
    · rw [fieldLostTest, if_pos hmark]
      let u := raise .fieldLost 0 30 (s.onIntake (fun i => { i with fieldLost := true }))
      have hu : u.train = s.train ∧ u.clock = s.clock ∧ u.nom = s.nom := by simp [u]
      have hlost : (settle (fieldLostMode u)).intake
          = { s.intake.handing (settle (fieldLostMode u)).intake with fieldLost := true } := by
        rw [settle_intake]
        simp [u, Intake.handing]
      have hraised : raisedOnce .fieldLost s (settle (fieldLostMode u)) :=
        raisedOnce_of_reading (raise_raisedOnce (s.onIntake _) .fieldLost 0 30 (by decide) hsized)
          ((settle_reading _ _ (by decide)).trans (fieldLostMode_reading (by decide)))
      refine ⟨hlost, hraised, ?_, fun hm => ?_, fun hc hh hshut => ?_⟩
      · rw [three_mem_alertCauses, hlost]
      · rw [settle_train, fieldLostMode_still (by rw [hu.1]; exact hm), hu.1]
      · have hhold : fieldLostMode u = enterHold u := fieldLostMode_eq (by rwa [hu.1]) (by rwa [hu.1]) (by rwa [hu.1])
        have htrain := enterHold_train_eq u
        rw [hhold]
        refine ⟨?_, fun hr => ⟨u.comp.unit, ?_⟩⟩
        · rw [settle_train_of_calm (by rw [htrain]; rfl) (by simp [htrain, stopTrain_train]), htrain, stopTrain_train]
          simp [hu]
        · have hroom : u.room 5 := raise_room (s.onIntake _) _ _ _ (by exact hr) (by omega)
          have hstop : (stopTrain .hold u).room 5 := by simpa [State.room] using hroom
          have hoffer : offerTelegram (stopTrain .hold u)
              = .offer s.train.offerDir 0 0 s.nom.target .hold u.comp.unit := by
            simp [offerTelegram, stopTrain_train, hu]
          have hwaits := enqueue_self_waits (stopTrain .hold u) (offerTelegram (stopTrain .hold u)) .other
            (by simp [stopTrain_train]) hstop (by omega)
          rw [settle_waits, ← hoffer]
          exact sequencerReact_keeps ⟨enqueue_room _ _ _ hstop (by omega), hwaits⟩ (by omega) (by rw [hoffer]; simp)
  case old =>
    refine ⟨_, timed_exec h (suspenseOldTest f) (by simpa using h.2), by simp, by simp, by simp, fun r hr hmark => ?_,
      fun hnot => ?_⟩
    all_goals rw [← settle_eq]
    · have htest : suspenseOldTest f s = raise .suspenseOld 0 (flowCode f)
          (s.onIntake (fun i => i.setSuspense f (some { r with oldRaised := true }))) := by
        rw [suspenseOldTest, hr]
        exact if_pos hmark
      rw [htest]
      refine ⟨raise_settles hsized (by decide), ?_⟩
      rw [settle_intake]
      simp [Intake.setSuspense_handing, Intake.handing_setSuspense]
    · have htest : suspenseOldTest f s = s := by
        rcases hr : s.intake.suspense f with _ | r
        · rw [suspenseOldTest, hr]
        · rw [suspenseOldTest, hr]
          exact if_neg (hnot r hr)
      rw [htest]
      exact settle_quiet (by decide)

/-! ### The marks of LISTEN (R57) -/

/-- Settles O45. -/
theorem listenMarks : Obligations.ListenMarks := by
  intro s c h hc
  have hexec : exec c s = .next (settle (listenTest s)) := by
    obtain rfl | rfl := hc <;> exact timed_exec h listenTest (by simpa using h.2)
  refine ⟨_, hexec, fun hover => ?_, fun hnot => ?_, by simp [settle]⟩
  · rw [listenTest_pos hover]
    exact settle_train_of_calm rfl (by simp)
  · rw [listenTest_neg hnot]
    exact settle_train

/-! ### The sequencer's timers (R89, R92 to R99) -/

/-- Settles O46. -/
theorem runTimers : Obligations.RunTimers := by
  refine ⟨fun s n h hsized hunit htimer => ?start, fun s c h hc hunit => ?run⟩
  case start =>
    refine ⟨_, timed_exec h.1 timeOutStart (by simpa using h.1.2), by simp, by simp, by simp, fun hover => ?_,
      fun hshort hm => ?_⟩
    all_goals rw [← settle_eq]
    · let u := raise .startTimeout 0 180 (s.onComp (·.toStopping))
      have htimeout : timeOutStart s = queueCede u := if_pos ⟨hunit, by rw [htimer]; exact hover⟩
      have hcomp : u.comp = s.comp.toStopping := by simp [u]
      have hcede : (queueCede u).comp = { s.comp.toStopping with cedePending := (queueCede u).comp.cedePending } := by
        rw [queueCede_comp, hcomp]
      have hstill : (sequencerReact (queueCede u)).comp
          = { (queueCede u).comp with claimInFlight := (sequencerReact (queueCede u)).comp.claimInFlight } :=
        sequencerReact_still (by rw [hcede]; simp)
      rw [htimeout, settle_comp, hstill]
      refine ⟨?_, ?_, ?_, ?_, ?_, fun hpending hr => ?_⟩
      · rw [hcede]; rfl
      · rw [hcede]; rfl
      · rw [hcede]; rfl
      · rw [hcede]; rfl
      · exact raisedOnce_of_reading (raise_raisedOnce (s.onComp _) .startTimeout 0 180 (by decide) hsized)
          ((settle_reading _ _ (by decide)).trans (queueCede_reading _ _ (by decide)))
      · have hroom : u.room 5 := raise_room (s.onComp _) _ _ _ (by exact hr) (by omega)
        obtain ⟨hset, hwaits⟩ := queueCede_of_room (s := u) (by simpa [u] using h.2) hroom (by omega)
          (by rw [hcomp]; simpa [Compressor.toStopping] using hpending)
        refine ⟨hset, ?_⟩
        rw [settle_waits]
        exact sequencerReact_keeps ⟨queueCede_room _ hroom (by omega), hwaits⟩ (by omega) (by simp)
    · have htimeout : timeOutStart s = s := if_neg fun ⟨_, hlong⟩ => by
        rw [htimer] at hlong
        exact absurd hlong (by simpa using hshort)
      rw [htimeout, settle_comp, sequencerReact_starting hunit hm]
      exact ⟨hunit, htimer⟩
  case run =>
    have hexec : exec c s = .next (settle s) := by
      obtain rfl | rfl := hc <;> exact timed_exec h (fun s => s) h.2
    obtain ⟨hstop, hrun, -⟩ := sequencerReact_running hunit
    refine ⟨_, hexec, by simp [settle], by simp [settle], by simp [settle], fun hdue => ?_, fun hnot => ?_⟩
    · rw [settle_comp]
      exact hstop hdue
    · rw [settle_comp]
      exact hrun hnot

/-- Settles O47. -/
theorem stopTimers : Obligations.StopTimers := by
  refine ⟨fun s h hunit => ?tripped, fun s c h hc hunit => ?stopped⟩
  case tripped =>
    intro may
    have htest : autoRestart s = if may then s.onComp (·.setUnit .stopped) else s := by
      by_cases hmay : may
      · rw [if_pos hmay]
        exact if_pos ⟨hunit, hmay⟩
      · rw [if_neg hmay]
        exact if_neg fun hall => hmay hall.2
    have hstill : (sequencerReact (autoRestart s)).comp = { (autoRestart s).comp with
        claimInFlight := (sequencerReact (autoRestart s)).comp.claimInFlight } := by
      refine sequencerReact_still ?_
      rw [htest]
      split <;> simp [hunit]
    refine ⟨_, timed_exec h autoRestart (by simpa using h.2), fun hmay => ?_, fun hnot => ?_, ?_, by simp, by simp, by simp⟩
    all_goals rw [← settle_eq, settle_comp, hstill, htest]
    · rw [if_pos hmay]; rfl
    · rw [if_neg hnot]; exact hunit
    · split <;> rfl
  case stopped =>
    have hauto : autoRestart s = s := if_neg fun hall => by simp [hunit] at hall
    have hexec : exec c s = .next (settle s) := by
      obtain rfl | rfl := hc
      · have hstep := timed_exec h autoRestart (by rw [hauto]; exact h.2)
        rw [hauto] at hstep
        exact hstep
      · exact timed_exec h (fun s => s) h.2
    refine ⟨_, hexec, ?_, by simp [settle], by simp [settle], by simp [settle], by simp [settle], fun hdue hr => ?_,
      fun hnot hflight => ?_⟩
    · rw [settle_comp, sequencerReact_still (.inl hunit)]
      exact hunit
    · have hm : s.train.mode ≠ .config := by
        obtain ⟨⟨hm, -⟩, -⟩ := hdue
        obtain hm | hm := hm <;> simp [hm]
      obtain ⟨hset, hwaits⟩ := queueClaim_of_room hm hr (by omega)
      rw [settle_comp, settle_waits, sequencerReact_due hdue]
      exact ⟨hset, hwaits⟩
    · rw [settle_comp, settle_link, sequencerReact_not_due (.inl hunit) hflight hnot]
      exact ⟨hflight, rfl⟩

/-- The part's own QUEUED entry taken out of the copy stops the unit (R92). -/
theorem removeFromCopy_own_stops (hmem : s.station ∈ s.peers.startQueue) (hu : s.comp.unit = .queued) :
    (removeFromCopy s.station s).comp.unit = .stopped := by
  have hhead : (s.peers.startQueue.filter (· != s.station)).head? ≠ some s.station := by
    intro h
    have := List.mem_of_mem_head? (Option.mem_def.mpr h)
    simp at this
  unfold removeFromCopy
  dsimp only
  rw [if_pos (by simpa using hmem), if_neg (by simpa using fun _ => by simpa using hhead), if_pos ⟨rfl, hu⟩]
  rfl

theorem expireHead_old {head : Nat} {rest : List Nat} (hq : s.peers.startQueue = head :: rest)
    (h : 210 ≤ s.peers.headAge) : expireHead s = removeFromCopy head s := by
  rw [expireHead, hq]
  exact if_pos h

/-- Settles O48. -/
theorem historyTimers : Obligations.HistoryTimers := by
  refine ⟨fun s h => ?trips, fun s head rest h hq hsound => ?head⟩
  case trips =>
    refine ⟨_, timed_exec h ageOutTrips (by simpa using h.2), fun a => ?_, fun hlock => ?_, ?_, by simp, by simp, by simp⟩
    · simp [ageOutTrips]
    · rw [← settle_eq, settle_comp, sequencerReact_still (by simp [ageOutTrips, hlock])]
      exact hlock
    · simp [ageOutTrips]
  case head =>
    obtain ⟨-, hnodup, -⟩ := hsound
    rw [hq, List.nodup_cons] at hnodup
    obtain ⟨hnew, -⟩ := hnodup
    refine ⟨_, timed_exec h expireHead (by simpa using h.2), by simp, by simp, fun hyoung => ?_, fun hold => ?_⟩
    · have hstill : expireHead s = s := by
        rw [expireHead, hq]
        exact if_neg (by omega)
      rw [hstill]
      simp
    · rw [expireHead_old hq hold, ← settle_eq]
      refine ⟨?_, fun hu hrest hm => ?_, fun hu hown => ?_⟩
      · have hfilter : rest.filter (· != head) = rest :=
          List.filter_eq_self.mpr fun x hx => by
            have hne : x ≠ head := fun heq => hnew (heq ▸ hx)
            simpa using hne
        simp [settle, removeFromCopy_peers_eq, hq, hfilter]
      · obtain ⟨rest, rfl⟩ : ∃ l, rest = s.station :: l := by
          cases rest with
          | nil => cases hrest
          | cons x l => exact ⟨l, by simpa using hrest⟩
        have hne : head ≠ s.station := fun heq => hnew (heq ▸ List.mem_cons_self)
        obtain ⟨hunit, hcommand, -, hstarts⟩ := removeFromCopy_starts hq hne hu
        rw [settle_comp, sequencerReact_starting hunit (by simpa using hm)]
        exact ⟨hunit, hcommand, hstarts⟩
      · subst hown
        have hstopped := removeFromCopy_own_stops (s := s) (by simp [hq]) hu
        rw [settle_comp, sequencerReact_still (.inl hstopped)]
        exact hstopped

end Sys2Proof.Machine
end

section
/-! PROOFS. The checkpoint writes (R164, R166, R170): what a completed, a failed and a cut-off write leave of every slot. -/

namespace Sys2Proof.Machine

open Sys2Proof (Byte)

variable {s : State}

/-! ### The slots' places -/

theorem slotAddress_disjoint {n k : Nat} (h : n ≠ k) :
    slotAddress n + slotBytes ≤ slotAddress k ∨ slotAddress k + slotBytes ≤ slotAddress n := by
  simp only [slotAddress, slotBytes]
  omega

/-- The next sequence number's slot is another one, at the wrap too (R164). -/
theorem slotOfSeq_next (n : Nat) : slotOfSeq ((n + 1) % 4294967296) ≠ slotOfSeq n := by
  simp only [slotOfSeq]
  omega

/-- What is read of a slot depends on its mark and its own bytes alone. -/
theorem readSlot_congr {e e' : ExternalMemory} {n : Nat} (l : List Nat) (hmark : n ∈ e'.unfinished ↔ n ∈ e.unfinished)
    (hbytes : Memory.readBytes e'.cells (slotAddress n) slotBytes = Memory.readBytes e.cells (slotAddress n) slotBytes) :
    readSlot l e' n = readSlot l e n := by
  have hc : e'.unfinished.contains n = e.unfinished.contains n := by
    simp only [List.contains_eq_mem, hmark]
  simp only [readSlot, hc, hbytes]

/-- Bytes written into one slot leave what is read of every other. -/
theorem readBytes_other_slot {n k : Nat} (h : n ≠ k) (m : List Host.Cell) {bs : List Byte} (hlen : bs.length = slotBytes) :
    Memory.readBytes (Memory.writeBytes m (slotAddress k) bs) (slotAddress n) slotBytes
      = Memory.readBytes m (slotAddress n) slotBytes :=
  Memory.readBytes_writeBytes_outside bs m _ _ _ (hlen ▸ slotAddress_disjoint h)

theorem length_partialBytes (draw : Nat) : (partialBytes draw).length = slotBytes := by
  simp [partialBytes]

/-! ### A write begun, abandoned and completed -/

theorem beginWrite_none (h : s.port.writing = none) : beginWrite s = s := by
  rw [beginWrite, h]
  rfl

theorem beginWrite_some (h : s.port.writing ≠ none) :
    beginWrite s = s.onExt (·.markUnfinished (slotOfSeq s.port.nextSeq)) :=
  if_pos (Option.isSome_iff_ne_none.mpr h)

/-- A write that begins leaves what is read of every slot but its own. -/
theorem beginWrite_readSlot (l : List Nat) {n : Nat} (h : s.port.writing ≠ none → n ≠ slotOfSeq s.port.nextSeq) :
    readSlot l (beginWrite s).ext n = readSlot l s.ext n := by
  by_cases hw : s.port.writing = none
  · rw [beginWrite_none hw]
  · rw [beginWrite_some hw]
    exact readSlot_markUnfinished_other l s.ext n _ (h hw)

theorem spoil_eq (e : ExternalMemory) (k : Nat) (bs : List Byte) : e.spoil k bs
    = ({ e with cells := Memory.writeBytes e.cells (slotAddress k) bs } : ExternalMemory).markUnfinished k := by
  rw [ExternalMemory.spoil]

/-- A slot spoiled is invalid, and no byte or slot but that one's changes (R166). -/
theorem spoil_reads (e : ExternalMemory) (k : Nat) {bs : List Byte} (hlen : bs.length = slotBytes) :
    (∀ l, readSlot l (e.spoil k bs) k = none)
    ∧ (∀ a, a < slotAddress k ∨ slotAddress k + slotBytes ≤ a →
        Memory.read (e.spoil k bs).cells a = Memory.read e.cells a)
    ∧ ∀ n l, n ≠ k → readSlot l (e.spoil k bs) n = readSlot l e n := by
  rw [spoil_eq]
  refine ⟨fun l => readSlot_markUnfinished_self l _ _, fun a ha => ?_, fun n l hn => ?_⟩
  · rw [ExternalMemory.markUnfinished_cells]
    exact Memory.read_writeBytes_outside _ _ _ _ (by rwa [hlen])
  · rw [readSlot_markUnfinished_other l _ n _ hn]
    exact readSlot_congr l Iff.rfl (readBytes_other_slot hn _ hlen)

theorem abandonWrite_ext :
    (abandonWrite s).ext = s.ext.spoil (slotOfSeq s.port.nextSeq) (partialBytes s.freeDraws) := by
  simp only [abandonWrite, State.onExt_ext]

/-- The write of a checkpoint done: its bytes in its slot, the slot's mark gone, and the cursor behind it, before the held
one's write begins (R164, R166). -/
def written (c : Checkpoint) (s : State) : State :=
  (s.onExt (fun e =>
    { cells := Memory.writeBytes e.cells (slotAddress (slotOfSeq s.port.nextSeq)) (checkpointBytes s.port.nextSeq c)
      unfinished := e.unfinished.filter (· != slotOfSeq s.port.nextSeq) })).onPort
    (fun p => { p.writeNext with nextSeq := (s.port.nextSeq + 1) % 4294967296 })

theorem completeWrite_eq {c : Checkpoint} (h : s.port.writing = some c) : completeWrite s = beginWrite (written c s) := by
  rw [completeWrite, h]
  rfl

theorem written_readSlot (c : Checkpoint) (l : List Nat) {n : Nat} (hn : n ≠ slotOfSeq s.port.nextSeq) :
    readSlot l (written c s).ext n = readSlot l s.ext n :=
  readSlot_congr l (by simp [written, hn]) (readBytes_other_slot hn _ (length_checkpointBytes _ _))

/-- Settles O9. -/
theorem checkpointWriteCompletes : Obligations.CheckpointWriteCompletes := by
  intro s c hp hwf hc start bytes
  have hlen : bytes.length = slotBytes := length_checkpointBytes _ _
  have hport : (written c s).port
      = { s.port with nextSeq := (s.port.nextSeq + 1) % 4294967296, writing := s.port.waiting, waiting := none } := rfl
  have hcells : (written c s).ext.cells = Memory.writeBytes s.ext.cells start bytes := rfl
  refine ⟨_, plain_exec hp completeWrite, ?_⟩
  rw [completeWrite_eq hc]
  refine ⟨hlen, ?_, fun a ha => ?_, ?_, fun hwait l => ?_, fun n l hn hnext => ?_, by simp [hport], by simp [hport],
    by simp [hport], ?_⟩
  · rw [beginWrite_cells, hcells, ← hlen]
    exact Memory.readBytes_writeBytes bytes _ _ hwf
  · rw [beginWrite_cells, hcells]
    exact Memory.read_writeBytes_outside _ _ _ _ (by rwa [hlen])
  · have hgone : slotOfSeq s.port.nextSeq ∉ (written c s).ext.unfinished := by simp [written]
    by_cases hw : (written c s).port.writing = none
    · rwa [beginWrite_none hw]
    · rw [beginWrite_some hw]
      simp only [State.onExt_ext, ExternalMemory.mem_markUnfinished, not_or]
      exact ⟨fun heq => slotOfSeq_next s.port.nextSeq heq.symm, hgone⟩
  · rw [beginWrite_port, beginWrite_some (by simpa [hport] using hwait)]
    exact readSlot_markUnfinished_self l _ _
  · rw [beginWrite_port] at hnext
    rw [beginWrite_readSlot l (by simpa [hport] using hnext), written_readSlot c l hn]
  · rw [beginWrite_eq]
    rfl

/-! ### A failed write -/

/-- The held checkpoint's write begun where the abandoned one stood (R166). -/
def beginNext (s : State) : State := beginWrite (s.onPort MemoryPort.writeNext)

theorem beginNext_eq : beginNext s = { s with
    ext := (beginNext s).ext, port := { s.port with writing := s.port.waiting, waiting := none } } := by
  rw [beginNext, beginWrite_eq]
  rfl

theorem beginNext_readSlot_self {l : List Nat} (h : readSlot l s.ext (slotOfSeq s.port.nextSeq) = none) :
    readSlot l (beginNext s).ext (slotOfSeq s.port.nextSeq) = none := by
  by_cases hw : s.port.waiting = none
  · rw [beginNext, beginWrite_none hw]
    exact h
  · rw [beginNext, beginWrite_some hw]
    exact readSlot_markUnfinished_self l _ _

theorem beginNext_readSlot_other (l : List Nat) {n : Nat} (h : n ≠ slotOfSeq s.port.nextSeq) :
    readSlot l (beginNext s).ext n = readSlot l s.ext n := beginWrite_readSlot (s := s.onPort _) l fun _ => h

theorem failWrite_eq {c : Checkpoint} (h : s.port.writing = some c) :
    failWrite s = raise .ckptFail 0 s.port.nextSeq (beginNext (abandonWrite s)) := by
  rw [failWrite, h, beginNext]

/-- Settles O10. -/
theorem checkpointWriteFails : Obligations.CheckpointWriteFails := by
  intro s c h hsized hc
  have hexec : exec .ckptFail s = .next (handAll (failWrite s)) :=
    finished_exec h.1 failWrite (by simpa using h.2)
  have hport : (abandonWrite s).port = s.port := by simp
  have hmon : (beginNext (abandonWrite s)).mon = s.mon := by
    rw [beginNext_eq]
    simp
  obtain ⟨hself, -, hother⟩ := spoil_reads s.ext (slotOfSeq s.port.nextSeq) (length_partialBytes s.freeDraws)
  rw [← abandonWrite_ext] at hself hother
  rw [failWrite_eq hc] at hexec
  refine ⟨_, hexec, fun l => ?_, fun n l hn => ?_, ?_, ?_⟩
  · simp only [handAll_frame, raise_frame]
    rw [← hport] at hself ⊢
    exact beginNext_readSlot_self (hself l)
  · simp only [handAll_frame, raise_frame]
    rw [beginNext_readSlot_other l (by rwa [hport])]
    exact hother n l hn
  · have hraise := raise_raisedOnce (beginNext (abandonWrite s)) .ckptFail 0 s.port.nextSeq (by decide) (hmon ▸ hsized)
    exact raisedOnce_of_before (raisedOnce_of_reading hraise (congrArg _ (handAll_mon _))) (by rw [hmon])
  · simp only [handAll_frame, raise_frame]
    rw [beginNext_eq, hport]
    simp

end Sys2Proof.Machine
end

section
/-! PROOFS. The resets (R56, R85, R155, R161, R163, R164, R166): the test for leaving CONFIG, what a line reset leaves of
every block, and the loss of the supply. -/

namespace Sys2Proof.Machine

open Sys2Proof (Mode)

variable {s : State} {n : Nat}

/-! ### The queue at a reset -/

/-- A condition raised with room in the queue queues at most its report, which waits (R157). -/
theorem raise_queue (h : s.room n) (hn : n < 12) (c : Cond) (slot : Nat) (v : Int) :
    (raise c slot v s).link = s.link ∨ ∃ r, (raise c slot v s).link = s.link.enter (.condition r) .other := by
  have hlen := h.2
  unfold raise
  dsimp only
  split
  · rw [queueConditionReport, fateOf_of_room _ _ (by simpa using h.1) (by simp; omega), if_neg (by simp [replaces])]
    exact .inr ⟨(raiseQuiet c slot v s).conditionReport s.mon c slot v, by simp⟩
  · exact .inl (by simp)

/-! ### The test for leaving CONFIG (R56) -/

/-- The part on its way out of CONFIG in a train mode: the restore condition, the JOIN set up, the first SETPOINT (R56,
R150, R164). -/
def leaving (m : Mode) (s : State) : State :=
  firstSetpoint ((raiseRestore (s.onTrain (fun c => { c with mode := m }))).onLink
    (fun l => { l with state := .joining, join := .waiting }))

theorem leaveConfig_eq (shutIn : Bool) : leaveConfig shutIn s = if s.mayLeaveConfig then
    if shutIn then leaving .shutIn s else enterListen (leaving .listen s) else s := by
  unfold leaveConfig
  cases shutIn <;> rfl

theorem mayLeaveConfig_iff : s.mayLeaveConfig = true ↔ s.port.image.isSome = true ∧ 1 ≤ s.station ∧ s.station ≤ 31
    ∧ s.station ∈ s.cfg.expected := by
  simp [State.mayLeaveConfig, and_assoc]

/-- A queue at a reset: empty, or the waiting report of the restore condition alone. -/
def reportAlone (q : List Entry) : Prop :=
  q = [] ∨ ∃ r k, q = [{ telegram := .condition r, owner := .other, ticket := k }]

theorem enter_empty {l : Link} (hq : l.queue = []) (hm : l.refusalMark = false) (t : Telegram) (o : Owner) :
    l.enter t o = { l with queue := [{ telegram := t, owner := o, ticket := l.nextTicket }]
                           nextTicket := l.nextTicket + 1 } := by
  simp [Link.enter, hq, insertEntry, Link.withQueue, hm, refusalMarkAfter]

theorem raiseRestore_link (hq : s.link.queue = []) (hm : s.link.refusalMark = false) : ∃ q k,
    (raiseRestore s).link = { s.link with queue := q, nextTicket := k } ∧ reportAlone q
      ∧ (s.port.note = none → q = []) := by
  have hraise (c : Cond) (v : Int) : ∃ q k, (raise c 0 v (s.onPort (fun p => { p with note := none }))).link
      = { s.link with queue := q, nextTicket := k } ∧ reportAlone q := by
    obtain h | ⟨r, h⟩ := raise_queue (s := s.onPort (fun p => { p with note := none })) (n := 0) ⟨hm, by simp [hq]⟩
      (by omega) c 0 v
    · exact ⟨[], s.link.nextTicket, by rw [h, ← hq]; rfl, .inl rfl⟩
    · exact ⟨_, _, h.trans (enter_empty hq hm _ _), .inr ⟨r, _, rfl⟩⟩
  unfold raiseRestore
  dsimp only
  split
  · exact ⟨[], s.link.nextTicket, by rw [← hq]; rfl, .inl rfl, fun _ => rfl⟩
  · next seq hnote =>
    obtain ⟨q, k, h, hr⟩ := hraise .restoreOld seq
    exact ⟨q, k, h, hr, fun hnone => by rw [hnone] at hnote; cases hnote⟩
  · next hnote =>
    obtain ⟨q, k, h, hr⟩ := hraise .restoreNone 0
    exact ⟨q, k, h, hr, fun hnone => by rw [hnone] at hnote; cases hnote⟩

/-- On its way out of CONFIG the part moves the train mode, the link's JOIN and queue, the note, and what the intake sends
alone. -/
theorem leaving_eq (m : Mode) (hq : s.link.queue = []) (hm : s.link.refusalMark = false) : ∃ i mon q k,
    leaving m s = { s with
      train := { s.train with mode := m }, intake := s.intake.handing i, mon := mon
      link := { s.link with state := .joining, join := .waiting, queue := q, nextTicket := k }
      port := { s.port with note := none } } ∧ reportAlone q ∧ (s.port.note = none → q = []) := by
  obtain ⟨q, k, hlink, halone, hnote⟩ := raiseRestore_link (s := s.onTrain (fun c => { c with mode := m })) hq hm
  refine ⟨(leaving m s).intake, (leaving m s).mon, q, k, ?_, halone, hnote⟩
  have hintake : (leaving m s).intake = s.intake.handing (leaving m s).intake := by
    unfold leaving firstSetpoint requestSetpoint
    split
    · simp [Intake.handing]
    · simp only [State.onIntake_intake]
      split <;> simp [Intake.handing]
  refine State.eq_of_blocks ?_ ?_ ?_ ?_ ?_ ?_ ?_ ?_ ?_ ?_ hintake rfl ?_ ?_ ?_ ?_ ?_ <;> simp [leaving, hlink]

/-! ### The line reset -/

theorem enterListen_halted (h : s.link.haltSet ≠ []) :
    enterListen s = enterShutIn (s.onTrain (fun c => { c with mode := .listen })) := if_pos h

theorem enterListen_fresh (hh : s.link.haltSet = []) (hf : s.intake.fieldLost = false) (hj : s.train.joinTime = none) :
    enterListen s = s.onTrain (fun c => { c with mode := .listen }) := by
  rw [enterListen_eq_listenTest hh hf]
  refine listenTest_neg ?_
  rintro ⟨-, -, j, hjoin, -⟩
  simp [hj] at hjoin

/-- The train is taken from LISTEN to SHUT_IN with the OFFER behind what the queue holds (R66, R82). -/
theorem enterShutIn_eq (hm : s.train.mode = .listen) (h : s.room 1) (ho : reportAlone s.link.queue) :
    enterShutIn s = { s with
      train := { s.train with mode := .shutIn, phase := none, lineup := .closed, offer := 0, share := 0, demand := 0 }
      comp := { s.comp with zeroDemand := (stopTrain .shutIn s).comp.zeroDemand }
      link := s.link.enter (.offer s.train.offerDir 0 0 s.nom.target .shutIn s.comp.unit) .other } := by
  have hlen := h.2
  have htrain : (stopTrain .shutIn s).train
      = { s.train with mode := .shutIn, phase := none, lineup := .closed, offer := 0, share := 0, demand := 0 } := by
    simp [stopTrain_train, hm]
  have hlink : (stopTrain .shutIn s).link = s.link := by simp
  have hoffer : offerTelegram (stopTrain .shutIn s) = .offer s.train.offerDir 0 0 s.nom.target .shutIn s.comp.unit := by
    simp [offerTelegram, htrain]
  have hreplaces : s.link.queue.any (replaces (.offer s.train.offerDir 0 0 s.nom.target .shutIn s.comp.unit)) = false := by
    obtain hq | ⟨r, k, hq⟩ := ho <;> simp [hq, replaces]
  have hqueue : queueOffer (stopTrain .shutIn s)
      = (stopTrain .shutIn s).onLink (·.enter (.offer s.train.offerDir 0 0 s.nom.target .shutIn s.comp.unit) .other) := by
    rw [queueOffer, hoffer, enqueue_of_room _ _ _ (by simp [htrain]) (hlink ▸ h.1) (by rw [hlink]; omega), State.onLink,
      hlink, hreplaces]
    simp [State.onLink]
  rw [enterShutIn, hqueue]
  refine State.eq_of_blocks ?_ ?_ ?_ ?_ ?_ ?_ ?_ (by exact htrain) ?_ ?_ ?_ ?_ ?_ ?_ ?_ ?_ ?_ <;> simp [stopTrain, setDemand]

/-- The OFFER entered behind at most one report. -/
theorem Link.enter_few {l : Link} (hq : l.queue.length ≤ 1) (hm : l.refusalMark = false) (t : Telegram) (o : Owner) :
    l.enter t o = { l with queue := insertEntry l.queue { telegram := t, owner := o, ticket := l.nextTicket }
                           nextTicket := l.nextTicket + 1 } := by
  simp [Link.enter, Link.withQueue, hm, refusalMarkAfter_false _ (show l.queue.length + 1 < 9 by omega)]

theorem lineReset_eq : lineReset s = handAll (leaveConfig (decide (s.train.mode = .shutIn)) (lineResetBlocks s)) := rfl

/-- What a line reset gives: each block's own reset; beyond it the test of R56 moves the train mode, the JOIN and the queue,
the note, the monitor and what the intake sends. -/
theorem lineReset_shape (s : State) :
    let v := lineResetBlocks s
    let leaves := s.port.image.isSome = true ∧ 1 ≤ s.straps ∧ s.straps ≤ 31 ∧ s.straps ∈ s.cfg.expected
    ∃ m z i mon j q k p, lineReset s = { v with
        train := { v.train with mode := m }, comp := { v.comp with zeroDemand := z }, intake := v.intake.handing i
        mon := mon, link := { v.link with join := j, queue := q, nextTicket := k }, port := { v.port with note := p } }
      ∧ (leaves → j = .waiting ∧ m = if s.train.mode = .shutIn ∨ s.link.haltSet ≠ [] then .shutIn else .listen)
      ∧ (¬ leaves → j = .absent ∧ q = [] ∧ m = .config)
      ∧ q.length ≤ 2
      ∧ (∀ e ∈ q, e.onLine = false
          ∧ ((∃ r, e.telegram = .condition r) ∨ e.telegram = .offer none 0 0 s.nom.target .shutIn v.comp.unit))
      ∧ (leaves → s.port.note = none →
          (s.train.mode = .shutIn ∨ s.link.haltSet = [] → q = [])
          ∧ (s.train.mode ≠ .shutIn → s.link.haltSet ≠ [] →
              q.map (·.telegram) = [.offer none 0 0 s.nom.target .shutIn v.comp.unit])) := by
  intro v leaves
  have hmay : v.mayLeaveConfig = true ↔ leaves := mayLeaveConfig_iff
  have halone {q : List Entry} (h : reportAlone q) : q.length ≤ 2 ∧ ∀ e ∈ q, e.onLine = false
      ∧ ((∃ r, e.telegram = .condition r) ∨ e.telegram = .offer none 0 0 s.nom.target .shutIn v.comp.unit) := by
    obtain rfl | ⟨r, k, rfl⟩ := h
    · simp
    · exact ⟨by simp, fun e he => by rw [List.mem_singleton.mp he]; exact ⟨rfl, .inl ⟨r, rfl⟩⟩⟩
  rw [lineReset_eq, leaveConfig_eq, handAll_eq_handing]
  by_cases hl : leaves
  · rw [if_pos (hmay.mpr hl)]
    by_cases hs : s.train.mode = .shutIn
    · obtain ⟨i, mon, q, k, heq, hq, hnote⟩ := leaving_eq (s := v) .shutIn rfl rfl
      obtain ⟨hlen, hall⟩ := halone hq
      rw [if_pos (by simpa using hs), heq]
      refine ⟨.shutIn, v.comp.zeroDemand, _, mon, .waiting, q, k, none, rfl, fun _ => ⟨rfl, by simp [hs]⟩,
        fun hnot => absurd hl hnot, hlen, hall, fun _ hn => ⟨fun _ => hnote hn, fun hne => absurd hs hne⟩⟩
    · obtain ⟨i, mon, q, k, heq, hq, hnote⟩ := leaving_eq (s := v) .listen rfl rfl
      obtain ⟨hlen, hall⟩ := halone hq
      rw [if_neg (by simpa using hs)]
      by_cases hh : s.link.haltSet = []
      · rw [enterListen_fresh (s := leaving .listen v) (by rw [heq]; exact hh) (by rw [heq]; rfl) (by rw [heq]; rfl), heq]
        exact ⟨.listen, v.comp.zeroDemand, _, mon, .waiting, q, k, none, rfl, fun _ => ⟨rfl, by simp [hs, hh]⟩,
          fun hnot => absurd hl hnot, hlen, hall, fun _ hn => ⟨fun _ => hnote hn, fun _ hne => absurd hh hne⟩⟩
      · have hq1 : q.length ≤ 1 := by obtain rfl | ⟨r, k, rfl⟩ := hq <;> simp
        have hlink : ((leaving .listen v).onTrain (fun c => { c with mode := .listen })).link.queue = q
            ∧ ((leaving .listen v).onTrain (fun c => { c with mode := .listen })).link.refusalMark = false := by
          rw [heq]
          exact ⟨rfl, rfl⟩
        obtain ⟨hqueue, hmark⟩ := hlink
        rw [enterListen_halted (s := leaving .listen v) (by rw [heq]; exact hh),
          enterShutIn_eq rfl ⟨hmark, hqueue ▸ hq1⟩ (hqueue ▸ hq), Link.enter_few (hqueue ▸ hq1) hmark, heq]
        refine ⟨.shutIn, _, _, mon, .waiting, insertEntry q _, k + 1, none, rfl, fun _ => ⟨rfl, by simp [hh]⟩,
          fun hnot => absurd hl hnot, by simpa using hq1, fun e he => ?_,
          fun _ hn => ⟨fun hor => (hor.elim hs hh).elim, fun _ _ => ?_⟩⟩
        · obtain rfl | he := (mem_insertEntry _ _ _).mp he
          · exact ⟨rfl, .inr rfl⟩
          · exact hall e he
        · rw [hnote hn]
          rfl
  · rw [if_neg (fun h => hl (hmay.mp h))]
    exact ⟨.config, v.comp.zeroDemand, _, v.mon, .absent, [], v.link.nextTicket, v.port.note, rfl, fun h => absurd h hl,
      fun _ => ⟨rfl, rfl, rfl⟩, by simp, by simp, fun h => absurd h hl⟩

theorem lineReset_exec (hp : s.powered = true) (n : Nat) :
    exec (.lineReset n) s = .next (lineReset { s with straps := n }) :=
  plain_exec hp (fun s => lineReset { s with straps := n })

/-! ### The loss of the supply (R163, R166) -/

theorem cutWrite_none (h : s.port.writing = none) : cutWrite s = s := by
  rw [cutWrite, h]
  rfl

theorem cutWrite_some (h : s.port.writing ≠ none) : cutWrite s = abandonWrite s :=
  if_pos (Option.isSome_iff_ne_none.mpr h)

/-- Settles O7. -/
theorem lineResetAndPowerLoss : Obligations.LineResetAndPowerLoss := by
  refine ⟨fun n s hp => ?reset, fun s hp => ?loss⟩
  case reset =>
    intro leaves
    obtain ⟨m, z, i, mon, j, q, k, p, heq, hleaves, hstays, hlen, hall, hnote⟩ := lineReset_shape { s with straps := n }
    obtain ⟨-, hsums, -⟩ := lineReset_frame { s with straps := n }
    refine ⟨_, lineReset_exec hp n, ?_⟩
    rw [heq] at hsums ⊢
    obtain ⟨hinjected, hwithdrawn, -⟩ := hsums
    refine ⟨rfl, rfl, rfl, rfl, rfl, rfl, rfl, rfl, rfl, rfl, rfl, rfl, rfl, rfl, hleaves, hstays, rfl, hlen, fun e he => ?_,
      hnote, rfl, rfl, rfl, rfl, rfl, rfl, rfl, rfl, rfl, rfl, rfl, rfl, rfl, rfl, rfl, rfl, rfl, rfl, rfl, rfl, rfl, rfl, rfl,
      rfl, rfl, rfl, rfl, rfl, hinjected, hwithdrawn⟩
    obtain ⟨hline, hkind⟩ := hall e he
    exact ⟨hline, hkind.imp id fun h => ⟨_, h⟩⟩
  case loss =>
    intro start
    have hexec : exec .powerLoss s = .next (blank s false s.straps) := plain_exec hp (fun s => blank s false s.straps)
    have hext : (blank s false s.straps).ext = (cutWrite s).ext := rfl
    refine ⟨_, hexec, rfl, fun hw => ?_, fun hw => ?_⟩
    · rw [hext, cutWrite_none hw]
    · rw [hext, cutWrite_some hw, abandonWrite_ext]
      exact spoil_reads s.ext (slotOfSeq s.port.nextSeq) (length_partialBytes s.freeDraws)

end Sys2Proof.Machine
end

section
/-! PROOFS. The power-on reset (R56, R150, R163, R164): with and without an image, and what the newest valid slot restores. -/

namespace Sys2Proof.Machine

open Sys2Proof (Bed Flow)

variable {s : State} {n seq : Nat} {m : Image} {c : Checkpoint}

/-! ### From the reset values out of CONFIG -/

/-- A part as the reset tables give it when the test of R56 is made: nothing in the queue, no JOIN completed, no station
halting, the field not lost. -/
structure State.fresh (s : State) : Prop where
  queue : s.link.queue = []
  mark : s.link.refusalMark = false
  halts : s.link.haltSet = []
  field : s.intake.fieldLost = false
  joined : s.train.joinTime = none

theorem leaveConfig_fresh (h : s.fresh) : leaveConfig false s = if s.mayLeaveConfig then leaving .listen s else s := by
  obtain ⟨i, mon, q, k, heq, -⟩ := leaving_eq (s := s) .listen h.queue h.mark
  rw [leaveConfig_eq]
  split
  · rw [if_neg (by simp), enterListen_fresh (by rw [heq]; exact h.halts) (by rw [heq]; exact h.field)
      (by rw [heq]; exact h.joined), heq]
    rfl
  · rfl

/-- What a power-on that has read an image makes of the restored blocks. -/
theorem startUp_shape (h : s.fresh) : ∃ mode i mon l p, handAll (leaveConfig false s) = { s with
      train := { s.train with mode := mode }, intake := s.intake.handing i, mon := mon, link := l
      port := { s.port with note := p } }
    ∧ (s.mayLeaveConfig = true → mode = .listen ∧ l.state = .joining ∧ l.join = .waiting)
    ∧ (mode = s.train.mode ∨ mode = .listen) := by
  obtain ⟨i, mon, q, k, heq, -⟩ := leaving_eq (s := s) .listen h.queue h.mark
  rw [handAll_eq_handing, leaveConfig_fresh h]
  by_cases hm : s.mayLeaveConfig = true
  · rw [if_pos hm, heq]
    exact ⟨.listen, _, mon, _, none, rfl, fun _ => ⟨rfl, rfl, rfl⟩, .inr rfl⟩
  · rw [if_neg hm]
    exact ⟨s.train.mode, _, s.mon, s.link, s.port.note, rfl, fun h => absurd h hm, .inl rfl⟩

theorem startUp_mon (h : s.fresh) (hm : s.mayLeaveConfig = true) : (handAll (leaveConfig false s)).mon
    = (raiseRestore (s.onTrain (fun c => { c with mode := .listen }))).mon := by
  rw [leaveConfig_fresh h, if_pos hm, handAll_mon]
  simp [leaving]

/-- The first SETPOINT goes out with the fields as the blocks stand (R71, R107, R132). -/
theorem startUp_sending (h : s.fresh) (hm : s.mayLeaveConfig = true) (hs : s.intake.sending = none) :
    (handAll (leaveConfig false s)).intake.sending.map (·.mode) = some .listen := by
  have hleaving : (leaving .listen s).intake.handed = currentFields (leaving .listen s)
      ∧ (leaving .listen s).intake.sending = some (currentFields (leaving .listen s)) := by
    unfold leaving firstSetpoint requestSetpoint
    rw [if_neg (by simp)]
    simp [hs, currentFields]
  obtain ⟨hhanded, hsending⟩ := hleaving
  rw [leaveConfig_fresh h, if_pos hm, handAll_eq_self _ hhanded, hsending]
  simp [currentFields, leaving]

/-! ### The power-on reset -/

/-- The part at power-on with its image in force and its peer tables set up, before the ring is read (R163, R164). -/
def imaged (m : Image) (n : Nat) (s : State) : State :=
  { blank s true n with
    port := { State.reset.port with image := some m }, peers := freshPeers (m.expected.filter (· != n)) }

theorem powerOn_exec (n : Nat) (unread : Bool) (slots : List Nat) :
    exec (.powerOnReset n unread slots) s = .next (powerOn n unread slots s) := rfl

theorem powerOn_imageless {unread : Bool} (slots : List Nat) (h : readImage unread (cutWrite s).ext = none) :
    powerOn n unread slots s = blank s true n := by
  have hread : readImage unread (blank s true n).ext = none := h
  rw [powerOn, hread]

theorem powerOn_imaged {unread : Bool} (slots : List Nat) (h : readImage unread (cutWrite s).ext = some m) :
    powerOn n unread slots s = handAll (leaveConfig false (restoreRing m slots (imaged m n s))) := by
  have hread : readImage unread (blank s true n).ext = some m := h
  rw [powerOn, hread]
  rfl

theorem imaged_ext (h : s.port.writing = none) : (imaged m n s).ext = s.ext := by
  have hext : (imaged m n s).ext = (cutWrite s).ext := rfl
  rw [hext, cutWrite_none h]

theorem imaged_mayLeave {t : State} (hp : t.port.image = some m) (hs : t.station = n) (h1 : 1 ≤ n) (h31 : n ≤ 31)
    (hn : n ∈ m.expected) : t.mayLeaveConfig = true := by
  rw [mayLeaveConfig_iff, hp, hs, State.cfg, hp]
  exact ⟨rfl, h1, h31, hn⟩

/-- Settles O5. -/
theorem powerOnFresh : Obligations.PowerOnFresh := by
  refine ⟨fun straps unread slots s hread => ?imageless, fun straps unread slots s m hw hread hring h1 h31 hn => ?imaged⟩
  case imageless =>
    refine ⟨_, powerOn_exec straps unread slots, ?_⟩
    rw [powerOn_imageless slots hread]
    exact ⟨rfl, rfl, rfl, rfl, rfl, rfl, rfl, rfl, rfl, rfl, rfl, rfl, rfl, rfl⟩
  case imaged =>
    have hext : (imaged m straps s).ext = s.ext := imaged_ext hw
    let v := (imaged m straps s).onPort (fun p => { p with note := some .nothing })
    have hv : restoreRing m slots (imaged m straps s) = v := by rw [restoreRing, hext, hring]
    have hfresh : v.fresh := ⟨rfl, rfl, rfl, rfl, rfl⟩
    have hmay : v.mayLeaveConfig = true := imaged_mayLeave rfl rfl h1 h31 hn
    have hmon := startUp_mon hfresh hmay
    have hsending := startUp_sending hfresh hmay rfl
    obtain ⟨mode, i, mon, l, p, heq, hleaves, -⟩ := startUp_shape hfresh
    obtain ⟨rfl, hstate, hjoin⟩ := hleaves hmay
    refine ⟨_, powerOn_exec straps unread slots, ?_⟩
    rw [powerOn_imaged slots (by rw [cutWrite_none hw]; exact hread), hv]
    rw [heq] at hmon hsending ⊢
    refine ⟨rfl, rfl, rfl, rfl, rfl, hstate, hjoin, rfl, rfl, rfl, ?_, hsending, hext⟩
    have hraise := raise_raisedOnce ((v.onTrain (fun c => { c with mode := .listen })).onPort
      (fun p => { p with note := none })) .restoreNone 0 0 (by decide) ⟨rfl, rfl⟩
    exact raisedOnce_of_reading hraise (congrArg _ hmon)

/-! ### The restored values (R12, R18, R32, R38, R55, R85, R107, R133) -/

theorem restoredCode_of_lt {tag count raw : Nat} (h : raw < count) : restoredCode tag count raw = raw := if_pos h

theorem dirCode_restoredDir {tag raw : Nat} (h : raw < 3) : dirCode (restoredDir tag raw) = raw := by
  rw [restoredDir, restoredCode_of_lt h]
  interval_cases raw <;> rfl

theorem bedStateCode_restored {raw : Nat} (h : raw < 5) : bedStateCode (restoredBedState raw) = raw := by
  rw [restoredBedState, restoredCode_of_lt h]
  interval_cases raw <;> rfl

/-- The unit state that a restored code gives after the reset (R85). -/
theorem restoredUnit_after {raw : Nat} (h : raw < 7) :
    (unitAfterReset (restoredUnit raw) = .stopping ∨ unitAfterReset (restoredUnit raw) = .tripped
        ∨ unitAfterReset (restoredUnit raw) = .lockout)
      ∧ (raw = 6 → unitAfterReset (restoredUnit raw) = .lockout)
      ∧ (raw = 5 → unitAfterReset (restoredUnit raw) = .tripped)
      ∧ (restoredUnit raw = .starting ∨ restoredUnit raw = .running ↔ raw = 2 ∨ raw = 3) := by
  rw [restoredUnit, restoredCode_of_lt h]
  interval_cases raw <;> decide

theorem restoreHistory_of_le {h : SavedHistory} (hc : h.count ≤ 3) : restoreHistory h = h.places.take h.count := by
  rw [restoreHistory, restoredCode_of_lt (by omega)]

theorem restoredEnergyCarry_eq (m : Image) (x : Int) : restoredEnergyCarry m.roundMode x
    = if (if m.rounding = 1 then -5000000 ≤ x ∧ x ≤ 4999999 else 0 ≤ x ∧ x ≤ 9999999) then x else 0 := by
  by_cases h : m.rounding = 1 <;> simp [restoredEnergyCarry, Image.roundMode, h]

theorem restoreAccounts_slot (m : Image) (c : Checkpoint) {i : Nat} (hi : i < 17) :
    (restoreAccounts m c).slots.getD i {}
      = { c.slots.getD i {} with spaceOver := (c.slots.getD i {}).spaceOver && m.configured i } := by
  rw [restoreAccounts]
  dsimp only
  rw [map_range_getD _ hi]

theorem restoreNominations_confirmed (m : Image) (c : Checkpoint) {i : Nat} (hi : i < 16) :
    (restoreNominations m c).confirmed.getD i 0 = if m.configured (i + 1) then c.confirmed.getD i 0 else 0 := by
  rw [restoreNominations]
  dsimp only
  rw [map_range_getD _ hi]

theorem restoreNominations_nominee (m : Image) (c : Checkpoint) {i : Nat} (hi : i < 16) :
    (restoreNominations m c).nominee (i + 1) = restoreNominee (m.configured (i + 1)) (c.nominees.getD i {}) := by
  rw [restoreNominations, Nominations.nominee, Nat.add_sub_cancel]
  dsimp only
  rw [map_range_getD _ hi]

theorem restoreSuspense_eq (r : SavedSuspense) : (r.present = false → restoreSuspense r = none)
    ∧ (r.present = true → restoreSuspense r = some
        { openDay := r.openDay, openSecond := r.openSecond, age := r.age, span := r.span
          volume := if r.volumePresent = true then some r.volume else none, cv := r.cv, snapshot := r.snapshot
          due := none, oldRaised := decide (86400 ≤ r.age) }) := by
  refine ⟨fun h => ?_, fun h => ?_⟩ <;> simp [restoreSuspense, h]

/-- Settles O6. -/
theorem powerOnRestores : Obligations.PowerOnRestores := by
  intro straps unread slots s m seq c hw hread hring hunit kept
  have hext : (imaged m straps s).ext = s.ext := imaged_ext hw
  let v := restoreFrom m seq c (imaged m straps s)
  have hv : restoreRing m slots (imaged m straps s) = v := by rw [restoreRing, hext, hring]
  have hfresh : v.fresh := ⟨rfl, rfl, rfl, rfl, rfl⟩
  have hmon (hmay : v.mayLeaveConfig = true) := startUp_mon hfresh hmay
  obtain ⟨mode, i, mon, l, p, heq, hleaves, hmode⟩ := startUp_shape hfresh
  obtain ⟨hkinds, hlocked, htripped, hstarting⟩ := restoredUnit_after hunit
  refine ⟨_, powerOn_exec straps unread slots, ?_⟩
  rw [powerOn_imaged slots (by rw [cutWrite_none hw]; exact hread), hv]
  rw [heq] at hmon ⊢
  refine ⟨rfl, fun i hi => ?slots, fun i hi => ?flags, rfl, rfl, fun hc => ?cursor, rfl, rfl, rfl, restoredEnergyCarry_eq m _,
    restoredEnergyCarry_eq m _, fun i hi => restoreNominations_confirmed m c hi, rfl, dirCode_restoredDir,
    fun i hi => ?nominees, dirCode_restoredDir, hkinds, ?command, hlocked, htripped, rfl, ?stopTimer, rfl,
    restoreHistory_of_le, restoreHistory_of_le, fun bed => ?beds, rfl, rfl, rfl, rfl, ⟨rfl, rfl, rfl⟩, rfl, rfl, rfl, rfl, rfl,
    fun f => ?suspense, rfl, rfl, rfl, rfl, hmode.symm, fun hn h1 h31 => ?leaves⟩
  case slots =>
    have hslot := restoreAccounts_slot m c hi
    have hvalues : ((restoreAccounts m c).slots.getD i {}).inventory = (c.slots.getD i {}).inventory
        ∧ ((restoreAccounts m c).slots.getD i {}).totals = (c.slots.getD i {}).totals := by rw [hslot]; exact ⟨rfl, rfl⟩
    exact hvalues
  case flags =>
    have hflag : ((restoreAccounts m c).slots.getD i {}).spaceOver
        = ((c.slots.getD i {}).spaceOver && m.configured i) := by rw [restoreAccounts_slot m c hi]
    exact hflag
  case cursor => exact restoredCode_of_lt (by omega)
  case nominees =>
    intro nominee nominee'
    have hn : nominee' = restoreNominee (m.configured (i + 1)) nominee := restoreNominations_nominee m c hi
    rw [hn]
    refine ⟨fun hconf => ⟨by simp [restoreNominee, hconf], fun hcount => ?_⟩, fun hconf => by simp [restoreNominee, hconf]⟩
    rw [restoreNominee, if_pos hconf, restoredCode_of_lt (by omega)]
  case command => rfl
  case stopTimer => exact if_congr hstarting rfl rfl
  case beds =>
    intro b b'
    have hb : b' = restoreBed b := by cases bed <;> rfl
    rw [hb]
    exact ⟨bedStateCode_restored, rfl, rfl, rfl, rfl, rfl, rfl⟩
  case suspense =>
    intro r
    cases f <;> exact restoreSuspense_eq _
  case leaves =>
    have hmay : v.mayLeaveConfig = true := imaged_mayLeave rfl rfl h1 h31 hn
    have hraise := raise_raisedOnce ((v.onTrain (fun c => { c with mode := .listen })).onPort
      (fun p => { p with note := none })) .restoreOld 0 seq (by decide) ⟨rfl, rfl⟩
    exact ⟨(hleaves hmay).1, raisedOnce_of_reading hraise (congrArg _ (hmon hmay))⟩

end Sys2Proof.Machine
end

section
/-! PROOFS. The DAY reports (R9 to R11) and the close of the gas day (R6 to R8): the slots that get a report from a cursor on,
the report queued, and what the close leaves of the books and of the reports still to go. -/

namespace Sys2Proof.Machine

variable {s t : State} {m : Image} {start slot : Nat}

/-! ### The slots that get a report (R9) -/

theorem mem_reportSlots {i : Nat} : i ∈ reportSlots m start ↔ i ≤ 16 ∧ start ≤ i ∧ (i = 0 ∨ m.configured i = true) := by
  simp only [reportSlots, Image.reports, List.mem_filter, List.mem_range, Bool.and_eq_true, Bool.or_eq_true,
    decide_eq_true_eq]
  exact and_congr_left' Nat.lt_succ_iff

theorem reportSlots_sorted (m : Image) (start : Nat) : (reportSlots m start).Pairwise (· < ·) :=
  List.pairwise_lt_range.filter _

/-- The slots from the first that gets a report on: that one, and the slots behind it. -/
theorem reportSlots_next (hle : slot ≤ 16) (h : nextReport s start slot) :
    reportSlots s.cfg start = slot :: reportSlots s.cfg (slot + 1) := by
  rw [nextReport, if_neg (by omega)] at h
  obtain ⟨hstart, -, hreports, hleast⟩ := h
  refine List.Pairwise.eq_of_mem_iff (r := (· < ·)) (reportSlots_sorted _ _) ?_ fun i => ?_
  · refine List.pairwise_cons.mpr ⟨fun i hi => ?_, reportSlots_sorted _ _⟩
    obtain ⟨-, hi, -⟩ := mem_reportSlots.mp hi
    omega
  · rw [List.mem_cons, mem_reportSlots, mem_reportSlots]
    refine ⟨fun ⟨hi, hs, hr⟩ => ?_, fun hi => ?_⟩
    · by_cases hlt : i < slot
      · obtain ⟨hne, hno⟩ := hleast i hs hlt
        obtain rfl | hr := hr
        · exact absurd rfl hne
        · rw [hno] at hr
          cases hr
      · obtain heq | hgt : i = slot ∨ slot + 1 ≤ i := by omega
        · exact .inl heq
        · exact .inr ⟨hi, hgt, hr⟩
    · obtain rfl | ⟨hi, hs, hr⟩ := hi
      · exact ⟨hle, hstart, hreports⟩
      · exact ⟨hi, by omega, hr⟩

theorem reportSlots_finished (h : nextReport s start 17) : reportSlots s.cfg start = [] := by
  refine List.eq_nil_iff_forall_not_mem.mpr fun i hi => ?_
  obtain ⟨hi, hs, hr⟩ := mem_reportSlots.mp hi
  rw [nextReport, if_pos rfl] at h
  obtain ⟨hne, hno⟩ := h i hs hi
  obtain rfl | hr := hr
  · exact hne rfl
  · rw [hno] at hr
    cases hr

theorem nextReport_headD (s : State) (start : Nat) : nextReport s start ((reportSlots s.cfg start).headD 17) := by
  rcases hr : reportSlots s.cfg start with _ | ⟨slot, rest⟩
  · rw [List.headD_nil, nextReport, if_pos rfl]
    refine fun i hs hi => ⟨fun h0 => ?_, Bool.eq_false_iff.mpr fun hc => ?_⟩
    · exact List.not_mem_nil (hr ▸ mem_reportSlots.mpr ⟨hi, hs, .inl h0⟩)
    · exact List.not_mem_nil (hr ▸ mem_reportSlots.mpr ⟨hi, hs, .inr hc⟩)
  · have hsorted := hr ▸ reportSlots_sorted s.cfg start
    obtain ⟨hfirst, -⟩ := List.pairwise_cons.mp hsorted
    obtain ⟨hle, hs, hreports⟩ := mem_reportSlots.mp (hr ▸ List.mem_cons_self : slot ∈ reportSlots s.cfg start)
    have hleast (i : Nat) (hi : i ∈ reportSlots s.cfg start) : slot ≤ i := by
      rw [hr] at hi
      obtain rfl | hi := List.mem_cons.mp hi
      · exact Nat.le_refl _
      · exact (hfirst i hi).le
    rw [List.headD_cons, nextReport, if_neg (by omega)]
    refine ⟨hs, hle, hreports, fun i hs hi => ⟨fun h0 => ?_, Bool.eq_false_iff.mpr fun hc => ?_⟩⟩
    · exact absurd (hleast i (mem_reportSlots.mpr ⟨by omega, hs, .inl h0⟩)) (by omega)
    · exact absurd (hleast i (mem_reportSlots.mpr ⟨by omega, hs, .inr hc⟩)) (by omega)

/-! ### The report queued (R9) -/

theorem dayReport_exec (h : s.steady) : exec .dayReportQueue s = .next (handAll (dayReportStep s)) :=
  finished_exec h.1 dayReportStep (by simpa using h.2)

theorem queueDayReport_eq (hc : s.train.mode ≠ .config) (hm : s.link.refusalMark = false) (hl : s.link.queue.length < 12) :
    queueDayReport slot s = { s with
      acct := { s.acct with cursor := slot, outstanding := true }
      link := s.link.enter (.day (dayReportOf s slot)) .dayCursor } := by
  have hany : s.link.queue.any (replaces (.day (dayReportOf s slot))) = false := by simp [replaces]
  have hreport : dayReportOf (s.onAcct (fun a => { a with cursor := slot })) slot = dayReportOf s slot := rfl
  unfold queueDayReport
  dsimp only
  rw [hreport, State.onAcct_link, fateOf_of_room _ _ hm hl, hany,
    enqueue_of_room (s.onAcct (fun a => { a with cursor := slot })) _ _ hc hm hl]
  simp only [State.onLink, State.onAcct, hany]
  rfl

/-- Settles O40. -/
theorem dayReportQueued : Obligations.DayReportQueued := by
  intro s h open_
  have hif : open_ ↔ s.train.mode ≠ .config ∧ s.acct.outstanding = false ∧ s.link.occupancy ≤ 5 := Iff.rfl
  refine ⟨_, dayReport_exec h, fun hclosed => ?closed, fun hopen hdone => ?finished, fun slot hopen hm hle hnext => ?queued⟩
  case closed =>
    have hstep : dayReportStep s = s := if_neg (hif.not.mp hclosed)
    rw [hstep]
    exact handAll_eq_handing s
  case finished =>
    have hstep : dayReportStep s = s.onAcct (fun a => { a with cursor := 17 }) := by
      rw [dayReportStep, if_pos (hif.mp hopen), reportSlots_finished hdone]
    rw [hstep, handAll_eq_handing]
    rfl
  case queued =>
    intro r
    obtain ⟨hc, hout, hlen⟩ := hopen
    have hstep : dayReportStep s = queueDayReport slot s := by
      rw [dayReportStep, if_pos ⟨hc, hout, hlen⟩, reportSlots_next hle hnext]
    rw [hstep, queueDayReport_eq hc hm (by omega)]
    refine ⟨by simp, ?_, ?_⟩
    · rw [handAll_waits]
      exact ⟨_, (mem_insertEntry _ _ _).mpr (.inl rfl), rfl, rfl⟩
    · rw [handAll_eq_handing]
      rfl

/-! ### The reports abandoned (R11) -/

theorem raiseQuiet_link (c : Cond) (n : Nat) (v : Int) : (raiseQuiet c n v s).link = s.link := by simp

/-- A raised condition leaves every entry where it is, and queues nothing but its own report. -/
theorem mem_raise_queue (c : Cond) (n : Nat) (v : Int) (x : Entry) :
    (x ∈ s.link.queue → x ∈ (raise c n v s).link.queue)
      ∧ (x ∈ (raise c n v s).link.queue → x ∈ s.link.queue
          ∨ ∃ r k, x = { telegram := .condition r, owner := .other, ticket := k }) := by
  have hreport (u : State) (r : ConditionReport) : (x ∈ u.link.queue → x ∈ (queueConditionReport r u).link.queue)
      ∧ (x ∈ (queueConditionReport r u).link.queue → x ∈ u.link.queue
          ∨ ∃ r k, x = { telegram := .condition r, owner := .other, ticket := k }) := by
    have henter : x ∈ (u.link.enter (.condition r) .other).queue
        ↔ x = { telegram := .condition r, owner := .other, ticket := u.link.nextTicket } ∨ x ∈ u.link.queue :=
      mem_insertEntry _ _ _
    unfold queueConditionReport
    split
    · rw [State.onLink_link, henter]
      exact ⟨.inr, fun h => h.elim (fun h => .inr ⟨r, _, h⟩) .inl⟩
    · rw [State.onLink_link, henter]
      exact ⟨.inr, fun h => h.elim (fun h => .inr ⟨r, _, h⟩) .inl⟩
    all_goals
      rw [raiseQuiet_link]
      exact ⟨id, .inl⟩
  have hquiet := raiseQuiet_link (s := s) c n v
  unfold raise
  dsimp only
  split
  · have h := hreport (raiseQuiet c n v s) ((raiseQuiet c n v s).conditionReport s.mon c n v)
    rwa [hquiet] at h
  · rw [hquiet]
    exact ⟨id, .inl⟩

/-- The reports that wait withdrawn; one on the line stays there and belongs to no close (R11). -/
def withdrawReports (s : State) : State := s.onLink (fun l => { l.withdraw Entry.isDay with
  queue := (l.withdraw Entry.isDay).queue.map (fun e => if e.isDay then { e with owner := .pastClose } else e) })

/-- The slots whose reports are abandoned: those from the cursor on, but for one whose report is on the line (R11). -/
def lostReports (s : State) : List Nat :=
  if s.link.queue.any (fun e => e.isDay && e.onLine) then (reportSlots s.cfg s.acct.cursor).drop 1
  else reportSlots s.cfg s.acct.cursor

theorem abandonReports_none (h : lostReports s = []) : abandonReports s = withdrawReports s := by
  unfold lostReports at h
  unfold abandonReports
  dsimp only
  rw [h, withdrawReports]

theorem abandonReports_some {first : Nat} {rest : List Nat} (h : lostReports s = first :: rest) :
    abandonReports s = raise .reportLost first (first :: rest).length (withdrawReports s) := by
  unfold lostReports at h
  unfold abandonReports
  dsimp only
  rw [h, withdrawReports]

theorem abandonReports_cases : abandonReports s = withdrawReports s
    ∨ ∃ first n, abandonReports s = raise .reportLost first n (withdrawReports s) := by
  rcases h : lostReports s with _ | ⟨first, rest⟩
  · exact .inl (abandonReports_none h)
  · exact .inr ⟨first, _, abandonReports_some h⟩

theorem mem_withdrawReports {x : Entry} : x ∈ (withdrawReports s).link.queue ↔
    ∃ e ∈ s.link.queue, (e.owner ≠ .dayCursor ∧ x = e)
      ∨ (e.owner = .dayCursor ∧ e.onLine = true ∧ x = { e with owner := .pastClose }) := by
  simp only [withdrawReports, State.onLink_link, Link.withdraw, Link.withQueue, List.mem_map, List.mem_filter]
  refine exists_congr fun e => ?_
  by_cases ho : e.owner = .dayCursor
  · have hday : e.isDay = true := decide_eq_true ho
    rw [if_pos hday, hday]
    refine ⟨fun ⟨⟨he, hline⟩, hx⟩ => ⟨he, .inr ⟨ho, by simpa using hline, hx.symm⟩⟩, fun ⟨he, hx⟩ => ?_⟩
    obtain ⟨hne, -⟩ | ⟨-, hline, rfl⟩ := hx
    · exact absurd ho hne
    · exact ⟨⟨he, by simpa using hline⟩, rfl⟩
  · have hday : e.isDay = false := decide_eq_false ho
    rw [if_neg (by rw [hday]; decide), hday]
    refine ⟨fun ⟨⟨he, _⟩, hx⟩ => ⟨he, .inl ⟨ho, hx.symm⟩⟩, fun ⟨he, hx⟩ => ?_⟩
    obtain ⟨-, rfl⟩ | ⟨hday, -⟩ := hx
    · exact ⟨⟨he, rfl⟩, rfl⟩
    · exact absurd hday ho

theorem closeDay_frame_abandon (day : Nat) : (closeDay day s).mon = (abandonReports s).mon
    ∧ (closeDay day s).link = (abandonReports s).link := ⟨rfl, rfl⟩

theorem lostReports_waiting (h : ∀ e ∈ s.link.queue, e.owner = .dayCursor → e.onLine = false) :
    lostReports s = reportSlots s.cfg s.acct.cursor := by
  refine if_neg fun hany => ?_
  obtain ⟨e, he, hday⟩ := List.any_eq_true.mp hany
  obtain ⟨ho, hline⟩ : e.owner = .dayCursor ∧ e.onLine = true := by simpa [Entry.isDay] using hday
  rw [h e he ho] at hline
  cases hline

theorem lostReports_sent (h : ∃ e ∈ s.link.queue, e.owner = .dayCursor ∧ e.onLine = true) :
    lostReports s = (reportSlots s.cfg s.acct.cursor).drop 1 := by
  obtain ⟨e, he, ho, hline⟩ := h
  exact if_pos (List.any_eq_true.mpr ⟨e, he, by simp [Entry.isDay, ho, hline]⟩)

theorem closeDay_mon_of_none (h : lostReports s = []) (day : Nat) : (closeDay day s).mon = s.mon := by
  obtain ⟨hmon, -⟩ := closeDay_frame_abandon (s := s) day
  rw [hmon, abandonReports_none h]
  rfl

/-- The reports abandoned raise REPORT_LOST once, with the first one's slot and their number (R11). -/
theorem closeDay_abandons (hs : s.mon.sized) {first : Nat} (hle : first ≤ 16) (hnext : nextReport s start first)
    (h : lostReports s = reportSlots s.cfg start) (day : Nat) : raisedOnce .reportLost s (closeDay day s)
      ∧ recorded .reportLost (fun r => r.slot = first ∧ r.value = ((List.range 17).filter (fun i =>
          decide (first ≤ i) && (decide (i = 0) || s.cfg.configured i))).length) s (closeDay day s) := by
  obtain ⟨hmon, -⟩ := closeDay_frame_abandon (s := s) day
  have hself : nextReport s first first := by
    rw [nextReport, if_neg (by omega)] at hnext ⊢
    obtain ⟨-, hle, hreports, -⟩ := hnext
    exact ⟨Nat.le_refl _, hle, hreports, fun i h1 h2 => absurd h2 (by omega)⟩
  have hslots := reportSlots_next hle hnext
  have hcount := reportSlots_next hle hself
  have habandon := abandonReports_some (h.trans hslots)
  have hraise := raise_raisedOnce (withdrawReports s) .reportLost first (first :: reportSlots s.cfg (first + 1)).length
    (by decide) hs
  refine ⟨raisedOnce_of_reading hraise (by rw [hmon, habandon]), ?_⟩
  have hrecord := raise_recorded (s := withdrawReports s) (c := .reportLost) (slot := first)
    (v := (first :: reportSlots s.cfg (first + 1)).length)
    (p := fun r => r.slot = first ∧ r.value = ((List.range 17).filter (fun i =>
          decide (first ≤ i) && (decide (i = 0) || s.cfg.configured i))).length)
    ⟨rfl, by rw [← hcount]; rfl⟩
  exact (hrecord.before rfl rfl rfl rfl).later (by rw [hmon, habandon]; exact fun _ hr => hr)

/-- Settles O52. -/
theorem dayCloses : Obligations.DayCloses := by
  intro s endingDay hsized hmon t
  have hacct : (abandonReports s).acct = s.acct := by
    obtain h | ⟨first, n, h⟩ := abandonReports_cases (s := s) <;> rw [h]
    · rfl
    · simp [withdrawReports]
  have hblocks : (abandonReports s).peers = s.peers ∧ (abandonReports s).intake = s.intake
      ∧ (abandonReports s).cfg = s.cfg := by
    obtain h | ⟨first, n, h⟩ := abandonReports_cases (s := s) <;> rw [h]
    · exact ⟨rfl, rfl, rfl⟩
    · simp [withdrawReports, State.cfg]
  obtain ⟨hpeers, hintake, hcfg⟩ := hblocks
  have hslots {i : Nat} (hi : i < 17) : t.acct.slots.getD i {}
      = { s.acct.slots.getD i {} with totals := {}, spaceOver := flagAfterClose (abandonReports s) i (s.acct.slots.getD i {}) } := by
    have hform : t.acct.slots = (List.range (abandonReports s).acct.slots.length).map (fun i =>
        { (abandonReports s).acct.slots.getD i {} with
          totals := {}, spaceOver := flagAfterClose (abandonReports s) i ((abandonReports s).acct.slots.getD i {}) }) := rfl
    rw [hform, map_range_getD _ (by rw [hacct, hsized.1]; exact hi)]
    dsimp only
    rw [hacct]
  have hlink : t.link = (abandonReports s).link := rfl
  have hmem {x : Entry} (hx : x ∈ (withdrawReports s).link.queue) : x ∈ t.link.queue := by
    rw [hlink]
    obtain h | ⟨first, n, h⟩ := abandonReports_cases (s := s) <;> rw [h]
    · exact hx
    · exact (mem_raise_queue _ _ _ x).1 hx
  refine ⟨rfl, congrArg Accounts.slots hacct, rfl, rfl, ?provisional, rfl, fun i hi => ?slots, fun hdone => ?none,
    fun slot hle hnext => ?lost, fun e he ho hline => ?sent, fun e he ho => ?others, fun e he => ?frame⟩
  case provisional =>
    have hprov : t.acct.provisional = ((abandonReports s).intake.suspInject.isSome
      || (abandonReports s).intake.suspWithdraw.isSome || (abandonReports s).acct.restoredTotals) := rfl
    rw [hprov, hintake, hacct]
    simp [Option.isSome_iff_ne_none, or_assoc]
  case slots =>
    have hinventory : t.inventory i = s.inventory i := by rw [State.inventory, hslots hi, State.inventory]
    have hsite : (abandonReports s).siteInventory i = s.siteInventory i := by
      simp only [State.siteInventory, State.inventory, State.peerSum, hacct, hpeers]
    rw [hslots hi]
    refine ⟨rfl, hinventory, ?_⟩
    simp [flagAfterClose, hsite, hcfg]
  case none => exact closeDay_mon_of_none (by unfold lostReports; rw [reportSlots_finished hdone]; split <;> rfl) endingDay
  case lost =>
    refine ⟨fun hwait => closeDay_abandons hmon hle hnext (lostReports_waiting hwait) endingDay, fun hsent => ?_⟩
    have hrest : lostReports s = reportSlots s.cfg (slot + 1) := by
      rw [lostReports_sent hsent, reportSlots_next hle hnext]
      rfl
    exact ⟨fun hdone => closeDay_mon_of_none (hrest.trans (reportSlots_finished hdone)) endingDay,
      fun next hle hnext => closeDay_abandons hmon hle hnext hrest endingDay⟩
  case sent => exact hmem (mem_withdrawReports.mpr ⟨e, he, .inr ⟨ho, hline, rfl⟩⟩)
  case others => exact hmem (mem_withdrawReports.mpr ⟨e, he, .inl ⟨ho, rfl⟩⟩)
  case frame =>
    have hold {x : Entry} (hx : x ∈ (withdrawReports s).link.queue) : x.owner ≠ .dayCursor := by
      obtain ⟨y, -, ⟨ho, rfl⟩ | ⟨-, -, rfl⟩⟩ := mem_withdrawReports.mp hx
      · exact ho
      · simp
    refine ⟨?_, by simp [t], by simp [t], by simp [t], by simp [t]⟩
    rw [hlink] at he
    obtain h | ⟨first, n, h⟩ := abandonReports_cases (s := s) <;> rw [h] at he
    · exact hold he
    · obtain he | ⟨r, k, rfl⟩ := (mem_raise_queue _ _ _ e).2 he
      · exact hold he
      · simp

end Sys2Proof.Machine
end


section
/-! PROOFS. The intact echo of a queued telegram (R9, R91 to R95, R145): what its owner does with it, and what the
sequencer's tests then make of the part's own CLAIM and CEDE. -/

namespace Sys2Proof.Machine

variable {s : State} {n : Nat}

/-! ### The sequencer's tests on a unit that waits for its place or starts -/

theorem wants_not_shutIn (h : wants s) : s.train.mode ≠ .shutIn := by
  obtain ⟨hm | hm, -⟩ := h <;> simp [hm]

theorem not_startDue_of_unit (h : s.comp.unit ≠ .stopped) : ¬ startDue s := fun ⟨_, hu, _⟩ => h hu

theorem claimTest_of_not_due (h : ¬ startDue s) : claimTest s = s :=
  if_neg fun hs => h ((startWanted_iff s).mp hs)

theorem sequencerReact_wanted (hw : wants s) (h : s.comp.unit = .queued ∨ s.comp.unit = .starting) :
    sequencerReact s = s := by
  have hcancel : cancelTests s = s := if_pos ((wantConditions_iff s).mpr hw)
  have hstop : stopTests s = s := by
    unfold stopTests
    obtain h | h := h <;> rw [h]
    exact if_neg (wants_not_shutIn hw)
  rw [sequencerReact, hcancel, hstop]
  exact claimTest_of_not_due (not_startDue_of_unit (by obtain h | h := h <;> simp [h]))

theorem queueCede_unit : (queueCede s).comp.unit = s.comp.unit := by rw [queueCede_comp]

theorem sequencerReact_cancels (h : s.comp.unit = .queued) (hw : ¬ wants s) :
    sequencerReact s = queueCede (s.onComp (·.setUnit .stopped)) := by
  have hcancel : cancelTests s = queueCede (s.onComp (·.setUnit .stopped)) := by
    unfold cancelTests
    rw [if_neg (fun hc => hw ((wantConditions_iff s).mp hc)), if_pos h]
  have hunit : (queueCede (s.onComp (·.setUnit .stopped))).comp.unit = .stopped := queueCede_unit
  have hstop : stopTests (queueCede (s.onComp (·.setUnit .stopped))) = queueCede (s.onComp (·.setUnit .stopped)) := by
    unfold stopTests
    rw [hunit]
  rw [sequencerReact, hcancel, hstop]
  refine claimTest_of_not_due fun ⟨⟨hmode, hpath, hshare⟩, _⟩ => hw ⟨by simpa using hmode, ?_, by simpa using hshare⟩
  rw [queueCede_comp] at hpath
  exact hpath

theorem sequencerReact_quits (h : s.comp.unit = .starting) (hm : s.train.mode = .shutIn) :
    sequencerReact s = queueCede ((withdrawClaim s).onComp (·.toStopping)) := by
  have hcancel : cancelTests s = withdrawClaim s := by
    unfold cancelTests
    rw [if_neg (fun hc => wants_not_shutIn ((wantConditions_iff s).mp hc) hm), if_neg (by simp [h])]
  have hunit : (withdrawClaim s).comp.unit = .starting := by rw [withdrawClaim_comp]; exact h
  have hstop : stopTests (withdrawClaim s) = queueCede ((withdrawClaim s).onComp (·.toStopping)) := by
    unfold stopTests
    rw [hunit]
    exact if_pos (by simpa using hm)
  rw [sequencerReact, hcancel, hstop]
  refine claimTest_of_not_due (not_startDue_of_unit ?_)
  rw [queueCede_unit]
  exact UnitState.noConfusion

theorem queueCede_of_pending (h : s.comp.cedePending = true) : queueCede s = s := if_pos (.inl h)

theorem queueCede_keeps_pending (h : s.comp.cedePending = true) : (queueCede s).comp.cedePending = true := by
  rwa [queueCede_of_pending h]

/-- A CEDE under way stays under way through the sequencer's tests. -/
theorem sequencerReact_cedePending (h : s.comp.cedePending = true) : (sequencerReact s).comp.cedePending = true := by
  have hcancel : (cancelTests s).comp.cedePending = true := by
    unfold cancelTests
    split
    · exact h
    · split
      · exact queueCede_keeps_pending h
      · rwa [withdrawClaim_comp]
  have hstop : (stopTests (cancelTests s)).comp.cedePending = true := by
    unfold stopTests
    split <;> (try split)
    · exact queueCede_keeps_pending hcancel
    all_goals exact hcancel
  unfold sequencerReact claimTest
  split
  · rwa [queueClaim_comp]
  · exact hstop

/-! ### The part's CLAIM (R91, R93) -/

/-- The CLAIM under way no more. -/
def claimHeard (s : State) : State := s.onComp (fun c => { c with claimInFlight := false })

/-- The part's own station entered in the copy. -/
def claimEntered (s : State) : State := addToCopy s.station (claimHeard s)

/-- What the unit makes of its entry: it waits, or cedes it. -/
def answerClaim (s : State) : State :=
  if s.comp.unit = .stopped ∧ s.wantConditions then (claimEntered s).onComp (·.setUnit .queued)
  else queueCede (claimEntered s)

theorem ownClaimEcho_full (hmem : s.station ∉ s.peers.startQueue) (hfull : 8 ≤ s.peers.startQueue.length) :
    ownClaimEcho s = queueCede (countDiscard (claimHeard s)) := by
  unfold ownClaimEcho
  exact (if_neg (by simpa using hmem)).trans (if_pos hfull)

theorem ownClaimEcho_new (hmem : s.station ∉ s.peers.startQueue) (hlen : s.peers.startQueue.length < 8) :
    ownClaimEcho s = if s.peers.startQueue = [] then ownHead (answerClaim s) else answerClaim s := by
  unfold ownClaimEcho
  refine (if_neg (by simpa using hmem)).trans ((if_neg (by simpa using hlen)).trans ?_)
  dsimp only
  by_cases hq : s.peers.startQueue = []
  · rw [if_pos hq]
    exact if_pos (by simp [hq])
  · rw [if_neg hq]
    exact if_neg (by simp [hq])

@[simp] theorem answerClaim_peers : (answerClaim s).peers = { s.peers with
    startQueue := s.peers.startQueue ++ [s.station]
    headAge := if s.peers.startQueue = [] then 0 else s.peers.headAge } := by
  have hentered : (claimEntered s).peers = { s.peers with
      startQueue := s.peers.startQueue ++ [s.station]
      headAge := if s.peers.startQueue = [] then 0 else s.peers.headAge } := by
    by_cases hq : s.peers.startQueue = [] <;> simp [claimEntered, addToCopy, claimHeard, hq]
  unfold answerClaim
  split
  · exact hentered
  · rw [← hentered]
    simp

theorem answerClaim_waits (hw : wants s) (hu : s.comp.unit = .stopped) :
    answerClaim s = (claimEntered s).onComp (·.setUnit .queued) := if_pos ⟨hu, (wantConditions_iff s).mpr hw⟩

theorem answerClaim_cedes (h : ¬ (wants s ∧ s.comp.unit = .stopped)) : answerClaim s = queueCede (claimEntered s) :=
  if_neg fun ⟨hu, hw⟩ => h ⟨(wantConditions_iff s).mp hw, hu⟩

theorem answerClaim_unit (h : ¬ (wants s ∧ s.comp.unit = .stopped)) : (answerClaim s).comp.unit = s.comp.unit := by
  rw [answerClaim_cedes h, queueCede_unit]
  rfl

theorem ownClaimEcho_peers (hmem : s.station ∉ s.peers.startQueue) (hlen : s.peers.startQueue.length < 8) :
    (ownClaimEcho s).peers = { s.peers with
      startQueue := s.peers.startQueue ++ [s.station]
      headAge := if s.peers.startQueue = [] then 0 else s.peers.headAge } := by
  rw [ownClaimEcho_new hmem hlen, ← answerClaim_peers]
  split
  · simp only [ownHead_frame]
  · rfl

theorem ownHead_of_not_queued (h : s.comp.unit ≠ .queued) : ownHead s = s := if_neg h

/-- A STOPPED unit that still wants a start is QUEUED, or starts at the head of an empty copy. -/
theorem ownClaimEcho_waits (hmem : s.station ∉ s.peers.startQueue) (hlen : s.peers.startQueue.length < 8)
    (hw : wants s) (hu : s.comp.unit = .stopped) : wants (ownClaimEcho s) ∧ (ownClaimEcho s).comp.claimInFlight = false
      ∧ (ownClaimEcho s).comp.unit = if s.peers.startQueue = [] then .starting else .queued := by
  rw [ownClaimEcho_new hmem hlen, answerClaim_waits hw hu]
  split
  · have hstart : ((claimEntered s).onComp (·.setUnit .queued)).comp.unit = .queued := rfl
    unfold ownHead
    rw [if_pos hstart]
    exact ⟨by simpa [wants, claimEntered, addToCopy, claimHeard, Compressor.setUnit] using hw,
      by simp [claimEntered, addToCopy, claimHeard, Compressor.setUnit], by simp [Compressor.setUnit]⟩
  · exact ⟨hw, rfl, rfl⟩

theorem ownClaimEcho_unit (hmem : s.station ∉ s.peers.startQueue) (hlen : s.peers.startQueue.length < 8)
    (h : ¬ (wants s ∧ s.comp.unit = .stopped)) (hq : s.comp.unit ≠ .queued) :
    (ownClaimEcho s).comp.unit = s.comp.unit := by
  have hunit := answerClaim_unit h
  rw [ownClaimEcho_new hmem hlen, ownHead_of_not_queued (by rwa [hunit]), ite_self, hunit]

/-- Any other unit cedes its entry at once. -/
theorem ownClaimEcho_cedes (hc : s.train.mode ≠ .config) (hr : s.room n) (hn : n < 8)
    (hp : s.comp.cedePending = false) (hmem : s.station ∉ s.peers.startQueue) (hlen : s.peers.startQueue.length < 8)
    (h : ¬ (wants s ∧ s.comp.unit = .stopped)) :
    (ownClaimEcho s).holds (n + 1) .cede ∧ (ownClaimEcho s).comp.cedePending = true := by
  have hroom := queueCede_room (s := claimEntered s) (n := n) hr hn
  obtain ⟨hpending, hwaits⟩ := queueCede_of_room (s := claimEntered s) (n := n) hc hr (by omega) hp
  rw [ownClaimEcho_new hmem hlen, answerClaim_cedes h]
  split
  · refine ⟨⟨by simpa [State.room] using hroom, by simpa [State.waits] using hwaits⟩, ?_⟩
    unfold ownHead
    split
    · simpa [Compressor.setUnit] using hpending
    · exact hpending
  · exact ⟨⟨hroom, hwaits⟩, hpending⟩

/-! ### The part's CEDE (R92, R94) -/

/-- The part's own entry gone from the copy, a QUEUED unit with it. -/
theorem removeFromCopy_own_comp : (removeFromCopy s.station s).comp
    = if s.station ∈ s.peers.startQueue ∧ s.comp.unit = .queued then s.comp.setUnit .stopped else s.comp := by
  have hhead : (s.peers.startQueue.filter (· != s.station)).head? ≠ some s.station := by
    intro h
    have := List.mem_of_mem_head? (Option.mem_def.mpr h)
    simp at this
  have hbehind : ¬ ((s.peers.startQueue.head? == some s.station
      && (s.peers.startQueue.filter (· != s.station)).head? == some s.station) = true) := by
    rw [Bool.and_eq_true, beq_iff_eq, beq_iff_eq]
    exact fun h => hhead h.2
  unfold removeFromCopy
  dsimp only
  by_cases hmem : s.station ∈ s.peers.startQueue
  · rw [if_pos (by simpa using hmem), if_neg hbehind]
    by_cases hu : s.comp.unit = .queued
    · rw [if_pos ⟨rfl, hu⟩, if_pos ⟨hmem, hu⟩]
      rfl
    · rw [if_neg (fun h => hu h.2), if_neg (fun h => hu h.2)]
      rfl
  · rw [if_neg (by simpa using hmem), if_neg (fun h => hmem h.1)]

theorem ownCedeEcho_comp : (ownCedeEcho s).comp
    = if s.station ∈ s.peers.startQueue ∧ s.comp.unit = .queued
      then { s.comp.setUnit .stopped with cedePending := false } else { s.comp with cedePending := false } :=
  removeFromCopy_own_comp (s := s.onComp (fun c => { c with cedePending := false }))

theorem ownCedeEcho_startQueue :
    (ownCedeEcho s).peers.startQueue = s.peers.startQueue.filter (· != s.station) := by
  rw [ownCedeEcho, removeFromCopy_peers_eq]
  rfl

/-! ### The echo and its owner -/

section
variable {e : Entry} {P : Entry → Prop} {k : Nat}

theorem ownClaimEcho_cases : (ownClaimEcho s = claimHeard s)
    ∨ (ownClaimEcho s = queueCede (countDiscard (claimHeard s)))
    ∨ (ownClaimEcho s = if s.peers.startQueue = [] then ownHead (answerClaim s) else answerClaim s) := by
  by_cases hmem : s.station ∈ s.peers.startQueue
  · exact .inl (if_pos (by simpa using hmem))
  · obtain hlen | hlen := Nat.lt_or_ge s.peers.startQueue.length 8
    · exact .inr (.inr (ownClaimEcho_new hmem hlen))
    · exact .inr (.inl (ownClaimEcho_full hmem hlen))

theorem answerClaim_entries (hP : EntryLaw P k) (h : s.entries P k) : (answerClaim s).entries P k := by
  unfold answerClaim
  split
  · exact h.of_link rfl
  · exact queueCede_entries hP (h.of_link rfl)

theorem ownClaimEcho_entries (hP : EntryLaw P k) (h : s.entries P k) : (ownClaimEcho s).entries P k := by
  obtain heq | heq | heq := ownClaimEcho_cases (s := s) <;> rw [heq]
  · exact h.of_link rfl
  · exact queueCede_entries hP h
  · have hanswer := answerClaim_entries hP h
    split
    · exact hanswer.of_link (by simp)
    · exact hanswer

theorem answerClaim_carries {x : Entry} (h : s.carries n x) (hn : n < 8) : (answerClaim s).carries (n + 1) x := by
  unfold answerClaim
  split
  · exact ⟨h.1.mono (by omega), h.2⟩
  · exact queueCede_carries (s := claimEntered s) h hn

theorem ownClaimEcho_carries {x : Entry} (h : s.carries n x) (hn : n < 8) : (ownClaimEcho s).carries (n + 1) x := by
  obtain heq | heq | heq := ownClaimEcho_cases (s := s) <;> rw [heq]
  · exact ⟨h.1.mono (by omega), h.2⟩
  · exact queueCede_carries (s := countDiscard (claimHeard s)) h hn
  · have hanswer := answerClaim_carries h hn
    split
    · exact ⟨by simpa [State.room] using hanswer.1, by simpa using hanswer.2⟩
    · exact hanswer

theorem tellSent_cases : (e.owner = .dayCursor ∧ tellSent e s
        = s.onAcct (fun a => { a with outstanding := false, cursor := cursorAfter s.cfg a.cursor }))
    ∨ (e.owner = .sequencer ∧ e.telegram = .claim ∧ tellSent e s = ownClaimEcho s)
    ∨ (e.owner = .sequencer ∧ e.telegram = .cede ∧ tellSent e s = ownCedeEcho s)
    ∨ (e.owner ≠ .dayCursor ∧ ¬ (e.owner = .sequencer ∧ (e.telegram = .claim ∨ e.telegram = .cede)) ∧ tellSent e s = s) := by
  unfold tellSent
  split
  · next ho => exact .inl ⟨ho, rfl⟩
  · next ho ht => exact .inr (.inl ⟨ho, ht, rfl⟩)
  · next ho ht => exact .inr (.inr (.inl ⟨ho, ht, rfl⟩))
  · next hday hclaim hcede =>
    exact .inr (.inr (.inr ⟨hday, fun ⟨ho, ht⟩ => ht.elim (hclaim ho) (hcede ho), rfl⟩))

theorem tellSent_entries (hP : EntryLaw P k) (h : s.entries P k) : (tellSent e s).entries P k := by
  obtain ⟨-, heq⟩ | ⟨-, -, heq⟩ | ⟨-, -, heq⟩ | ⟨-, -, heq⟩ := tellSent_cases (s := s) (e := e) <;> rw [heq]
  · exact h.of_link rfl
  · exact ownClaimEcho_entries hP h
  · exact h.of_link (by simp)
  · exact h

theorem tellSent_carries {x : Entry} (h : s.carries n x) (hn : n < 8) : (tellSent e s).carries (n + 1) x := by
  have hsame {u : State} (hu : u.link = s.link) : u.carries (n + 1) x := by
    refine ⟨?_, by rw [hu]; exact h.2⟩
    rw [State.room, hu]
    exact h.1.mono (by omega)
  obtain ⟨-, heq⟩ | ⟨-, -, heq⟩ | ⟨-, -, heq⟩ | ⟨-, -, heq⟩ := tellSent_cases (s := s) (e := e) <;> rw [heq]
  · exact hsame rfl
  · exact ownClaimEcho_carries h hn
  · exact hsame (by simp)
  · exact hsame rfl

end

theorem State.sends.removed_room {a b : List Entry} {e : Entry} (h : s.sends a e b) (hr : s.roomy) :
    (s.onLink (·.remove e)).room 3 := by
  have hremove := State.sends.remove h
  obtain ⟨-, hq, -⟩ := h
  obtain ⟨hmark, hlen⟩ := hr
  rw [hq] at hlen
  simp only [List.length_append, List.length_cons] at hlen
  constructor <;> rw [State.onLink_link, hremove]
  · rw [Link.withQueue_mark, hmark]
    exact refusalMarkAfter_false _ (by simp; omega)
  · simp
    omega

theorem tellSent_claim {e : Entry} (ho : e.owner = .sequencer) (ht : e.telegram = .claim) :
    tellSent e s = ownClaimEcho s := by
  rw [tellSent, ho, ht]

theorem tellSent_cede {e : Entry} (ho : e.owner = .sequencer) (ht : e.telegram = .cede) :
    tellSent e s = ownCedeEcho s := by
  rw [tellSent, ho, ht]

/-- A CEDE that waits in a queue with room is still under way after the sequencer's tests. -/
theorem sequencerReact_under_way (h : s.holds n .cede) (hn : n < 8) (hp : s.comp.cedePending = true) :
    (handAll (sequencerReact s)).waits .cede ∧ (handAll (sequencerReact s)).comp.cedePending = true := by
  have hwaits := sequencerReact_keeps h hn Telegram.noConfusion
  exact ⟨by simpa [State.waits] using hwaits, by rw [handAll_comp]; exact sequencerReact_cedePending hp⟩

/-- A unit on which the sequencer's tests do nothing but claim. -/
abbrev State.resting (s : State) : Prop :=
  s.comp.unit = .stopped ∨ s.comp.unit = .stopping ∨ s.comp.unit = .tripped ∨ s.comp.unit = .lockout

theorem sequencerReact_rests (h : s.resting) : (handAll (sequencerReact s)).comp.unit = s.comp.unit
    ∧ (handAll (sequencerReact s)).comp.cedePending = s.comp.cedePending := by
  rw [handAll_comp, sequencerReact_still h]
  exact ⟨rfl, rfl⟩

theorem echoIntact_exec {a b : List Entry} {e : Entry} (hw : s.atWork) (h : s.sends a e b) :
    exec .echoIntact s = .next (handAll (sequencerReact (tellSent e (s.onLink (·.remove e))))) := by
  obtain ⟨⟨hpow, hpending⟩, -⟩ := hw
  have heq : echoIntact s = sequencerReact (tellSent e (s.onLink (·.remove e))) := by
    unfold echoIntact
    rw [if_neg h.1, State.sends.onLineEntry h]
  rw [← heq]
  exact finished_exec hpow echoIntact (by
    have hremoved : (s.onLink (·.remove e)).link.restartPending = false := hpending
    rw [heq]
    simpa using hremoved)

/-- Settles O37. -/
theorem echoCompletes : Obligations.EchoCompletes := by
  intro s a e b hwork hsends
  obtain ⟨hwaiting, hticket, hcarries⟩ := State.sends.removed hsends
  have hroom := State.sends.removed_room hsends
  refine ⟨_, echoIntact_exec hwork hsends, ?waiting, ?ticket, ?stays, ?report, ?cursor, ?peers, ?claim, ?full, ?cede,
    by simp, by simp, by simp, by simp, by simp⟩
  case waiting =>
    have hremoved : (s.onLink (·.remove e)).entries (fun x => x.onLine = false) 0 := ⟨Nat.zero_le _, hwaiting⟩
    exact (handAll_entries (sequencerReact_entries entryLaw_waiting (tellSent_entries entryLaw_waiting hremoved))).2
  case ticket =>
    intro hlt
    have hremoved : (s.onLink (·.remove e)).entries (fun x => x.ticket ≠ e.ticket) (e.ticket + 1) := ⟨hlt, hticket⟩
    have hlaw := entryLaw_ticket e.ticket
    exact (handAll_entries (sequencerReact_entries hlaw (tellSent_entries hlaw hremoved))).2
  case stays =>
    intro hr x hx hclaim
    have hstays := sequencerReact_carries (tellSent_carries (e := e) (hcarries hr x hx) (by omega)) (by omega) hclaim
    simpa using hstays.2
  case report =>
    intro ho
    obtain ⟨-, heq⟩ | ⟨hseq, -⟩ | ⟨hseq, -⟩ | ⟨hne, -⟩ := tellSent_cases (s := s.onLink (·.remove e)) (e := e)
    · have hout := sequencerReact_outstanding (s := tellSent e (s.onLink (·.remove e))) (by rw [heq]; rfl)
      have hcursor : (handAll (sequencerReact (tellSent e (s.onLink (·.remove e))))).acct.cursor
          = cursorAfter s.cfg s.acct.cursor := by
        simp only [handAll_frame, sequencerReact_frame, heq]
        rfl
      rw [hcursor]
      exact ⟨nextReport_headD s (s.acct.cursor + 1), by simpa using hout⟩
    all_goals simp_all
  case cursor =>
    intro ho
    obtain ⟨hday, -⟩ | ⟨-, -, heq⟩ | ⟨-, -, heq⟩ | ⟨-, -, heq⟩ := tellSent_cases (s := s.onLink (·.remove e)) (e := e)
    · exact absurd hday ho
    all_goals simp [heq]
  case peers =>
    intro ho
    obtain ⟨-, heq⟩ | ⟨hseq, -⟩ | ⟨hseq, -⟩ | ⟨-, -, heq⟩ := tellSent_cases (s := s.onLink (·.remove e)) (e := e)
    · simp [heq]
    · exact absurd hseq ho
    · exact absurd hseq ho
    · simp [heq]
  case claim =>
    intro ho ht hmem hlen
    rw [tellSent_claim ho ht]
    have hpeers : (handAll (sequencerReact (ownClaimEcho (s.onLink (·.remove e))))).peers = { s.peers with
        startQueue := s.peers.startQueue ++ [s.station]
        headAge := if s.peers.startQueue = [] then 0 else s.peers.headAge } := by
      simp only [handAll_frame, sequencerReact_frame]
      exact ownClaimEcho_peers (s := s.onLink (·.remove e)) hmem hlen
    have hrests (hnot : ¬ (wants s ∧ s.comp.unit = .stopped)) (hrest : s.resting) :
        (handAll (sequencerReact (ownClaimEcho (s.onLink (·.remove e))))).comp.unit = s.comp.unit := by
      have hunit := ownClaimEcho_unit (s := s.onLink (·.remove e)) hmem hlen hnot (by
        obtain hu | hu | hu | hu := hrest <;> simp [hu])
      exact (sequencerReact_rests (by rw [State.resting, hunit]; exact hrest)).1.trans hunit
    refine ⟨by rw [hpeers], by rw [hpeers], fun hw hu => ?_, fun hnot hp hr => ?_,
      fun hw hu => (hrests (fun h => hw h.1) (.inl hu)).trans hu,
      fun hu => hrests (fun h => by simp [h.2] at hu) (.inr hu)⟩
    · obtain ⟨hwants, hclaim, hunit⟩ := ownClaimEcho_waits (s := s.onLink (·.remove e)) hmem hlen hw hu
      rw [handAll_comp, sequencerReact_wanted hwants (by rw [hunit]; split <;> simp)]
      exact ⟨hclaim, hunit⟩
    · obtain ⟨hholds, hpending⟩ := ownClaimEcho_cedes (s := s.onLink (·.remove e)) hwork.2 (hroom hr) (by omega) hp hmem
        hlen hnot
      exact sequencerReact_under_way hholds (by omega) hpending
  case full =>
    intro ho ht hmem hfull
    rw [tellSent_claim ho ht, ownClaimEcho_full (s := s.onLink (·.remove e)) hmem hfull]
    refine ⟨by simp [countDiscard, claimHeard], ?_, fun hp hr => ?_⟩
    · simp only [handAll_frame, sequencerReact_frame, queueCede_frame]
      rfl
    · have hheld := queueCede_room (s := countDiscard (claimHeard (s.onLink (·.remove e)))) (n := 3) (hroom hr) (by omega)
      obtain ⟨hpending, hwaits⟩ := queueCede_of_room (s := countDiscard (claimHeard (s.onLink (·.remove e)))) (n := 3)
        hwork.2 (hroom hr) (by omega) hp
      exact sequencerReact_under_way ⟨hheld, hwaits⟩ (by omega) hpending
  case cede =>
    intro ho ht
    rw [tellSent_cede ho ht]
    have hcomp := ownCedeEcho_comp (s := s.onLink (·.remove e))
    have hlink : (ownCedeEcho (s.onLink (·.remove e))).link = (s.onLink (·.remove e)).link := by simp
    have hother (hu : s.comp.unit ≠ .queued) : (ownCedeEcho (s.onLink (·.remove e))).comp
        = { s.comp with cedePending := false } := hcomp.trans (if_neg fun h => hu h.2)
    have hrests (hu : s.comp.unit ≠ .queued) (hrest : s.resting) :
        (handAll (sequencerReact (ownCedeEcho (s.onLink (·.remove e))))).comp.cedePending = false := by
      rw [(sequencerReact_rests (by rw [State.resting, hother hu]; exact hrest)).2, hother hu]
    refine ⟨by simp [ownCedeEcho_startQueue], fun hq hstart hstop => ?_,
      fun hu => hrests (by simp [hu]) (.inl hu), fun hu => ⟨fun hm => ?_, fun hm => ?_⟩, fun hu => ⟨fun hmem => ?_,
      fun hmem hw => ?_, fun hmem hw => ?_⟩⟩
    · by_cases hrun : s.comp.unit = .running
      · have hrunning := sequencerReact_running (s := ownCedeEcho (s.onLink (·.remove e))) (by rw [hother hq]; exact hrun)
        rw [handAll_comp, hrunning.2.2, hother hq]
      · refine hrests hq ?_
        cases hcase : s.comp.unit <;> simp_all [State.resting]
    · have hstart := sequencerReact_starting (s := ownCedeEcho (s.onLink (·.remove e)))
        (by rw [hother (by simp [hu])]; exact hu) (by simpa using hm)
      rw [handAll_comp, hstart, hother (by simp [hu])]
      exact ⟨hu, rfl⟩
    · have hunit : (ownCedeEcho (s.onLink (·.remove e))).comp.unit = .starting := by
        rw [hother (by simp [hu])]
        exact hu
      rw [sequencerReact_quits hunit (by simpa using hm)]
      refine ⟨?_, ?_, ?_, fun hr => ?_⟩
      · rw [handAll_comp, queueCede_comp]
        rfl
      · rw [handAll_comp, queueCede_comp]
        rfl
      · rw [handAll_comp, queueCede_comp]
        rfl
      · have hheld := withdrawClaim_room (s := ownCedeEcho (s.onLink (·.remove e))) (n := 3)
          (by rw [State.room, hlink]; exact hroom hr) (by omega)
        obtain ⟨hpending, hwaits⟩ := queueCede_of_room (n := 3)
          (s := (withdrawClaim (ownCedeEcho (s.onLink (·.remove e)))).onComp (·.toStopping)) (by simpa using hwork.2)
          hheld (by omega) (by rw [State.onComp_comp, withdrawClaim_comp, hother (by simp [hu])]; rfl)
        exact ⟨by rw [handAll_comp]; exact hpending, by simpa [State.waits] using hwaits⟩
    · have hstopped := hcomp.trans (if_pos ⟨hmem, hu⟩)
      obtain ⟨hunit, hpending⟩ := sequencerReact_rests (s := ownCedeEcho (s.onLink (·.remove e)))
        (.inl (by rw [hstopped]; rfl))
      rw [hunit, hpending, hstopped]
      exact ⟨rfl, rfl⟩
    · have hqueued := hcomp.trans (if_neg fun h => hmem h.1)
      have hwants : wants (ownCedeEcho (s.onLink (·.remove e))) := by
        rw [wants, hqueued]
        simpa [wants] using hw
      rw [sequencerReact_wanted hwants (.inl (by rw [hqueued]; exact hu)), handAll_comp, hqueued]
      exact ⟨hu, rfl⟩
    · have hqueued := hcomp.trans (if_neg fun h => hmem h.1)
      have hwants : ¬ wants (ownCedeEcho (s.onLink (·.remove e))) := by
        rw [wants, hqueued]
        simpa [wants] using hw
      rw [sequencerReact_cancels (by rw [hqueued]; exact hu) hwants]
      refine ⟨by rw [handAll_comp, queueCede_unit]; rfl, fun hr => ?_⟩
      obtain ⟨hpending, hwaits⟩ := queueCede_of_room (n := 3)
        (s := (ownCedeEcho (s.onLink (·.remove e))).onComp (·.setUnit .stopped)) (by simpa using hwork.2)
        (by rw [State.room, State.onComp_link, hlink]; exact hroom hr) (by omega) (by rw [State.onComp_comp, hqueued]; rfl)
      exact ⟨by rw [handAll_comp]; exact hpending, by simpa [State.waits] using hwaits⟩

end Sys2Proof.Machine
end


section
/-! PROOFS. The transmit queue (R146 to R148). O55 asks that entries of one ticket are equal, which leaves room for a queue
that holds one entry several times over: evicting it takes every copy out, so the queue is empty and its refusal mark clear
when TX_DROP is raised, and the report of TX_DROP enters beside the telegram that evicted. No run of the part gives two
places of the queue one ticket; the statement lacks that the tickets are distinct place by place. -/

namespace Sys2Proof.Machine

/-- A waiting INVT. -/
def repeatedEntry : Entry := { telegram := .invt 1 0 0 [], owner := .other, ticket := 0 }

/-- A part in IDLE whose full queue holds one INVT twelve times over, and whose TX_DROP has its enable set. -/
def repeatedQueue : State := { State.reset with
  train := { State.reset.train with mode := .idle }
  port := { State.reset.port with image := some { escalation := 2 ^ 15 } }
  link := { State.reset.link with queue := List.replicate 12 repeatedEntry, refusalMark := true } }

theorem eq_of_mem_repeatedQueue {x : Entry} (h : x ∈ repeatedQueue.link.queue) : x = repeatedEntry :=
  List.eq_of_mem_replicate h

theorem repeatedQueue_sound : repeatedQueue.link.queueSound :=
  ⟨by decide, List.pairwise_replicate.mpr (.inr (Nat.le_refl _)), fun _ => rfl, by decide⟩

/-- The CLAIM and the report of TX_DROP. -/
theorem claim_evicts_repeated : (enqueue .claim .sequencer repeatedQueue).link.queue.length = 2 := by decide

/-- Refutes O55: a full queue that holds one entry twelve times over is emptied by the eviction, and the report of its
TX_DROP enters beside the CLAIM. -/
theorem not_transmitQueue : ¬ Obligations.TransmitQueue := by
  rintro ⟨henqueue, -⟩
  obtain ⟨-, -, -, hevict, -⟩ := henqueue repeatedQueue .claim .sequencer (by decide) repeatedQueue_sound (by decide)
    (fun _ _ => (replaces_claim _).1)
    (fun x hx y hy _ => (eq_of_mem_repeatedQueue hx).trans (eq_of_mem_repeatedQueue hy).symm)
  obtain ⟨hqueue, -⟩ := hevict repeatedEntry (by decide) rfl rfl (fun x hx _ => by
    rw [eq_of_mem_repeatedQueue (List.mem_of_mem_filter hx)])
  have hlen := congrArg List.length hqueue
  rw [claim_evicts_repeated] at hlen
  exact absurd hlen (by decide)

end Sys2Proof.Machine
end


section
/-! PROOFS. A SAMPLE accepted (R65, R122 to R132): the intake's own part, the end of HOLD, and what its totalizers do. -/

namespace Sys2Proof.Machine

open Sys2Proof (Flow Sample)

variable {s : State} {p : Sample}

/-! ### An accepted SAMPLE -/

/-- A SAMPLE up to its totalizers: the intake's part, the end of HOLD, the feedback. -/
def heardSample (p : Sample) (s : State) : State := takeFeedback p.feedback (endHold (s.onIntake (·.accept p)))

theorem acceptSample_eq (p : Sample) (s : State) : acceptSample p s
    = if (heardSample p s).train.mode = .config then heardSample p s else takeFuels p (takeMeter p (heardSample p s)) := rfl

theorem sample_exec (h : s.steady) (hnew : s.intake.lastSequence ≠ some p.sequence) :
    exec (.sample (some p)) s = .next (requestSetpoint (settle (acceptSample p s))) := by
  have hstep : sampleStep (some p) s = settleRestart (requestSetpoint (settle (acceptSample p s))) := by
    simp [sampleStep, takeSample, hnew]
  have hpending : (requestSetpoint (settle (acceptSample p s))).link.restartPending = false := by
    simpa using h.2
  have harm : exec (.sample (some p)) s = whilePowered (sampleStep (some p)) s := rfl
  rw [harm, plain_exec h.1, hstep, settleRestart_eq_self _ hpending]

theorem heardSample_train : (heardSample p s).train = (endHold (s.onIntake (·.accept p))).train := by
  simp [heardSample]

theorem acceptSample_train : (acceptSample p s).train = (endHold (s.onIntake (·.accept p))).train := by
  rw [acceptSample_eq, ← heardSample_train]
  split <;> simp

theorem acceptSample_comp : (acceptSample p s).comp = (heardSample p s).comp := by
  rw [acceptSample_eq]
  split <;> simp

@[simp] theorem heardSample_meters : keepsMeters (s.onIntake (·.accept p)) (heardSample p s) := by
  simp [heardSample]

/-- What nothing after the intake's own part changes in an accepted SAMPLE. -/
@[simp] abbrev keepsAccepted (s t : State) : Prop :=
  t.intake.held = s.intake.held ∧ t.intake.latestCv = s.intake.latestCv ∧ t.intake.lastSequence = s.intake.lastSequence
    ∧ t.intake.fieldTimer = s.intake.fieldTimer ∧ t.intake.lateRaised = s.intake.lateRaised
    ∧ t.intake.fieldLost = s.intake.fieldLost ∧ t.intake.checkFailures = s.intake.checkFailures
    ∧ t.intake.sequenceGaps = s.intake.sequenceGaps ∧ t.intake.hourSamples = s.intake.hourSamples
    ∧ t.intake.lineup = s.intake.lineup ∧ t.intake.samples = s.intake.samples

/-- What the totalizers of a SAMPLE leave of the intake. -/
@[simp] abbrev keepsHeard (s t : State) : Prop :=
  keepsAccepted s t ∧ t.intake.handed = s.intake.handed ∧ t.intake.sending = s.intake.sending ∧ t.intake.sendAgain = s.intake.sendAgain

@[simp] theorem toSuspense_heard (span : Nat) (v : Option Nat) : keepsHeard s (toSuspense span v s) := by
  have hset (i : Intake) (f : Flow) (r : Option Suspense) : keepsHeard { s with intake := i }
      { s with intake := i.setSuspense f r } := by cases f <;> simp [Intake.setSuspense]
  unfold toSuspense
  dsimp only
  split
  · exact hset _ _ _
  · split
    · exact hset _ _ _
    · have h := hset s.intake
      simpa [replyDue, replyTo] using h _ _

@[simp] theorem takeDifference_heard (dv span : Nat) (b : Bool) : keepsHeard s (takeDifference dv span b s) := by
  unfold takeDifference
  dsimp only
  repeat' split
  all_goals simp

@[simp] theorem takeMeter_heard : keepsHeard s (takeMeter p s) := by
  unfold takeMeter
  dsimp only
  repeat' split
  all_goals simp

@[simp] theorem takeFuels_heard : keepsHeard s (takeFuels p s) := by simp [takeFuels]

@[simp] theorem acceptSample_heard : keepsHeard (heardSample p s) (acceptSample p s) := by
  rw [acceptSample_eq]
  split <;> simp

theorem sample_heard : keepsMeters s (requestSetpoint (settle s)) := by simp [settle]

/-! ### The intake's own part (R122, R123) -/

theorem holdField_after (low high : Int) (v : Option Int) (before : Option Held) :
    heldAfter low high v before (holdField low high v before) := by
  refine ⟨fun x hx hlow hhigh => ?_, fun hbad => ?_⟩
  · simp [holdField, validIn, hx, hlow, hhigh]
  · obtain hv | ⟨x, hx, hout⟩ := hbad
    · simp [holdField, validIn, hv]
    · have hrange : ¬ (low ≤ x ∧ x ≤ high) := by omega
      simp [holdField, validIn, hx, hrange]

theorem validCv_of_range {x : Nat} (hx : p.cv = some x) (hlow : 1 ≤ x) (hhigh : x ≤ 200000) : validCv p = some x := by
  have hrange : (1 : Int) ≤ (x : Int) ∧ (x : Int) ≤ 200000 := by omega
  simp [validCv, validIn, asInt, hx, hrange]

theorem validCv_eq_none (h : p.cv = none ∨ ∃ x, p.cv = some x ∧ (x < 1 ∨ 200000 < x)) : validCv p = none := by
  obtain hx | ⟨x, hx, hout⟩ := h
  · simp [validCv, validIn, asInt, hx]
  · simp [validCv, validIn, asInt, hx]
    omega

theorem gapAfter_spec {gaps l new : Nat} (hl : l < 256) (hnew : new < 256) : ∃ gap, gap < 256
    ∧ (l + 1 + gap) % 256 = new ∧ gapAfter gaps (some l) new = satAdd top16 gaps gap :=
  ⟨(new + 511 - l % 256) % 256, Nat.mod_lt _ (by decide), by omega, rfl⟩

/-! ### The end of HOLD (R65) -/

theorem endHold_of_hold (h : s.train.mode ≠ .hold) : endHold s = s := if_neg h

theorem endHold_done (h : s.train.mode = .hold) (hd : s.train.listenDone = true) :
    endHold s = s.onTrain (fun t => { t with mode := .idle }) := (if_pos h).trans (if_pos hd)

theorem endHold_listens (h : s.train.mode = .hold) (hd : s.train.listenDone = false) : endHold s = enterListen s :=
  (if_pos h).trans (if_neg (by simp [hd]))

theorem enterListen_unhalted (hh : s.link.haltSet = []) (hf : s.intake.fieldLost = false) :
    enterListen s = listenTest (s.onTrain (fun c => { c with mode := .listen })) := by
  unfold enterListen
  exact (if_neg (by simp [hh])).trans (if_neg (by simp [hf]))

theorem endHold_shutIn (h : s.train.mode = .hold) (hd : s.train.listenDone = false) (hh : s.link.haltSet ≠ []) :
    (endHold s).train.mode = .shutIn := by
  rw [endHold_listens h hd, enterListen_halted hh, enterShutIn_train_eq, stopTrain_shutIn_train]

theorem endHold_listen (h : s.train.mode = .hold) (hd : s.train.listenDone = false) (hh : s.link.haltSet = [])
    (hf : s.intake.fieldLost = false) :
    (listenOver s → (endHold s).train = { s.train with mode := .idle, listenDone := true })
      ∧ (¬ listenOver s → (endHold s).train = { s.train with mode := .listen }) := by
  rw [endHold_listens h hd, enterListen_unhalted hh hf]
  refine ⟨fun hover => ?_, fun hnot => ?_⟩
  · rw [listenTest_pos (s := s.onTrain (fun c => { c with mode := .listen })) ⟨rfl, hover⟩]
    rfl
  · rw [listenTest_neg (s := s.onTrain (fun c => { c with mode := .listen })) (fun hx => hnot hx.2)]
    rfl

/-- The train that leaves HOLD flows nowhere. -/
theorem endHold_calm (h : s.train.mode = .hold) :
    modeFlow (endHold s).train.mode = none ∧ (endHold s).train.mode ≠ .reversing
      ∧ (endHold s).train.mode ≠ .config ∧ (endHold s).train.lastFlow = s.train.lastFlow := by
  by_cases hd : s.train.listenDone = true
  · rw [endHold_done h hd]
    exact ⟨rfl, by simp, by simp, rfl⟩
  · rw [endHold_listens h (by simpa using hd)]
    unfold enterListen
    dsimp only
    split
    · rw [enterShutIn_train_eq, stopTrain_shutIn_train]
      exact ⟨rfl, by simp, by simp, rfl⟩
    · split
      · rw [enterHold_train_eq, stopTrain_train]
        exact ⟨rfl, by simp, by simp, rfl⟩
      · unfold listenTest
        split
        · exact ⟨rfl, by simp, by simp, rfl⟩
        · split <;> exact ⟨rfl, by simp, by simp, rfl⟩

/-! ### The feedback (R97) -/

theorem queueCede_feedback : (queueCede s).comp.feedback = s.comp.feedback ∧ (queueCede s).comp.awaiting = s.comp.awaiting := by
  rw [queueCede_comp]
  exact ⟨rfl, rfl⟩

theorem withdrawClaim_feedback : (withdrawClaim s).comp.feedback = s.comp.feedback
    ∧ (withdrawClaim s).comp.awaiting = s.comp.awaiting := by
  rw [withdrawClaim_comp]
  exact ⟨rfl, rfl⟩

theorem takeTrip_feedback : (takeTrip s).comp.feedback = s.comp.feedback ∧ (takeTrip s).comp.awaiting = s.comp.awaiting := by
  unfold takeTrip
  dsimp only
  split
  · rw [queueCede_feedback.1, queueCede_feedback.2]
    split <;> simp [Compressor.setUnit]
  · rw [queueCede_feedback.1, queueCede_feedback.2]
    split <;> simp [Compressor.setUnit]
  · rw [withdrawClaim_feedback.1, withdrawClaim_feedback.2]
    split <;> simp [Compressor.setUnit]
  all_goals split <;> simp [Compressor.setUnit]

theorem feedbackTable_feedback (before : Option Sys2Proof.Feedback) (f : Sys2Proof.Feedback) :
    (feedbackTable before f s).comp.feedback = s.comp.feedback
      ∧ (feedbackTable before f s).comp.awaiting = s.comp.awaiting := by
  unfold feedbackTable
  split
  · exact ⟨rfl, rfl⟩
  · split
    · exact ⟨rfl, rfl⟩
    · exact takeTrip_feedback
  · exact takeTrip_feedback
  · rw [queueCede_feedback.1, queueCede_feedback.2]
    simp [handCommand, Compressor.setUnit]
  · exact ⟨rfl, rfl⟩
  · unfold autoRestart
    split <;> exact ⟨rfl, rfl⟩
  · exact ⟨rfl, rfl⟩

theorem takeFeedback_none : takeFeedback none s = s := rfl

theorem takeFeedback_some (f : Sys2Proof.Feedback) : (takeFeedback (some f) s).comp.feedback = some f
    ∧ (takeFeedback (some f) s).comp.awaiting = false := by
  unfold takeFeedback
  dsimp only
  split
  · unfold settleAfterReset
    split <;> exact ⟨rfl, rfl⟩
  · exact feedbackTable_feedback _ _

theorem sampled_comp : (requestSetpoint (settle (acceptSample p s))).comp
    = { (sequencerReact (acceptSample p s)).comp with zeroDemand := (settle (acceptSample p s)).comp.zeroDemand } := by
  rw [← settle_comp]
  simp only [requestSetpoint_frame]

theorem sampled_feedback : (requestSetpoint (settle (acceptSample p s))).comp.feedback
      = (if p.feedback = none then s.comp.feedback else p.feedback) := by
  rw [sampled_comp]
  dsimp only
  simp only [sequencerReact_frame]
  rw [acceptSample_comp, heardSample]
  rcases hfb : p.feedback with _ | f
  · simp [takeFeedback_none]
  · simpa using (takeFeedback_some f).1

/-! ### A SETPOINT under way (R132) -/

section
variable {x : Setpoint} (h : s.intake.sending = some x)
include h

theorem requestSetpoint_sending : (requestSetpoint s).intake.sending = some x := by
  unfold requestSetpoint
  split
  · exact h
  · rw [State.onIntake_intake, h]

theorem handFields_sends (f : Setpoint → Setpoint) : (handFields f s).intake.sending = some x := by
  unfold handFields
  split
  · exact h
  · exact requestSetpoint_sending h

theorem handAll_sends : (handAll s).intake.sending = some x :=
  handFields_sends (handFields_sends (handFields_sends h _) _) _

theorem settle_sends : (settle s).intake.sending = some x := by
  refine handAll_sends ?_
  unfold applyHold setDemand
  split <;> simpa using h

theorem takeFeedback_sends {fb : Option Sys2Proof.Feedback} : (takeFeedback fb s).intake.sending = some x := by
  have htrip {u : State} (hu : u.intake.sending = some x) : (takeTrip u).intake.sending = some x := by
    unfold takeTrip
    dsimp only
    split <;> (try simp only [queueCede_frame, withdrawClaim_frame]) <;> split <;> simpa using hu
  have htable (b : Option Sys2Proof.Feedback) (f : Sys2Proof.Feedback) {u : State} (hu : u.intake.sending = some x) :
      (feedbackTable b f u).intake.sending = some x := by
    unfold feedbackTable
    split
    · exact hu
    · split
      · exact hu
      · exact htrip hu
    · exact htrip hu
    · simp only [queueCede_frame]
      exact handFields_sends (by exact hu) _
    · exact hu
    · unfold autoRestart
      split <;> exact hu
    · exact hu
  unfold takeFeedback
  split
  · exact h
  · dsimp only
    split
    · unfold settleAfterReset
      split <;> exact h
    · exact htable _ _ h

end

theorem requestSetpoint_sends (hc : s.train.mode ≠ .config) : (requestSetpoint s).intake.sending ≠ none
    ∧ (s.intake.sending ≠ none → (requestSetpoint s).intake.sendAgain = true) := by
  unfold requestSetpoint
  rw [if_neg hc, State.onIntake_intake]
  split
  · next hnone => exact ⟨by simp, fun h => absurd hnone h⟩
  · next x hsome => exact ⟨by simp [hsome], fun _ => rfl⟩

/-- Settles O41. -/
theorem sampleTaken : Obligations.SampleTaken := by
  refine ⟨fun s hp => ?failed, fun s p hp hrepeat => ?repeated, fun s p h hnew => ?accepted⟩
  case failed => exact plain_exec hp (sampleStep none)
  case repeated =>
    have hsame : sampleStep (some p) s = s := by simp [sampleStep, takeSample, hrepeat]
    have harm : exec (.sample (some p)) s = whilePowered (sampleStep (some p)) s := rfl
    rw [harm, plain_exec hp, hsame]
  case accepted =>
    intro pressure temperature
    let t := requestSetpoint (settle (acceptSample p s))
    obtain ⟨hheld, hcv, hseq, htimer, hlate, hlost, hfail, hgaps, hhour, hlineup, hmeter, hspan, hcompFuel, hheaterFuel,
      hvolume, -, -, hsamples, -⟩ : keepsMeters (acceptSample p s) t := sample_heard
    have hsending : (acceptSample p s).intake.sending = (heardSample p s).intake.sending := by simp
    obtain ⟨hheld', hcv', hseq', htimer', hlate', hlost', hfail', hgaps', hhour', hlineup', hsamples'⟩ :
        keepsAccepted (s.onIntake (·.accept p)) (acceptSample p s) := by simp
    rw [hheld'] at hheld
    rw [hcv'] at hcv
    rw [hgaps'] at hgaps
    have htrain : t.train = { (endHold (s.onIntake (·.accept p))).train with demand := t.train.demand } := by
      simp only [t, requestSetpoint_frame]
      rw [← acceptSample_train, settle_train]
    have hcalm (hm : s.train.mode = .hold) : t.train = (endHold (s.onIntake (·.accept p))).train := by
      obtain ⟨hflow, hrev, -⟩ := endHold_calm (s := s.onIntake (·.accept p)) hm
      rw [← acceptSample_train] at hflow hrev ⊢
      simp only [t, requestSetpoint_frame]
      exact settle_train_of_calm hflow hrev
    refine ⟨t, sample_exec h hnew, hseq.trans hseq', htimer.trans htimer', hlost.trans hlost', hlate.trans hlate',
      hsamples.trans hsamples', hlineup.trans hlineup', hfail.trans hfail', hhour.trans hhour', fun l hl hlt hpt => ?gap,
      fun hl => ?nogap, ?_, ?_, ?_, ?_, ?_, ?_, ?_, ?_, ?_, ?_, fun x hx hlow hhigh => ?cv, fun hbad => ?nocv, ?feedback,
      fun hm => ?still, fun hm hd => ?done, fun hm hd hh => ?halted, fun hm hd hh => ⟨fun hover => ?ready, fun hnot => ?wait⟩,
      fun hm => ?send, fun hm => ?config, by simp [t], by simp [t], by simp [t], by simp [t], by simp [t]⟩
    case gap =>
      rw [hgaps]
      obtain ⟨gap, hlt, hmod, hgap⟩ := gapAfter_spec (gaps := s.intake.sequenceGaps) hlt hpt
      exact ⟨gap, hlt, hmod, by simpa [Intake.accept, hl] using hgap⟩
    case nogap => simp [hgaps, Intake.accept, hl, gapAfter]
    case cv => simp [hcv, Intake.accept, validCv_of_range hx hlow hhigh]
    case nocv => simp [hcv, Intake.accept, validCv_eq_none hbad]
    case feedback => exact sampled_feedback
    case still =>
      rw [endHold_of_hold (s := s.onIntake (·.accept p)) hm] at htrain
      refine ⟨htrain, ?_⟩
      have hsettled : t.train = (settle (acceptSample p s)).train := by simp only [t, requestSetpoint_frame]
      have hdemand : (sequencerReact (acceptSample p s)).train.demand = s.train.demand := by
        simp only [sequencerReact_frame]
        rw [acceptSample_train, endHold_of_hold (s := s.onIntake (·.accept p)) hm]
        rfl
      rw [hsettled, settle, handAll_train, applyHold_train]
      split
      · exact .inr rfl
      · exact .inl hdemand
    case done => exact (hcalm hm).trans (congrArg State.train (endHold_done (s := s.onIntake (·.accept p)) hm hd))
    case halted =>
      rw [hcalm hm]
      exact endHold_shutIn (s := s.onIntake (·.accept p)) hm hd hh
    case ready => exact (hcalm hm).trans ((endHold_listen (s := s.onIntake (·.accept p)) hm hd hh rfl).1 hover)
    case wait => exact (hcalm hm).trans ((endHold_listen (s := s.onIntake (·.accept p)) hm hd hh rfl).2 hnot)
    case send =>
      have hmode : (settle (acceptSample p s)).train.mode ≠ .config := by
        rw [settle_train]
        dsimp only
        rw [acceptSample_train]
        by_cases hhold : s.train.mode = .hold
        · exact (endHold_calm (s := s.onIntake (·.accept p)) hhold).2.2.1
        · rw [endHold_of_hold (s := s.onIntake (·.accept p)) hhold]
          exact hm
      obtain ⟨hsend, hagain⟩ := requestSetpoint_sends hmode
      obtain hnone | ⟨x, hx⟩ := Option.eq_none_or_eq_some s.intake.sending
      · exact ⟨hsend, fun hs => absurd hnone hs⟩
      · have hended : (endHold (s.onIntake (·.accept p))).intake.sending = some x := by
          simp only [endHold_frame]
          exact hx
        have hheard : (heardSample p s).intake.sending = some x := takeFeedback_sends hended
        exact ⟨hsend, fun _ => hagain (by rw [settle_sends (hsending.trans hheard)]; simp)⟩
    case config =>
      have hheard : (heardSample p s).train.mode = .config := by
        rw [heardSample_train, endHold_of_hold (s := s.onIntake (·.accept p)) (by simp [hm])]
        exact hm
      have hsame : acceptSample p s = heardSample p s := (acceptSample_eq p s).trans (if_pos hheard)
      rw [hmeter, hspan, hvolume, hcompFuel, hheaterFuel, hsame]
      simp [Intake.accept]
    all_goals
      rw [hheld]
      exact holdField_after _ _ _ _

end Sys2Proof.Machine
end


section
/-! PROOFS. The totalizers of a SAMPLE (R125 to R131): what a difference, a restore mark and a totalizer reset leave in the
open interval and in suspense, and what waits in the queue meanwhile. -/

namespace Sys2Proof.Machine

open Sys2Proof (Flow Sample Feedback)

variable {s : State} {p : Sample} {c : Cond} {slot n : Nat} {v : Int} {m t : Telegram} {o : Owner}

/-! ### The monitor's lists keep their lengths (R157) -/

theorem raiseQuiet_sized (hs : s.mon.sized) : (raiseQuiet c slot v s).mon.sized := by
  obtain ⟨hsticky, hcounters⟩ := raiseQuiet_flags s c slot v
  rw [Monitor.sized, hsticky, hcounters, updateAt_length, updateAt_length]
  exact hs

theorem raise_sized (hs : s.mon.sized) : (raise c slot v s).mon.sized := by
  have hreport (u : State) (r : ConditionReport) (hu : u.mon.sized) : (queueConditionReport r u).mon.sized := by
    unfold queueConditionReport
    split
    · exact hu
    · exact hu
    all_goals exact raiseQuiet_sized hu
  unfold raise
  dsimp only
  split
  · exact hreport _ _ (raiseQuiet_sized hs)
  · exact raiseQuiet_sized hs

theorem raiseDrop_sized (hs : s.mon.sized) : (raiseDrop t s).mon.sized := by
  unfold raiseDrop
  split
  · exact raiseQuiet_sized hs
  · exact raise_sized hs

theorem enqueue_sized (hs : s.mon.sized) : (enqueue t o s).mon.sized := by
  unfold enqueue
  split
  · exact hs
  · split
    · exact hs
    · exact hs
    all_goals exact raiseDrop_sized (by simpa using hs)

theorem queueCede_sized (hs : s.mon.sized) : (queueCede s).mon.sized := by
  unfold queueCede
  split
  · exact hs
  · exact enqueue_sized hs

/-! ### What stays in a queue that is not full (R147) -/

/-- A telegram waits in a queue of at most so many entries, whatever its refusal mark. -/
abbrev State.stays (s : State) (n : Nat) (m : Telegram) : Prop := s.link.queue.length ≤ n ∧ s.waits m

theorem State.holds.stays (h : s.holds n m) : s.stays n m := ⟨h.1.2, h.2⟩

theorem enter_stays (h : s.stays n m) : (s.onLink (·.enter t o)).stays (n + 1) m := by
  obtain ⟨hlen, e, he, ht, hline⟩ := h
  refine ⟨?_, e, ?_, ht, hline⟩
  · simpa [Link.enter] using hlen
  · simp [Link.enter, mem_insertEntry, he]

theorem raise_stays (h : s.stays n m) : (raise c slot v s).stays (n + 1) m := by
  have hquiet : (raiseQuiet c slot v s).stays n m := by simpa [State.stays, State.waits] using h
  have hmono {u : State} (hu : u.stays n m) : u.stays (n + 1) m := ⟨Nat.le_succ_of_le hu.1, hu.2⟩
  unfold raise
  dsimp only
  split
  · unfold queueConditionReport
    split
    · exact enter_stays hquiet
    · exact enter_stays hquiet
    all_goals
      refine hmono ?_
      simpa [State.stays, State.waits] using h
  · exact hmono hquiet

theorem raiseDrop_stays (h : s.stays n m) : (raiseDrop t s).stays (n + 1) m := by
  unfold raiseDrop
  split
  · exact ⟨by simpa using Nat.le_succ_of_le h.1, by simpa [State.waits] using h.2⟩
  · exact raise_stays h

/-- A telegram handed to a queue that is not full leaves waiting what it does not replace. -/
theorem enqueue_stays (h : s.stays n m) (hn : n < 12) (hr : ∀ e : Entry, e.telegram = m → replaces t e = false) :
    (enqueue t o s).stays (n + 1) m := by
  have hlen := h.1
  unfold enqueue
  split
  · exact ⟨Nat.le_succ_of_le h.1, h.2⟩
  · split
    · obtain ⟨hlen, e, he, ht, hline⟩ := h
      refine ⟨by simpa [Link.replace] using Nat.le_succ_of_le hlen, e, ?_, ht, hline⟩
      simp only [State.onLink_link, Link.replace, List.mem_map]
      exact ⟨e, he, if_neg (by simp [hr e ht])⟩
    · exact enter_stays h
    · next e hfate =>
      have hfull := (fateOf_evicting hfate).1
      omega
    all_goals exact raiseDrop_stays (by simpa [State.stays, State.waits] using h)

theorem queueCede_stays (h : s.stays n m) (hn : n < 12) : (queueCede s).stays (n + 1) m := by
  unfold queueCede
  split
  · exact ⟨Nat.le_succ_of_le h.1, h.2⟩
  · exact enqueue_stays (s := s.onComp _) h hn fun e _ => (replaces_claim e).2

theorem withdrawClaim_stays (h : s.stays n m) (hm : m ≠ .claim) : (withdrawClaim s).stays n m := by
  obtain ⟨hlen, e, he, ht, hline⟩ := h
  unfold withdrawClaim
  split
  · refine ⟨?_, e, ?_, ht, hline⟩
    · exact (List.length_filter_le _ _).trans hlen
    · simp only [State.onComp_link, State.onLink_link, Link.withdraw, Link.withQueue, List.mem_filter]
      exact ⟨he, by simp [Entry.isClaim, ht, hm]⟩
  · exact ⟨hlen, e, he, ht, hline⟩

/-- The sequencer's tests leave waiting what waits, but for the part's CLAIM. -/
theorem sequencerReact_stays (h : s.stays n m) (hn : n < 10) (hm : m ≠ .claim) : (sequencerReact s).waits m := by
  have hcancel : (cancelTests s).stays (n + 1) m := by
    unfold cancelTests
    split
    · exact ⟨Nat.le_succ_of_le h.1, h.2⟩
    · split
      · exact queueCede_stays (s := s.onComp _) h (by omega)
      · exact ⟨Nat.le_succ_of_le (withdrawClaim_stays h hm).1, (withdrawClaim_stays h hm).2⟩
  have hstop : (stopTests (cancelTests s)).stays (n + 2) m := by
    have hmono : (cancelTests s).stays (n + 2) m := ⟨Nat.le_succ_of_le hcancel.1, hcancel.2⟩
    unfold stopTests
    split <;> (try split)
    · exact queueCede_stays (s := (cancelTests s).onComp _) hcancel (by omega)
    all_goals exact hmono
  unfold sequencerReact claimTest
  split
  · exact (enqueue_stays (s := (stopTests (cancelTests s)).onComp _) hstop (by omega)
      fun e _ => (replaces_claim e).1).2
  · exact hstop.2

/-- A unit that has tripped is left to its CLAIM's withdrawal. -/
theorem sequencerReact_tripped (h : s.comp.unit = .tripped ∨ s.comp.unit = .lockout) :
    sequencerReact s = s ∨ sequencerReact s = withdrawClaim s := by
  have hunit (u : State) (hu : u.comp.unit = .tripped ∨ u.comp.unit = .lockout) : claimTest (stopTests u) = u := by
    have hstop : stopTests u = u := by
      unfold stopTests
      obtain hu | hu := hu <;> rw [hu]
    rw [hstop]
    exact claimTest_of_not_due (not_startDue_of_unit (by obtain hu | hu := hu <;> simp [hu]))
  unfold sequencerReact cancelTests
  split
  · exact .inl (hunit s h)
  · rw [if_neg (by obtain h | h := h <;> simp [h])]
    exact .inr (hunit _ (by rwa [withdrawClaim_comp]))

/-! ### A volume sent to suspense (R128, R129) -/

section
variable {span : Nat} {volume : Option Nat}

theorem replyDue_intake (d : Due) (r : OrderOutcome) : (replyDue d r s).intake = s.intake := by simp [replyDue]

theorem toSuspense_fresh (h : s.intake.suspense (suspenseFlow s.train) = none) : toSuspense span volume s
    = s.onIntake (fun i => i.setSuspense (suspenseFlow s.train) (some
      { openDay := s.clock.day, openSecond := s.clock.second, age := 0, span := span, volume := volume
        cv := (cvInForce s).1, snapshot := s.nom.confirmed })) := by
  unfold toSuspense
  dsimp only
  rw [h]

/-- The record with the span and the volume added, before its due marking is answered. -/
def lengthened (span : Nat) (volume : Option Nat) (r : Suspense) (s : State) : State :=
  s.onIntake (fun i => i.setSuspense (suspenseFlow s.train) (some
    { r with span := satAdd top32 r.span span, volume := addVolume r.volume volume, due := none }))

theorem toSuspense_open {r : Suspense} (h : s.intake.suspense (suspenseFlow s.train) = some r) :
    (r.due = none → toSuspense span volume s = lengthened span volume r s)
      ∧ ∀ d, r.due = some d → toSuspense span volume s = replyDue d .refusedState (lengthened span volume r s) := by
  unfold toSuspense
  dsimp only
  rw [h]
  dsimp only
  refine ⟨fun hd => ?_, fun d hd => ?_⟩
  · rw [hd]
    rfl
  · rw [hd]
    rfl

theorem toSuspense_intake_open {r : Suspense} (h : s.intake.suspense (suspenseFlow s.train) = some r) :
    (toSuspense span volume s).intake = (lengthened span volume r s).intake := by
  obtain ⟨hnone, hsome⟩ := toSuspense_open (span := span) (volume := volume) h
  rcases hd : r.due with _ | d
  · rw [hnone hd]
  · rw [hsome d hd, replyDue_intake]

theorem opposite_ne (f : Flow) : opposite f ≠ f := by cases f <;> simp [opposite]

theorem toSuspense_reading (h : c ≠ .txDrop) : (toSuspense span volume s).mon.reading c = s.mon.reading c := by
  rcases hr : s.intake.suspense (suspenseFlow s.train) with _ | r
  · rw [toSuspense_fresh hr]
    rfl
  · obtain ⟨hnone, hsome⟩ := toSuspense_open (span := span) (volume := volume) hr
    rcases hd : r.due with _ | d
    · rw [hnone hd]
      rfl
    · rw [hsome d hd]
      exact replyTo_reading _ _ _ _ _ _ _ _ h

theorem toSuspense_sized (hs : s.mon.sized) : (toSuspense span volume s).mon.sized := by
  rcases hr : s.intake.suspense (suspenseFlow s.train) with _ | r
  · rw [toSuspense_fresh hr]
    exact hs
  · obtain ⟨hnone, hsome⟩ := toSuspense_open (span := span) (volume := volume) hr
    rcases hd : r.due with _ | d
    · rw [hnone hd]
      exact hs
    · rw [hsome d hd]
      exact enqueue_sized hs

/-- The reply to a due marking that lapses waits. -/
theorem toSuspense_reply {r : Suspense} {d : Due} (hc : s.train.mode ≠ .config) (hroom : s.room n) (hn : n < 12)
    (h : s.intake.suspense (suspenseFlow s.train) = some r) (hd : r.due = some d) :
    (toSuspense span volume s).stays (n + 1) (.reply { console := d.console, command := d.command, arg := d.arg
                                                       litres := d.litres, outcome := .refusedState }) := by
  obtain ⟨hmark, hlen⟩ := hroom
  have hlen' : (lengthened span volume r s).link.queue.length < 12 := Nat.lt_of_le_of_lt hlen hn
  rw [(toSuspense_open h).2 d hd]
  refine ⟨?_, replyTo_waits (lengthened span volume r s) .other _ _ _ _ _ hc hmark hlen'⟩
  rw [replyDue, replyTo, enqueue_of_room (lengthened span volume r s) _ _ hc hmark hlen', State.onLink_link,
    if_neg (by simp [replaces])]
  exact (insertEntry_length _ _).le.trans (Nat.succ_le_succ hlen)

/-- What an event of the meter sends to suspense, as the records show it. -/
theorem toSuspense_suspended {h u : State} (hflow : suspenseFlow h.train = suspenseFlow s.train)
    (hclock : h.clock = s.clock) (hnom : h.nom = s.nom)
    (hrecords : ∀ f, h.intake.suspense f = s.intake.suspense f)
    (hcv : (cvInForce h).1 = (cvInForce u).1)
    (hu : ∀ f, u.intake.suspense f = (toSuspense span volume h).intake.suspense f)
    (hreply : ∀ r d, h.intake.suspense (suspenseFlow h.train) = some r → r.due = some d → s.roomy → u.waits
      (.reply { console := d.console, command := d.command, arg := d.arg, litres := d.litres, outcome := .refusedState })) :
    suspended s u span volume := by
  have hbefore := hrecords (suspenseFlow s.train)
  rw [hflow] at hreply
  refine ⟨?_, fun hnone => ?_, fun r hsome => ?_, fun r d hsome hd hr => hreply r d (hbefore.trans hsome) hd hr⟩
  · rw [hu, ← hrecords (opposite (suspenseFlow s.train))]
    rcases hr : h.intake.suspense (suspenseFlow h.train) with _ | r
    · rw [toSuspense_fresh hr, State.onIntake_intake, Intake.setSuspense_suspense, hflow, if_neg (opposite_ne _)]
    · rw [toSuspense_intake_open hr, lengthened, State.onIntake_intake, Intake.setSuspense_suspense, hflow,
        if_neg (opposite_ne _)]
  · rw [hu, toSuspense_fresh (by rw [hflow, hbefore, hnone]), State.onIntake_intake, Intake.setSuspense_suspense, hflow,
      if_pos rfl, hclock, hnom, hcv]
  · rw [hu, toSuspense_intake_open (by rw [hflow, hbefore, hsome]), lengthened, State.onIntake_intake,
      Intake.setSuspense_suspense, hflow, if_pos rfl]

end

/-! ### A trip (R98) -/

/-- The trips of the last day. -/
def youngTrips (s : State) : List Nat := s.comp.trips.filter (· < 86400)

/-- The unit as a trip leaves it. -/
def trippedComp (s : State) : Compressor :=
  { s.comp.setUnit (if 2 ≤ (youngTrips s).length then .lockout else .tripped) with
    trips := youngTrips s ++ [0], stopTimer := 0, startTimer := none }

/-- A trip with its conditions raised, before its CEDE or the withdrawal of its CLAIM. -/
def raisedTrip (s : State) : State :=
  let t := raise .compTrip 0 (youngTrips s ++ [0]).length { s with comp := trippedComp s }
  if 2 ≤ (youngTrips s).length then raise .compLockout 0 3 t else t

theorem takeTrip_cases : (s.comp.unit = .queued ∨ s.comp.unit = .starting → takeTrip s = queueCede (raisedTrip s))
    ∧ (s.comp.unit = .stopped → takeTrip s = withdrawClaim (raisedTrip s))
    ∧ (s.comp.unit = .running ∨ s.comp.unit = .stopping ∨ s.comp.unit = .tripped ∨ s.comp.unit = .lockout →
        takeTrip s = raisedTrip s) := by
  have hlen : (s.comp.trips.filter (· < 86400) ++ [0]).length ≥ 3 ↔ 2 ≤ (youngTrips s).length := by
    simp [youngTrips]
  unfold takeTrip
  dsimp only
  simp only [hlen]
  refine ⟨fun h => ?_, fun h => ?_, fun h => ?_⟩
  · obtain h | h := h <;> rw [h] <;> rfl
  · rw [h]; rfl
  · obtain h | h | h | h := h <;> rw [h] <;> rfl

theorem raisedTrip_comp : (raisedTrip s).comp = trippedComp s := by
  unfold raisedTrip
  dsimp only
  split <;> simp

theorem takeTrip_comp : (takeTrip s).comp = { trippedComp s with
    claimInFlight := (takeTrip s).comp.claimInFlight, cedePending := (takeTrip s).comp.cedePending } := by
  obtain ⟨hwait, hstop, hother⟩ := takeTrip_cases (s := s)
  rcases hu : s.comp.unit
  case queued => rw [hwait (by simp [hu]), queueCede_comp, raisedTrip_comp]
  case starting => rw [hwait (by simp [hu]), queueCede_comp, raisedTrip_comp]
  case stopped => rw [hstop hu, withdrawClaim_comp, raisedTrip_comp]
  all_goals rw [hother (by simp [hu]), raisedTrip_comp]

theorem takeTrip_unit : (takeTrip s).comp.unit = .tripped ∨ (takeTrip s).comp.unit = .lockout := by
  rw [takeTrip_comp]
  unfold trippedComp Compressor.setUnit
  dsimp only
  split
  · exact .inr rfl
  · exact .inl rfl

theorem raisedTrip_room (h : s.room n) (hn : n < 7) : (raisedTrip s).room (n + 2) := by
  have htrip := raise_room (s := { s with comp := trippedComp s }) .compTrip 0 (youngTrips s ++ [0]).length h (by omega)
  unfold raisedTrip
  dsimp only
  split
  · exact raise_room _ _ _ _ htrip (by omega)
  · exact htrip.mono (by omega)

theorem takeTrip_room (h : s.room n) (hn : n < 6) : (takeTrip s).room (n + 3) := by
  obtain ⟨hwait, hstop, hother⟩ := takeTrip_cases (s := s)
  have hraised := raisedTrip_room h (by omega)
  have hmono := hraised.mono (show n + 2 ≤ n + 3 by omega)
  rcases hu : s.comp.unit
  case queued => rw [hwait (by simp [hu])]; exact queueCede_room _ hraised (by omega)
  case starting => rw [hwait (by simp [hu])]; exact queueCede_room _ hraised (by omega)
  case stopped => rw [hstop hu]; exact withdrawClaim_room _ hmono (by omega)
  all_goals rw [hother (by simp [hu])]; exact hmono

theorem raisedTrip_reading (h : c ≠ .compTrip) (hl : c ≠ .compLockout) (hx : c ≠ .txDrop) :
    (raisedTrip s).mon.reading c = s.mon.reading c := by
  have htrip := raise_reading (s := { s with comp := trippedComp s }) c .compTrip 0 (youngTrips s ++ [0]).length h hx
  unfold raisedTrip
  dsimp only
  split
  · rw [raise_reading _ _ _ _ _ hl hx, htrip]
  · exact htrip

theorem withdrawClaim_reading : (withdrawClaim s).mon.reading c = s.mon.reading c := by rw [withdrawClaim_mon]

theorem takeTrip_reading_eq (h : c ≠ .txDrop) : (takeTrip s).mon.reading c = (raisedTrip s).mon.reading c := by
  obtain ⟨hwait, hstop, hother⟩ := takeTrip_cases (s := s)
  rcases hu : s.comp.unit
  case queued => rw [hwait (by simp [hu])]; exact queueCede_reading _ _ h
  case starting => rw [hwait (by simp [hu])]; exact queueCede_reading _ _ h
  case stopped => rw [hstop hu]; exact withdrawClaim_reading
  all_goals rw [hother (by simp [hu])]

/-! ### The feedback in the queue and the monitor -/

theorem feedbackTable_reading (h : c ≠ .compTrip) (hl : c ≠ .compLockout) (hx : c ≠ .txDrop) (b : Option Feedback)
    (f : Feedback) : (feedbackTable b f s).mon.reading c = s.mon.reading c := by
  have htrip := (takeTrip_reading_eq (s := s) hx).trans (raisedTrip_reading h hl hx)
  unfold feedbackTable
  split
  · rfl
  · split
    · rfl
    · exact htrip
  · exact htrip
  · rw [queueCede_reading _ _ hx]
    simp [handCommand]
  · rfl
  · unfold autoRestart
    split <;> rfl
  · rfl

theorem feedbackTable_room (h : s.room n) (hn : n < 6) (b : Option Feedback) (f : Feedback) :
    (feedbackTable b f s).room (n + 1) ∨ ((feedbackTable b f s).room (n + 3)
      ∧ ((feedbackTable b f s).comp.unit = .tripped ∨ (feedbackTable b f s).comp.unit = .lockout)) := by
  have hmono : s.room (n + 1) := h.mono (by omega)
  have htrip := takeTrip_room h hn
  unfold feedbackTable
  split
  · exact .inl hmono
  · split
    · exact .inl hmono
    · exact .inr ⟨htrip, takeTrip_unit⟩
  · exact .inr ⟨htrip, takeTrip_unit⟩
  · exact .inl (queueCede_room _ (by simpa [State.room, handCommand] using h) (by omega))
  · exact .inl hmono
  · unfold autoRestart
    split <;> exact .inl hmono
  · exact .inl hmono

theorem takeFeedback_cases (fb : Option Feedback) : ((takeFeedback fb s).link = s.link ∧ (takeFeedback fb s).mon = s.mon)
    ∨ ∃ f, takeFeedback fb s = feedbackTable s.comp.feedback f (s.onComp (fun c => { c with feedback := some f, awaiting := false })) := by
  unfold takeFeedback
  split
  · exact .inl ⟨rfl, rfl⟩
  · next f =>
    dsimp only
    split
    · unfold settleAfterReset
      split <;> exact .inl ⟨rfl, rfl⟩
    · exact .inr ⟨f, rfl⟩

theorem takeFeedback_reading (h : c ≠ .compTrip) (hl : c ≠ .compLockout) (hx : c ≠ .txDrop) (fb : Option Feedback) :
    (takeFeedback fb s).mon.reading c = s.mon.reading c := by
  obtain ⟨-, heq⟩ | ⟨f, heq⟩ := takeFeedback_cases (s := s) fb
  · rw [heq]
  · rw [heq]
    exact feedbackTable_reading h hl hx _ _

theorem takeTrip_sized (hs : s.mon.sized) : (takeTrip s).mon.sized := by
  have hraised : (raisedTrip s).mon.sized := by
    have htrip : (raise .compTrip 0 (youngTrips s ++ [0]).length { s with comp := trippedComp s }).mon.sized := raise_sized hs
    unfold raisedTrip
    dsimp only
    split
    · exact raise_sized htrip
    · exact htrip
  obtain ⟨hwait, hstop, hother⟩ := takeTrip_cases (s := s)
  rcases hu : s.comp.unit
  case queued => rw [hwait (by simp [hu])]; exact queueCede_sized hraised
  case starting => rw [hwait (by simp [hu])]; exact queueCede_sized hraised
  case stopped => rw [hstop hu, withdrawClaim_mon]; exact hraised
  all_goals rw [hother (by simp [hu])]; exact hraised

theorem takeFeedback_sized (hs : s.mon.sized) (fb : Option Feedback) : (takeFeedback fb s).mon.sized := by
  obtain ⟨-, heq⟩ | ⟨f, heq⟩ := takeFeedback_cases (s := s) fb
  · rwa [heq]
  · rw [heq]
    generalize hu : s.onComp (fun c => { c with feedback := some f, awaiting := false }) = u
    have hsized : u.mon.sized := by rw [← hu]; exact hs
    unfold feedbackTable
    split
    · exact hsized
    · split
      · exact hsized
      · exact takeTrip_sized hsized
    · exact takeTrip_sized hsized
    · exact queueCede_sized (by simpa [handCommand] using hsized)
    · exact hsized
    · unfold autoRestart
      split <;> exact hsized
    · exact hsized

/-! ### The end of HOLD in the queue and the monitor -/

theorem enterListen_cases : (enterListen s).link = s.link ∧ (enterListen s).mon = s.mon
    ∨ ∃ u : State, enterListen s = queueOffer u ∧ u.link = s.link ∧ u.mon = s.mon := by
  unfold enterListen
  dsimp only
  split
  · exact .inr ⟨_, rfl, by simp, by simp⟩
  · split
    · exact .inr ⟨_, rfl, by simp, by simp⟩
    · exact .inl ⟨by simp, by simp⟩

theorem endHold_cases : (endHold s).link = s.link ∧ (endHold s).mon = s.mon
    ∨ ∃ u : State, endHold s = queueOffer u ∧ u.link = s.link ∧ u.mon = s.mon := by
  unfold endHold
  split
  · split
    · exact .inl ⟨rfl, rfl⟩
    · exact enterListen_cases
  · exact .inl ⟨rfl, rfl⟩

theorem endHold_room (h : s.room n) (hn : n < 8) : (endHold s).room (n + 1) := by
  obtain ⟨hlink, -⟩ | ⟨u, heq, hlink, -⟩ := endHold_cases (s := s)
  · rw [State.room, hlink]
    exact h.mono (by omega)
  · rw [heq]
    exact enqueue_room _ _ _ (by rw [State.room, hlink]; exact h) hn

theorem endHold_reading (h : c ≠ .txDrop) : (endHold s).mon.reading c = s.mon.reading c := by
  obtain ⟨-, hmon⟩ | ⟨u, heq, -, hmon⟩ := endHold_cases (s := s)
  · rw [hmon]
  · rw [heq, ← hmon]
    exact enqueue_reading _ _ _ _ h

theorem endHold_sized (hs : s.mon.sized) : (endHold s).mon.sized := by
  obtain ⟨-, hmon⟩ | ⟨u, heq, -, hmon⟩ := endHold_cases (s := s)
  · rwa [hmon]
  · rw [heq]
    exact enqueue_sized (by rwa [hmon])

theorem heardSample_room (hr : s.roomy) : (heardSample p s).room 6 ∨ ((heardSample p s).room 8
    ∧ ((heardSample p s).comp.unit = .tripped ∨ (heardSample p s).comp.unit = .lockout)) := by
  have hended : (endHold (s.onIntake (·.accept p))).room 5 := endHold_room (s := s.onIntake (·.accept p)) hr (by omega)
  obtain ⟨hlink, -⟩ | ⟨f, heq⟩ := takeFeedback_cases (s := endHold (s.onIntake (·.accept p))) p.feedback
  · refine .inl ?_
    rw [heardSample, State.room, hlink]
    exact hended.mono (by omega)
  · rw [heardSample, heq]
    exact feedbackTable_room (s := (endHold (s.onIntake (·.accept p))).onComp _) hended (by omega) _ _

theorem heardSample_reading (h : c ≠ .compTrip) (hl : c ≠ .compLockout) (hx : c ≠ .txDrop) :
    (heardSample p s).mon.reading c = s.mon.reading c :=
  (takeFeedback_reading h hl hx _).trans (endHold_reading (s := s.onIntake (·.accept p)) hx)

theorem heardSample_sized (hs : s.mon.sized) : (heardSample p s).mon.sized :=
  takeFeedback_sized (endHold_sized (s := s.onIntake (·.accept p)) hs) _

theorem heardSample_suspenseFlow : suspenseFlow (heardSample p s).train = suspenseFlow s.train := by
  rw [heardSample_train]
  by_cases hm : s.train.mode = .hold
  · obtain ⟨hflow, -, -, hlast⟩ := endHold_calm (s := s.onIntake (·.accept p)) hm
    rw [suspenseFlow, hflow, hlast, suspenseFlow, hm]
    rfl
  · rw [endHold_of_hold (s := s.onIntake (·.accept p)) hm]
    rfl

end Sys2Proof.Machine
end


section
/-! PROOFS. The meter and the fuel totalizers of an accepted SAMPLE (R125 to R127, R131), through to the end of its event. -/

namespace Sys2Proof.Machine

open Sys2Proof (Flow Sample)

variable {s t u : State} {p : Sample} {c : Cond} {n : Nat}

/-! ### The meter's reading -/

/-- What the meter reading of a SAMPLE does to the interval, to suspense and to the monitor, before the baseline. -/
def meterEvent (p : Sample) (s : State) : State :=
  match p.totalizerReset, p.meter, s.intake.meter.reading with
  | true, _, some _ => raise .meterReset 0 s.intake.meterSpan (toSuspense s.intake.meterSpan none s)
  | false, some x, some b => takeDifference (totalizerDiff x b) (max 1 s.intake.meterSpan) s.intake.meter.restoreMark s
  | _, _, _ => s

/-- The baseline that the reading leaves. -/
def setBaseline (p : Sample) (s : State) : State := s.onIntake (fun i =>
  match p.meter with
  | some x => { i with meter := { reading := some x, restoreMark := false }, meterSpan := 0 }
  | none => if p.totalizerReset then { i with meter := {} } else i)

theorem takeMeter_eq : takeMeter p s = setBaseline p (meterEvent p s) := by
  unfold takeMeter meterEvent setBaseline
  rcases p.totalizerReset with _ | _ <;> rcases p.meter with _ | x <;> rcases s.intake.meter.reading with _ | b <;> rfl

theorem meterEvent_still (h : p.totalizerReset = false ∧ p.meter = none ∨ s.intake.meter.reading = none) :
    meterEvent p s = s := by
  unfold meterEvent
  obtain ⟨hr, hm⟩ | hb := h
  · rw [hr, hm]
  · rw [hb]
    rcases p.totalizerReset with _ | _ <;> rcases p.meter with _ | x <;> rfl

theorem meterEvent_reset {b : Nat} (h : p.totalizerReset = true) (hb : s.intake.meter.reading = some b) :
    meterEvent p s = raise .meterReset 0 s.intake.meterSpan (toSuspense s.intake.meterSpan none s) := by
  rw [meterEvent, h, hb]

theorem totalizerDiff_eq {x b d : Nat} (hb : b < 4294967296) (hd : d < 4294967296) (h : (b + d) % 4294967296 = x) :
    totalizerDiff x b = d := by
  unfold totalizerDiff
  omega

theorem meterEvent_difference {x b d : Nat} (h : p.totalizerReset = false) (hx : p.meter = some x)
    (hb : s.intake.meter.reading = some b) (hlt : b < 4294967296) (hd : d < 4294967296)
    (hmod : (b + d) % 4294967296 = x) :
    meterEvent p s = takeDifference d (max 1 s.intake.meterSpan) s.intake.meter.restoreMark s := by
  rw [← totalizerDiff_eq hlt hd hmod, meterEvent, h, hx, hb]

/-- What the meter's event leaves of the intake until the baseline is set. -/
@[simp] abbrev keepsOpen (s t : State) : Prop :=
  t.intake.meter = s.intake.meter ∧ t.intake.meterSpan = s.intake.meterSpan ∧ t.intake.compFuel = s.intake.compFuel
    ∧ t.intake.heaterFuel = s.intake.heaterFuel ∧ t.intake.compWh = s.intake.compWh ∧ t.intake.heaterWh = s.intake.heaterWh

@[simp] theorem toSuspense_open_frame (span : Nat) (v : Option Nat) : keepsOpen s (toSuspense span v s)
    ∧ (toSuspense span v s).intake.volume = s.intake.volume := by
  have hset (f : Flow) (r : Option Suspense) : keepsOpen s (s.onIntake (fun i => i.setSuspense f r))
      ∧ (s.onIntake (fun i => i.setSuspense f r)).intake.volume = s.intake.volume := by
    cases f <;> simp [Intake.setSuspense]
  rcases hr : s.intake.suspense (suspenseFlow s.train) with _ | r
  · rw [toSuspense_fresh hr]
    exact hset _ _
  · rw [keepsOpen, toSuspense_intake_open hr]
    exact hset _ _

@[simp] theorem takeDifference_open (d span : Nat) (b : Bool) : keepsOpen s (takeDifference d span b s) := by
  unfold takeDifference
  dsimp only
  repeat' split
  all_goals simp

@[simp] theorem meterEvent_open : keepsOpen s (meterEvent p s) := by
  unfold meterEvent
  split <;> simp

/-! ### A difference (R126, R127) -/

theorem takeDifference_restored {d span : Nat} : takeDifference d span true s
    = if d = 0 then s else raise .restoreGap 0 d (toSuspense span (some d) s) := rfl

/-- A difference that the span can have brought, and that the open interval can hold (R126). -/
def plausible (s : State) (d span : Nat) : Prop :=
  d ≤ s.cfg.qmax * max 1 span * 5 / 4 ∧ s.intake.volume + d ≤ 4294967295

theorem takeDifference_plausible {d span : Nat} (h : plausible s d span) : takeDifference d span false s
    = if 1 < span then raise .meterGap 0 span (s.onIntake (fun i => { i with volume := i.volume + d }))
      else s.onIntake (fun i => { i with volume := i.volume + d }) := by
  obtain ⟨hd, hv⟩ := h
  have hnot : ¬ (plausibleLimit s.cfg.qmax span < d ∨ top32 < s.intake.volume + d) := by
    unfold plausibleLimit top32
    omega
  exact if_neg hnot

theorem takeDifference_implausible {d span : Nat} (h : ¬ plausible s d span) : takeDifference d span false s
    = raise .meterImplausible 0 d (toSuspense span (some d) s) := by
  have hout : plausibleLimit s.cfg.qmax span < d ∨ top32 < s.intake.volume + d := by
    unfold plausible at h
    unfold plausibleLimit top32
    omega
  exact if_pos hout

/-! ### What the end of the event leaves of it -/

/-- The event of an accepted SAMPLE out of CONFIG, by its totalizers. -/
def metered (p : Sample) (s : State) : State :=
  requestSetpoint (settle (takeFuels p (setBaseline p (meterEvent p (heardSample p s)))))

theorem heardSample_mode (hc : s.train.mode ≠ .config) : (heardSample p s).train.mode ≠ .config := by
  rw [heardSample_train]
  by_cases hm : s.train.mode = .hold
  · exact (endHold_calm (s := s.onIntake (·.accept p)) hm).2.2.1
  · rw [endHold_of_hold (s := s.onIntake (·.accept p)) hm]
    exact hc

theorem metered_eq (hc : s.train.mode ≠ .config) : requestSetpoint (settle (acceptSample p s)) = metered p s := by
  rw [acceptSample_eq, if_neg (heardSample_mode hc), takeMeter_eq, metered]

theorem metered_exec (h : s.steady) (hc : s.train.mode ≠ .config) (hnew : s.intake.lastSequence ≠ some p.sequence) :
    exec (.sample (some p)) s = .next (metered p s) := by
  rw [sample_exec h hnew, metered_eq hc]

@[simp] theorem setBaseline_frame : (setBaseline p s).intake.volume = s.intake.volume
    ∧ (setBaseline p s).intake.suspInject = s.intake.suspInject
    ∧ (setBaseline p s).intake.suspWithdraw = s.intake.suspWithdraw
    ∧ (setBaseline p s).intake.compFuel = s.intake.compFuel ∧ (setBaseline p s).intake.heaterFuel = s.intake.heaterFuel
    ∧ (setBaseline p s).intake.compWh = s.intake.compWh ∧ (setBaseline p s).intake.heaterWh = s.intake.heaterWh
    ∧ keepsAccepted s (setBaseline p s) ∧ (setBaseline p s).mon = s.mon ∧ (setBaseline p s).link = s.link
    ∧ (setBaseline p s).comp = s.comp ∧ (setBaseline p s).train = s.train ∧ (setBaseline p s).port = s.port := by
  unfold setBaseline
  rcases p.meter with _ | x <;> rcases p.totalizerReset with _ | _ <;> simp

theorem metered_frame : (metered p s).intake.volume = (meterEvent p (heardSample p s)).intake.volume
    ∧ (metered p s).intake.suspInject = (meterEvent p (heardSample p s)).intake.suspInject
    ∧ (metered p s).intake.suspWithdraw = (meterEvent p (heardSample p s)).intake.suspWithdraw
    ∧ (metered p s).intake.meter = (setBaseline p (meterEvent p (heardSample p s))).intake.meter
    ∧ (metered p s).intake.meterSpan = (setBaseline p (meterEvent p (heardSample p s))).intake.meterSpan := by
  unfold metered
  simp [settle, takeFuels]

theorem metered_reading (h : c ≠ .txDrop) :
    (metered p s).mon.reading c = (meterEvent p (heardSample p s)).mon.reading c := by
  unfold metered
  simp only [requestSetpoint_frame]
  rw [settle_reading _ _ h]
  simp

theorem heardSample_open : (heardSample p s).intake.meter = s.intake.meter
    ∧ (heardSample p s).intake.meterSpan = s.intake.meterSpan ∧ (heardSample p s).intake.volume = s.intake.volume
    ∧ (heardSample p s).intake.compFuel = s.intake.compFuel ∧ (heardSample p s).intake.heaterFuel = s.intake.heaterFuel
    ∧ (heardSample p s).intake.compWh = s.intake.compWh ∧ (heardSample p s).intake.heaterWh = s.intake.heaterWh
    ∧ ∀ f, (heardSample p s).intake.suspense f = s.intake.suspense f := by
  obtain ⟨-, -, -, -, -, -, -, -, -, -, hmeter, hspan, hcomp, hheater, hvolume, hcompWh, hheaterWh, -, hinject, hwithdraw⟩ :
    keepsMeters (s.onIntake (·.accept p)) (heardSample p s) := heardSample_meters
  exact ⟨hmeter, hspan, hvolume, hcomp, hheater, hcompWh, hheaterWh, fun f => by cases f <;> assumption⟩

theorem metered_suspense (f : Flow) :
    (metered p s).intake.suspense f = (meterEvent p (heardSample p s)).intake.suspense f := by
  obtain ⟨-, hinject, hwithdraw, -⟩ := metered_frame (p := p) (s := s)
  cases f <;> assumption

/-- The conditions of a totalizer, none of which the feedback raises. -/
abbrev meterCond (c : Cond) : Prop := c ≠ .compTrip ∧ c ≠ .compLockout ∧ c ≠ .txDrop

theorem metered_notRaised (hc : meterCond c)
    (h : (meterEvent p (heardSample p s)).mon.reading c = (heardSample p s).mon.reading c) :
    notRaised c s (metered p s) := by
  obtain ⟨htrip, hlock, hdrop⟩ := hc
  rw [notRaised_iff, metered_reading hdrop, h, heardSample_reading htrip hlock hdrop]

theorem metered_raises {slot : Nat} {v : Int} (hc : meterCond c)
    (h : meterEvent p (heardSample p s) = raise c slot v u) (hu : u.mon.sized)
    (hr : u.mon.reading c = (heardSample p s).mon.reading c) : raisedOnce c s (metered p s) := by
  obtain ⟨htrip, hlock, hdrop⟩ := hc
  have hraise := raise_raisedOnce u c slot v hdrop hu
  rw [← h] at hraise
  exact raisedOnce_of_before (raisedOnce_of_reading hraise (metered_reading hdrop))
    (hr.trans (heardSample_reading htrip hlock hdrop))

theorem cvInForce_congr (hl : t.intake.latestCv = s.intake.latestCv) (hh : t.intake.held = s.intake.held)
    (hp : t.port = s.port) : cvInForce t = cvInForce s := by
  simp [cvInForce, hl, hh, State.cfg, hp]

section
variable {slot span : Nat} {v : Int} {volume : Option Nat}

/-- The reply to a due marking that a SAMPLE makes lapse still waits at the end of its event. -/
theorem metered_reply (hcfg : s.train.mode ≠ .config)
    (h : meterEvent p (heardSample p s) = raise c slot v (toSuspense span volume (heardSample p s))) {r : Suspense} {d : Due}
    (hr : (heardSample p s).intake.suspense (suspenseFlow (heardSample p s).train) = some r) (hd : r.due = some d)
    (hroomy : s.roomy) : (metered p s).waits
      (.reply { console := d.console, command := d.command, arg := d.arg, litres := d.litres, outcome := .refusedState }) := by
  generalize hx : takeFuels p (setBaseline p (meterEvent p (heardSample p s))) = x
  have hlink : x.link = (raise c slot v (toSuspense span volume (heardSample p s))).link := by rw [← hx, h]; simp
  have hunit : x.comp.unit = (heardSample p s).comp.unit := by rw [← hx, h]; simp
  have hmetered : (metered p s).link = (sequencerReact x).link := by rw [metered, hx]; simp
  rw [State.waits, hmetered]
  obtain hroom | ⟨hroom, htrip⟩ := heardSample_room (p := p) hroomy
  · have hreply := raise_stays (c := c) (slot := slot) (v := v)
      (toSuspense_reply (span := span) (volume := volume) (heardSample_mode hcfg) hroom (by omega) hr hd)
    exact sequencerReact_stays (n := 8) (by rwa [State.stays, State.waits, hlink]) (by omega) (by simp)
  · have hreply := raise_stays (c := c) (slot := slot) (v := v)
      (toSuspense_reply (span := span) (volume := volume) (heardSample_mode hcfg) hroom (by omega) hr hd)
    have hstays : x.stays 10 (.reply { console := d.console, command := d.command, arg := d.arg, litres := d.litres
                                       outcome := .refusedState }) := by rwa [State.stays, State.waits, hlink]
    obtain heq | heq := sequencerReact_tripped (s := x) (by rwa [hunit])
    · rw [heq]
      exact hstays.2
    · rw [heq]
      exact (withdrawClaim_stays hstays (by simp)).2

theorem metered_suspended (hcfg : s.train.mode ≠ .config)
    (h : meterEvent p (heardSample p s) = raise c slot v (toSuspense span volume (heardSample p s))) :
    suspended s (metered p s) span volume := by
  obtain ⟨-, -, -, -, -, -, -, hrecords⟩ := heardSample_open (p := p) (s := s)
  refine toSuspense_suspended (h := heardSample p s) heardSample_suspenseFlow (by simp [heardSample]) (by simp [heardSample])
    hrecords ?_ (fun f => ?_) (fun r d hr hd hroomy => metered_reply hcfg h hr hd hroomy)
  · refine congrArg Prod.fst (cvInForce_congr ?_ ?_ ?_).symm <;> simp [metered, settle, h]
  · have hsame : (raise c slot v (toSuspense span volume (heardSample p s))).intake
        = (toSuspense span volume (heardSample p s)).intake := by simp
    rw [metered_suspense, h, hsame]

end

/-! ### The fuel totalizers (R131) -/

theorem takeFuel_taken (reading : Option Nat) (b : Baseline) (wh : Nat) :
    fuelTaken reading b (takeFuel reading b wh).1 wh (takeFuel reading b wh).2 := by
  refine ⟨fun hnone => ?_, fun x hx => ?_⟩
  · rw [hnone]
    exact ⟨rfl, rfl⟩
  · rw [hx]
    rcases hb : b.reading with _ | y
    · simp [takeFuel, hb]
    · refine ⟨by simp [takeFuel, hb], by simp, fun z d hz hlt hd hmod => ?_⟩
      have hdiff := totalizerDiff_eq hlt hd hmod
      rw [← Option.some.inj hz] at hdiff
      refine ⟨by simp [takeFuel, hb], fun hmark => by simp [takeFuel, hb, hmark], fun hmark => ?_⟩
      simp [takeFuel, hb, hmark, hdiff]

theorem metered_fuels : fuelTaken p.compFuel s.intake.compFuel (metered p s).intake.compFuel s.intake.compWh
      (metered p s).intake.compWh
    ∧ fuelTaken p.heaterFuel s.intake.heaterFuel (metered p s).intake.heaterFuel s.intake.heaterWh
      (metered p s).intake.heaterWh := by
  have hc := takeFuel_taken p.compFuel s.intake.compFuel s.intake.compWh
  have hh := takeFuel_taken p.heaterFuel s.intake.heaterFuel s.intake.heaterWh
  unfold metered
  simp only [requestSetpoint_frame]
  simp only [settle, takeFuels]
  simp
  exact ⟨hc, hh⟩

theorem setBaseline_silent (hr : p.totalizerReset = false) (hm : p.meter = none) :
    (setBaseline p s).intake.meter = s.intake.meter ∧ (setBaseline p s).intake.meterSpan = s.intake.meterSpan := by
  simp [setBaseline, hr, hm]

theorem setBaseline_reading {x : Nat} (hm : p.meter = some x) :
    (setBaseline p s).intake.meter = { reading := some x, restoreMark := false } ∧ (setBaseline p s).intake.meterSpan = 0 := by
  simp [setBaseline, hm]

theorem setBaseline_reset (hr : p.totalizerReset = true) (hm : p.meter = none) :
    (setBaseline p s).intake.meter = { reading := none, restoreMark := false } := by
  simp [setBaseline, hr, hm]

theorem metered_still (h : p.totalizerReset = false ∧ p.meter = none ∨ s.intake.meter.reading = none) :
    (metered p s).intake.volume = s.intake.volume ∧ (metered p s).intake.suspInject = s.intake.suspInject
      ∧ (metered p s).intake.suspWithdraw = s.intake.suspWithdraw
      ∧ ∀ c, meterCond c → notRaised c s (metered p s) := by
  obtain ⟨hmeter, -, hvolume, -, -, -, -, hrecords⟩ := heardSample_open (p := p) (s := s)
  have hstill : meterEvent p (heardSample p s) = heardSample p s := meterEvent_still (by rwa [hmeter])
  have hvol := (metered_frame (p := p) (s := s)).1
  have hinject := metered_suspense (p := p) (s := s) .inject
  have hwithdraw := metered_suspense (p := p) (s := s) .withdraw
  rw [hstill, hrecords] at hinject hwithdraw
  rw [hstill, hvolume] at hvol
  exact ⟨hvol, hinject, hwithdraw, fun c hc => metered_notRaised hc (by rw [hstill])⟩

/-- A SAMPLE that suspends: its condition raised behind the record, the open interval as it was. -/
theorem metered_suspends {c : Cond} {v : Int} {span : Nat} {volume : Option Nat} (hcfg : s.train.mode ≠ .config)
    (hsized : s.mon.sized) (hc : meterCond c)
    (h : meterEvent p (heardSample p s) = raise c 0 v (toSuspense span volume (heardSample p s))) :
    (metered p s).intake.volume = s.intake.volume ∧ raisedOnce c s (metered p s) ∧ suspended s (metered p s) span volume := by
  have hvolume := (metered_frame (p := p) (s := s)).1
  refine ⟨?_, metered_raises hc h (toSuspense_sized (heardSample_sized hsized)) (toSuspense_reading hc.2.2),
    metered_suspended hcfg h⟩
  rw [hvolume, h]
  simp only [raise_frame, toSuspense_open_frame]
  exact heardSample_open.2.2.1

/-- Settles O42. -/
theorem meterDifference : Obligations.MeterDifference := by
  intro s p h hcfg hsized hnew
  obtain ⟨hmeter, hspan, hvolume, -, -, -, -, hrecords⟩ := heardSample_open (p := p) (s := s)
  obtain ⟨hvol, -, -, hbase, hbaseSpan⟩ := metered_frame (p := p) (s := s)
  refine ⟨metered p s, metered_exec h hcfg hnew, ?meter, metered_fuels.1, metered_fuels.2, ?_, ?_, ?_, ?_, ?_⟩
  case meter =>
    intro kept
    refine ⟨fun hr hm => ?silent, fun x hm => ?baseline, fun hnone => ?first, fun hr => ⟨?volume, fun hm => ?bare,
      fun hsome => ?reset, fun hnone => ?calm⟩, fun x b d hr hm hb hlt hd hmod => ⟨fun hmark => ?restored,
      fun hmark => ?ordinary⟩⟩
    case silent =>
      obtain ⟨hv, hi, hw, -⟩ := metered_still (s := s) (.inl ⟨hr, hm⟩)
      have hstill : meterEvent p (heardSample p s) = heardSample p s := meterEvent_still (.inl ⟨hr, hm⟩)
      rw [hstill] at hbase hbaseSpan
      obtain ⟨hkeep, hkeepSpan⟩ := setBaseline_silent (s := heardSample p s) hr hm
      exact ⟨(hbase.trans hkeep).trans hmeter, (hbaseSpan.trans hkeepSpan).trans hspan, hv, hi, hw⟩
    case baseline =>
      rw [hbase, hbaseSpan]
      exact setBaseline_reading hm
    case first =>
      obtain ⟨hv, hi, hw, -⟩ := metered_still (p := p) (s := s) (.inr hnone)
      exact ⟨hv, hi, hw⟩
    case bare =>
      rw [hbase]
      exact setBaseline_reset hr hm
    case calm => exact (metered_still (p := p) (s := s) (.inr hnone)).2.2.2 .meterReset (by decide)
    case volume =>
      rcases hb : s.intake.meter.reading with _ | b
      · exact (metered_still (p := p) (s := s) (.inr hb)).1
      · exact (metered_suspends hcfg hsized (by decide) (meterEvent_reset hr (by rw [hmeter, hb]))).1
    case reset =>
      obtain ⟨b, hb⟩ := Option.ne_none_iff_exists'.mp hsome
      have hevent := meterEvent_reset (s := heardSample p s) hr (by rw [hmeter, hb])
      rw [hspan] at hevent
      exact (metered_suspends hcfg hsized (by decide) hevent).2
    case restored =>
      have hevent := meterEvent_difference (s := heardSample p s) hr hm (by rw [hmeter, hb]) hlt hd hmod
      rw [hmeter, hmark, takeDifference_restored, hspan] at hevent
      by_cases hzero : d = 0
      · rw [if_pos hzero] at hevent
        refine ⟨?_, fun _ => ⟨⟨?_, ?_⟩, metered_notRaised (by decide) (by rw [hevent])⟩, fun h => absurd hzero (by omega)⟩
        · rw [hvol, hevent, hvolume]
        · exact (metered_suspense .inject).trans (by rw [hevent]; exact hrecords .inject)
        · exact (metered_suspense .withdraw).trans (by rw [hevent]; exact hrecords .withdraw)
      · rw [if_neg hzero] at hevent
        obtain ⟨hv, hraise, hsusp⟩ := metered_suspends hcfg hsized (by decide) hevent
        exact ⟨hv, fun h => absurd h hzero, fun _ => ⟨hraise, hsusp⟩⟩
    case ordinary =>
      intro limit
      have hevent := meterEvent_difference (s := heardSample p s) hr hm (by rw [hmeter, hb]) hlt hd hmod
      have hlimit : plausible (heardSample p s) d (max 1 s.intake.meterSpan) ↔ limit := by
        have hcfg : (heardSample p s).cfg = s.cfg := by simp [heardSample, State.cfg]
        simp only [plausible, limit, hcfg, hvolume]
        rw [show max 1 (max 1 s.intake.meterSpan) = max 1 s.intake.meterSpan by omega]
      rw [hmeter, hmark, hspan] at hevent
      refine ⟨fun hin => ?_, fun hout => ?_⟩
      · rw [takeDifference_plausible (hlimit.mpr hin)] at hevent
        have hsame : (meterEvent p (heardSample p s)).intake
            = { (heardSample p s).intake with volume := (heardSample p s).intake.volume + d } := by
          rw [hevent]
          split <;> simp
        refine ⟨?_, ⟨?_, ?_⟩, metered_notRaised (by decide) ?_, fun hgap => ?_, fun hshort => metered_notRaised (by decide) ?_⟩
        · rw [hvol, hsame, hvolume]
        · exact (metered_suspense .inject).trans (by rw [hsame]; exact hrecords .inject)
        · exact (metered_suspense .withdraw).trans (by rw [hsame]; exact hrecords .withdraw)
        · rw [hevent]
          split
          · exact raise_reading _ _ _ _ _ (by decide) (by decide)
          · rfl
        · rw [if_pos (by omega)] at hevent
          exact metered_raises (by decide) hevent (heardSample_sized hsized) rfl
        · rw [hevent, if_neg (by omega)]
          rfl
      · rw [takeDifference_implausible (fun hin => hout (hlimit.mp hin))] at hevent
        exact metered_suspends hcfg hsized (by decide) hevent
  all_goals
    rw [← metered_eq hcfg]
    simp

end Sys2Proof.Machine
end


section
/-! PROOFS. The tables of rising breakpoints (R21, R87, R109, R119): what the interpolation gives. -/

namespace Sys2Proof.Machine

/-- The breakpoints of a table rise. -/
abbrev climbs (table : List (Int × Nat)) : Prop := table.Pairwise (fun x y => x.1 < y.1)

/-- The value of a table at an abscissa. -/
def tableValue (table : List (Int × Nat)) (x : Int) : Int := interpolate (table.map (fun p => (p.1, (p.2 : Int)))) x

variable {p q : Int × Nat} {rest table : List (Int × Nat)} {x : Int}

theorem tableValue_cons : tableValue (p :: q :: rest) x
    = if x < p.1 then (p.2 : Int)
      else if x < q.1 then p.2 + (((q.2 : Int) - p.2) * (x - p.1)).tdiv (q.1 - p.1)
      else tableValue (q :: rest) x := rfl

theorem climbs.head_le (h : climbs (p :: rest)) {i : Nat} (hi : i < (p :: rest).length) :
    p.1 ≤ ((p :: rest).getD i (0, 0)).1 := by
  cases i with
  | zero => exact Int.le_refl _
  | succ j =>
    have hj : j < rest.length := by simpa using hi
    have hmem : rest.getD j (0, 0) ∈ rest := by
      rw [List.getD_eq_getElem _ _ hj]
      exact List.getElem_mem hj
    exact Int.le_of_lt ((List.pairwise_cons.mp h).1 _ hmem)

/-- A segment of the line stays between the values of its ends. -/
theorem segment_nonneg {a b d w : Int} (ha : 0 ≤ a) (hb : 0 ≤ b) (hd : 0 ≤ d) (hlt : d < w) :
    0 ≤ a + ((b - a) * d).tdiv w := by
  by_cases hle : a ≤ b
  · have hprod : 0 ≤ ((b - a) * d).tdiv w := Int.tdiv_nonneg (Int.mul_nonneg (by omega) hd) (by omega)
    omega
  · have hneg : (b - a) * d = -((a - b) * d) := by ring
    have hquot : ((a - b) * d).tdiv w ≤ a - b := by
      rw [Int.tdiv_eq_ediv_of_nonneg (Int.mul_nonneg (by omega) hd)]
      refine Int.ediv_le_of_le_mul (by omega) ?_
      exact Int.mul_le_mul_of_nonneg_left (by omega) (by omega)
    rw [hneg, Int.neg_tdiv]
    omega

theorem tableValue_nonneg (h : climbs table) : 0 ≤ tableValue table x := by
  induction table with
  | nil => exact Int.le_refl _
  | cons p rest ih =>
    cases rest with
    | nil => exact Int.natCast_nonneg _
    | cons q rest =>
      obtain ⟨hlt, htail⟩ := List.pairwise_cons.mp h
      have hpq := hlt q (by simp)
      rw [tableValue_cons]
      split
      · exact Int.natCast_nonneg _
      · split
        · exact segment_nonneg (Int.natCast_nonneg _) (Int.natCast_nonneg _) (by omega) (by omega)
        · exact ih htail

/-- What a table of rising breakpoints gives, in the integers. -/
theorem tableValue_spec (h : climbs table) (hne : table ≠ []) :
    (x < (table.getD 0 (0, 0)).1 → tableValue table x = (table.getD 0 (0, 0)).2)
      ∧ ((table.getD (table.length - 1) (0, 0)).1 ≤ x → tableValue table x = (table.getD (table.length - 1) (0, 0)).2)
      ∧ ∀ i < table.length - 1, (table.getD i (0, 0)).1 ≤ x → x < (table.getD (i + 1) (0, 0)).1 →
          tableValue table x = (table.getD i (0, 0)).2 + ((((table.getD (i + 1) (0, 0)).2 : Int)
            - (table.getD i (0, 0)).2) * (x - (table.getD i (0, 0)).1)).tdiv
              ((table.getD (i + 1) (0, 0)).1 - (table.getD i (0, 0)).1) := by
  induction table with
  | nil => exact absurd rfl hne
  | cons p rest ih =>
    cases rest with
    | nil => exact ⟨fun _ => rfl, fun _ => rfl, fun i hi => by simp at hi⟩
    | cons q rest =>
      obtain ⟨hlt, htail⟩ := List.pairwise_cons.mp h
      have hpq := hlt q (by simp)
      have hhead (i : Nat) (hi : i < (q :: rest).length) := climbs.head_le htail hi
      have hlast : (p :: q :: rest).length - 1 = (q :: rest).length - 1 + 1 := rfl
      rw [tableValue_cons, hlast]
      obtain ⟨-, hend, hmid⟩ := ih htail (by simp)
      simp only [List.getD_cons_succ, List.getD_cons_zero]
      have hq := hhead ((q :: rest).length - 1) (by simp)
      refine ⟨fun hx => if_pos hx, fun hx => ?_, fun i hi hlow hhigh => ?_⟩
      · rw [if_neg (by omega), if_neg (by omega)]
        exact hend hx
      · cases i with
        | zero =>
          simp only [List.getD_cons_zero] at hlow hhigh ⊢
          rw [if_neg (by omega), if_pos (by omega)]
        | succ j =>
          simp only [List.getD_cons_succ] at hlow hhigh ⊢
          have hj := hhead j (by omega)
          rw [if_neg (by omega), if_neg (by omega)]
          exact hmid j (by omega) hlow hhigh

/-- The interpolated value of a table is what the table gives. -/
theorem tableGives_value (h : climbs table) (hne : table ≠ []) : tableGives table x (tableValue table x).toNat := by
  have hnonneg := tableValue_nonneg (x := x) h
  obtain ⟨hbelow, habove, hbetween⟩ := tableValue_spec (x := x) h hne
  refine ⟨fun hx => ?_, fun hx => ?_, fun i hi hlow hhigh => ?_⟩
  · rw [hbelow hx]
    exact Int.toNat_natCast _
  · rw [habove hx]
    exact Int.toNat_natCast _
  · rw [Int.toNat_of_nonneg hnonneg]
    exact hbetween i hi hlow hhigh

end Sys2Proof.Machine
end


section
/-! PROOFS. The feedbacks of a SAMPLE (R97, R98). O38 says of a trip that it withdraws a CLAIM that waits, in every state. A
state in which the CLAIM shares its ticket with another entry refutes it: the end of HOLD of a halted train hands an OFFER to
the full queue, whose eviction takes the CLAIM out with the entry evicted, and the trip finds no CLAIM to withdraw. No run of
the part gives two entries one ticket; the statement lacks that the tickets are distinct. -/

namespace Sys2Proof.Machine

/-- A waiting CLAIM of the sequencer with the ticket of the INVTs behind it. -/
def sharedTicketClaim : Entry := { telegram := .claim, owner := .sequencer, ticket := 0 }

/-- A part in HOLD with a halted train, a STOPPED unit with its CLAIM under way, and a full queue of one ticket. -/
def sharedTickets : State := { State.reset with
  train := { State.reset.train with mode := .hold }
  comp := { State.reset.comp with unit := .stopped, awaiting := false, claimInFlight := true }
  link := { State.reset.link with
    haltSet := [5], queue := sharedTicketClaim :: List.replicate 11 repeatedEntry, refusalMark := true } }

/-- The SAMPLE of a compressor that reports TRIPPED and nothing else. -/
def trippedSample : Sys2Proof.Sample :=
  { sequence := 1, totalizerReset := false, cv := none, meter := none, wellhead := none, wellheadTemp := none, header := none, suction := none,
    discharge := none, compFuel := none, inletPressure := none, heaterFuel := none, inletTemp := none, bedATemp := none
    bedBTemp := none, dewPoint := none, feedback := some .tripped, lineup := none }

theorem trip_misses_claim :
    (requestSetpoint (settle (acceptSample trippedSample sharedTickets))).comp.claimInFlight = true := by decide

/-- Refutes O38: the trip of a part in HOLD whose CLAIM the OFFER's eviction has taken out leaves the CLAIM in flight. -/
theorem not_feedbacksAndPath : ¬ Obligations.FeedbacksAndPath := by
  rintro ⟨hfeedback, -⟩
  obtain ⟨t, hexec, -, -, htrip, -⟩ := hfeedback sharedTickets trippedSample .tripped ⟨rfl, rfl⟩ (by decide) (by decide) rfl
  have hnext := sample_exec (s := sharedTickets) (p := trippedSample) ⟨rfl, rfl⟩ (by decide)
  obtain rfl : requestSetpoint (settle (acceptSample trippedSample sharedTickets)) = t :=
    Host.Outcome.next.inj (hnext.symm.trans hexec)
  obtain ⟨-, -, -, -, -, -, -, -, -, hclaim⟩ := htrip (by decide)
  obtain ⟨hgone, -⟩ := hclaim rfl rfl ⟨sharedTicketClaim, by decide, rfl, rfl⟩
  rw [trip_misses_claim] at hgone
  cases hgone

end Sys2Proof.Machine
end


section
/-! PROOFS. The hour's work (R15, R16, R20 to R22, R26, R27, R30, R31, R162, R165, R166): nominations into effect, the
confirmation against the rights, and the hour's checkpoint and reports. -/

namespace Sys2Proof.Machine

open Sys2Proof (Flow)

variable {s : State} {slot n : Nat} {f : Flow}

/-! ### Nominations into effect (R15, R16) -/

theorem getD_map_default {α : Type} (g : α → α) {d : α} (hd : g d = d) (l : List α) (i : Nat) :
    (l.map g).getD i d = g (l.getD i d) := by
  simp only [List.getD_eq_getElem?_getD, List.getElem?_map]
  rcases l[i]? with _ | x
  · exact hd.symm
  · rfl

theorem nominationHour_nominee (s : State) (slot : Nat) :
    (nominationHour s).nom.nominee slot = bringDue s.clock.hourIndex (s.nom.nominee slot) :=
  getD_map_default _ rfl _ _

/-- The last of a list that rises by a key is its one element of the largest key. -/
theorem getLast_of_largest {α : Type} {key : α → Int} {l : List α} (hrise : l.Pairwise (fun x y => key x < key y)) {e : α}
    (he : e ∈ l) (hmax : ∀ x ∈ l, key x ≤ key e) : l.getLast? = some e := by
  obtain ⟨a, b, rfl⟩ := List.append_of_mem he
  rcases b with _ | ⟨y, b⟩
  · simp
  · obtain ⟨-, hright, -⟩ := List.pairwise_append.mp hrise
    have hlt := (List.pairwise_cons.mp hright).1 y (by simp)
    have hle := hmax y (by simp)
    omega

section
variable {now : Nat} {x : Nominee}

theorem bringDue_none (h : ∀ e ∈ x.pending, 0 < hourDistance now e.1) : bringDue now x = x := by
  have hnone : x.pending.filter (fun e => decide (hourDistance now e.1 ≤ 0)) = [] :=
    List.filter_eq_nil_iff.mpr fun e he => by
      have := h e he
      simp only [decide_eq_true_eq]
      omega
  rw [bringDue, hnone]
  rfl

theorem bringDue_pending : (bringDue now x).pending = x.pending.filter (fun e => decide (0 < hourDistance now e.1)) := by
  unfold bringDue
  split
  · next hnone =>
    have hempty := List.filter_eq_nil_iff.mp (List.getLast?_eq_none_iff.mp hnone)
    refine (List.filter_eq_self.mpr fun e he => ?_).symm
    have hlate := hempty e he
    simp only [decide_eq_true_eq] at hlate ⊢
    omega
  · rfl

theorem bringDue_current (hrise : x.pending.Pairwise (fun a b => hourDistance now a.1 < hourDistance now b.1))
    {e : Nat × Int} (he : e ∈ x.pending) (hdue : hourDistance now e.1 ≤ 0)
    (hmax : ∀ a ∈ x.pending, hourDistance now a.1 ≤ 0 → hourDistance now a.1 ≤ hourDistance now e.1) :
    (bringDue now x).current = e.2 := by
  have hlast : (x.pending.filter (fun a => decide (hourDistance now a.1 ≤ 0))).getLast? = some e := by
    have hrest := hrise.filter (fun a => decide (hourDistance now a.1 ≤ 0))
    have hmem : e ∈ x.pending.filter (fun a => decide (hourDistance now a.1 ≤ 0)) :=
      List.mem_filter.mpr ⟨he, decide_eq_true hdue⟩
    refine getLast_of_largest (key := fun a : Nat × Int => hourDistance now a.1) hrest hmem fun a ha => ?_
    obtain ⟨ha, hd⟩ := List.mem_filter.mp ha
    exact hmax a ha (of_decide_eq_true hd)
  rw [bringDue, hlast]

end

/-! ### The confirmation (R20 to R22, R27) -/

theorem confirmSlot_none : confirmSlot s none slot = 0 := rfl

theorem confirmSlot_taken (h : s.cfg.configured slot = true ∧ hasSign f (s.nom.nominee slot).current = true) :
    confirmSlot s (some f) slot
      = signedRate (some f) (min (s.nom.nominee slot).current.natAbs (slotRight s slot f)) := by
  unfold confirmSlot
  exact if_pos h

theorem confirmSlot_refused (h : ¬ (s.cfg.configured slot = true ∧ hasSign f (s.nom.nominee slot).current = true)) :
    confirmSlot s (some f) slot = 0 := by
  unfold confirmSlot
  exact if_neg h

theorem signedRate_spec (f : Flow) (m : Nat) : (signedRate (some f) m).natAbs = m
    ∧ (signedRate (some f) m = 0 ∨ hasSign f (signedRate (some f) m) = true) := by
  cases f <;> simp [signedRate, hasSign] <;> omega

theorem slotRight_nom (u : State) (hp : u.port = s.port) (hv : u.peers = s.peers) (ha : u.acct = s.acct) :
    slotRight u slot f = slotRight s slot f := by
  simp [slotRight, slotFactor, State.cfg, State.viewComplete, State.siteInventory, State.inventory, State.peerSum, hp, hv, ha]

theorem nominationHour_confirmed (h : 1 ≤ slot) (hle : slot ≤ 16) : (nominationHour s).nom.confirmed.getD (slot - 1) 0
    = confirmSlot (bringIntoEffect s) (directionOf (bringIntoEffect s).nom.total) slot := by
  have hform : (nominationHour s).nom.confirmed = (List.range 16).map (fun i =>
      confirmSlot (bringIntoEffect s) (directionOf (bringIntoEffect s).nom.total) (i + 1)) := rfl
  rw [hform, map_range_getD _ (by omega)]
  congr
  omega

/-! ### The rights (R20, R21, R26) -/

theorem smallestFactor_spec {table : List (Nat × Nat)} (h : 0 < table.length) :
    (∃ p ∈ table, smallestFactor table = p.2) ∧ ∀ p ∈ table, smallestFactor table ≤ p.2 := by
  have hfold (l : List (Nat × Nat)) (m : Nat) : (l.foldl (fun m q => min m q.2) m = m ∨ ∃ p ∈ l, l.foldl (fun m q => min m q.2) m = p.2)
      ∧ l.foldl (fun m q => min m q.2) m ≤ m ∧ ∀ p ∈ l, l.foldl (fun m q => min m q.2) m ≤ p.2 := by
    induction l generalizing m with
    | nil => exact ⟨.inl rfl, Nat.le_refl _, fun p hp => by cases hp⟩
    | cons q l ih =>
      obtain ⟨heq, hle, hall⟩ := ih (min m q.2)
      rw [List.foldl_cons]
      refine ⟨?_, by omega, fun p hp => ?_⟩
      · obtain heq | ⟨p, hp, heq⟩ := heq
        · obtain hmin | hmin := Nat.le_total m q.2
          · exact .inl (by omega)
          · exact .inr ⟨q, by simp, by omega⟩
        · exact .inr ⟨p, by simp [hp], heq⟩
      · obtain rfl | hp := List.mem_cons.mp hp
        · omega
        · exact hall p hp
  rcases table with _ | ⟨p, rest⟩
  · cases h
  · obtain ⟨heq, hle, hall⟩ := hfold rest p.2
    refine ⟨?_, fun q hq => ?_⟩
    · obtain heq | ⟨q, hq, heq⟩ := heq
      · exact ⟨p, by simp, heq⟩
      · exact ⟨q, by simp [hq], heq⟩
    · obtain rfl | hq := List.mem_cons.mp hq
      · exact hle
      · exact hall q hq

theorem ratchetFactor_gives {table : List (Nat × Nat)} (hne : 0 < table.length)
    (hrise : table.Pairwise (fun x y => x.1 < y.1)) (x : Int) :
    tableGives (table.map (fun p => ((p.1 : Int), p.2))) x (ratchetFactor table x) := by
  have hclimbs : climbs (table.map (fun p => ((p.1 : Int), p.2))) :=
    List.pairwise_map.mpr (hrise.imp fun h => Int.ofNat_lt.mpr h)
  have hvalue : ratchetFactor table x = (tableValue (table.map (fun p => ((p.1 : Int), p.2))) x).toNat := by
    rw [ratchetFactor, tableValue, List.map_map]
    rfl
  rw [hvalue]
  exact tableGives_value hclimbs (by simpa using List.ne_nil_of_length_pos hne)

/-! ### The checkpoint and the reports (R31, R162, R165, R166) -/

theorem takeCheckpoint_idle (h : s.port.writing = none) :
    takeCheckpoint s = (s.onPort (fun p => { p with writing := some (checkpointOf s) })).onExt
      (·.markUnfinished (slotOfSeq s.port.nextSeq)) := by
  unfold takeCheckpoint
  dsimp only
  rw [h]
  exact beginWrite_some (by simp)

theorem takeCheckpoint_busy (h : s.port.writing ≠ none) :
    takeCheckpoint s = s.onPort (fun p => { p with waiting := some (checkpointOf s) }) := by
  obtain ⟨c, hc⟩ := Option.ne_none_iff_exists'.mp h
  unfold takeCheckpoint
  dsimp only
  rw [hc]

/-- With room in the queue a telegram handed to it changes the link alone. -/
theorem enqueue_link {m : Telegram} {o : Owner} (h : s.room n) (hn : n < 12) :
    enqueue m o s = { s with link := (enqueue m o s).link } := by
  have hlen := h.2
  by_cases hc : s.train.mode = .config
  · rw [enqueue_config s m o hc]
  · rw [enqueue_of_room s m o hc h.1 (by omega)]
    rfl

theorem queueInvts_link (h : s.room n) (hn : n < 7) : queueInvts s = { s with link := (queueInvts s).link } := by
  have hfirst := enqueue_link (m := .invt 1 s.clock.day s.clock.hour (halfInventories 1 s)) (o := .other) h (by omega)
  have hsecond := enqueue_link (s := queueInvt 1 s) (n := n + 1)
    (m := .invt 2 (queueInvt 1 s).clock.day (queueInvt 1 s).clock.hour (halfInventories 2 (queueInvt 1 s))) (o := .other)
    (enqueue_room s _ _ h (by omega)) (by omega)
  have hfirst' : queueInvt 1 s = { s with link := (queueInvt 1 s).link } := hfirst
  have hsecond' : queueInvts s = { queueInvt 1 s with link := (queueInvts s).link } := hsecond
  rw [hfirst'] at hsecond'
  exact hsecond'

/-- The counts and the sums of the hour started anew (R162). -/
def hourEmptied (s : State) : State :=
  ((s.onMon (fun m => { m with sumInjected := 0, sumWithdrawn := 0, sumCompFuel := 0, sumHeater := 0 })).onIntake
    (fun i => { i with checkFailures := 0, sequenceGaps := 0, hourSamples := 0 })).onLink
    (fun l => { l with receiveErrors := 0, discards := 0 })

theorem reportHour_eq : reportHour s = hourEmptied (enqueue (.hourly (hourlyOf (queueInvts (takeCheckpoint s)))) .other
    (queueInvts (takeCheckpoint s))) := rfl

theorem reportHour_port : (reportHour s).port = (takeCheckpoint s).port ∧ (reportHour s).ext = (takeCheckpoint s).ext := by
  rw [reportHour_eq]
  simp [hourEmptied]

theorem hourEmptied_waits {m : Telegram} : (hourEmptied s).waits m ↔ s.waits m := Iff.rfl

/-- The checkpoint of the hour and its two INVT halves, in a queue with room. -/
theorem invts_queued (hc : s.train.mode ≠ .config) (hr : s.roomy) :
    queueInvts (takeCheckpoint s) = { s with port := (takeCheckpoint s).port, ext := (takeCheckpoint s).ext
                                             link := (queueInvts (takeCheckpoint s)).link }
      ∧ ∀ half, half = 1 ∨ half = 2 → (queueInvts (takeCheckpoint s)).holds 6
          (.invt half s.clock.day s.clock.hour (halfInventories half s)) := by
  have hroom : (takeCheckpoint s).room 4 := by simpa [State.room] using hr
  have htaken : takeCheckpoint s = { s with port := (takeCheckpoint s).port, ext := (takeCheckpoint s).ext } := by
    by_cases h : s.port.writing = none
    · rw [takeCheckpoint_idle h]
      rfl
    · rw [takeCheckpoint_busy h]
      rfl
  have hself : (takeCheckpoint s).clock = s.clock ∧ ∀ half, halfInventories half (takeCheckpoint s) = halfInventories half s := by
    simp [halfInventories, State.inventory]
  refine ⟨?_, fun half hhalf => ?_⟩
  · have hlink := queueInvts_link hroom (by omega)
    generalize queueInvts (takeCheckpoint s) = v at hlink ⊢
    rw [hlink, htaken]
  · have hinvt := queueInvts_holds (by simpa using hc) hroom (by omega) hhalf
    rwa [hself.1, hself.2] at hinvt

theorem reportHour_queues (hc : s.train.mode ≠ .config) (hr : s.roomy) :
    (∀ half, half = 1 ∨ half = 2 → (reportHour s).waits (.invt half s.clock.day s.clock.hour (halfInventories half s)))
      ∧ (reportHour s).waits (.hourly (hourlyOf s))
      ∧ reportHour s = { s with
          port := (reportHour s).port, ext := (reportHour s).ext, link := (reportHour s).link, intake := (reportHour s).intake
          mon := { s.mon with sumInjected := 0, sumWithdrawn := 0, sumCompFuel := 0, sumHeater := 0 } } := by
  obtain ⟨hv, hinvt⟩ := invts_queued hc hr
  have hroom := (hinvt 1 (.inl rfl)).1
  have hcounts : (queueInvts (takeCheckpoint s)).link.receiveErrors = s.link.receiveErrors
      ∧ (queueInvts (takeCheckpoint s)).link.discards = s.link.discards := by simp
  have hmode : (queueInvts (takeCheckpoint s)).train.mode ≠ .config := by simpa using hc
  rw [reportHour_eq]
  generalize queueInvts (takeCheckpoint s) = v at hv hinvt hroom hcounts hmode ⊢
  have hreport : hourlyOf v = hourlyOf s := by
    rw [hourlyOf, hcounts.1, hcounts.2, hv]
    rfl
  have hself := enqueue_self_waits v (.hourly (hourlyOf v)) .other hmode hroom (by omega)
  have hlink := enqueue_link (m := .hourly (hourlyOf v)) (o := .other) hroom (by omega)
  refine ⟨fun half hhalf => ?_, ?_, ?_⟩
  · rw [hourEmptied_waits]
    exact (enqueue_holds (hinvt half hhalf) (by omega) fun e he => by simp [replaces]).2
  · rw [hourEmptied_waits, ← hreport]
    exact hself
  · generalize enqueue (.hourly (hourlyOf v)) .other v = w at hlink ⊢
    rw [hlink, hv]
    rfl

/-- Settles O20. -/
theorem hourConfirms : Obligations.HourConfirms := by
  refine ⟨fun s => ?nominations, fun s slot f hconf => ?rights, fun s => ?reports⟩
  case nominations =>
    intro now t
    refine ⟨rfl, fun slot => ?nominee, rfl, by simp [t, nominationHour, confirmHour], rfl, fun hdir => ?none,
      fun f hdir slot hlo hhi => ?some⟩
    case nominee =>
      intro n n'
      have hn' : n' = bringDue now n := nominationHour_nominee s slot
      rw [hn', bringDue_pending]
      refine ⟨fun e he => ?_, fun e he hlate => List.mem_filter.mpr ⟨he, decide_eq_true hlate⟩,
        fun hrise e he hdue hmax => bringDue_current hrise he hdue hmax, bringDue_none⟩
      obtain ⟨hmem, hlate⟩ := List.mem_filter.mp he
      exact ⟨of_decide_eq_true hlate, hmem⟩
    case none =>
      have hform : t.nom.confirmed = (List.range 16).map (fun i => confirmSlot (bringIntoEffect s) t.nom.hourDir (i + 1)) := rfl
      rw [hform, hdir]
      intro r hr
      obtain ⟨i, -, rfl⟩ := List.mem_map.mp hr
      exact confirmSlot_none
    case some =>
      intro rate r
      have hdir' : directionOf (bringIntoEffect s).nom.total = some f := hdir
      have hr : r = confirmSlot (bringIntoEffect s) (some f) slot := by
        rw [← hdir']
        exact nominationHour_confirmed hlo hhi
      refine ⟨fun h => ?_, fun h => hr.trans (confirmSlot_refused h)⟩
      rw [hr, confirmSlot_taken h, slotRight_nom (s := s) (bringIntoEffect s) rfl rfl rfl]
      exact signedRate_spec f _
  case rights =>
    intro table complete
    refine ⟨rfl, fun hne hrise => ⟨slotFactor s slot f, ?_, fun hf hview => ?_, fun h => ?_⟩⟩
    · cases f <;> rfl
    · have hincomplete : s.viewComplete = false := by
        rw [← Bool.not_eq_true, viewComplete_iff]
        exact hview
      have hfactor : slotFactor s slot f = smallestFactor table := if_pos ⟨hf, hincomplete⟩
      rw [hfactor]
      exact smallestFactor_spec hne
    · have hfactor : slotFactor s slot f
          = ratchetFactor table (fillFraction (s.siteInventory slot) (s.cfg.shipper slot).space) := by
        refine if_neg fun ⟨hf, hview⟩ => ?_
        obtain hw | hcomplete := h
        · rw [hf] at hw
          cases hw
        · rw [viewComplete_iff.mpr hcomplete] at hview
          cases hview
      rw [hfactor]
      exact ratchetFactor_gives hne hrise _
  case reports =>
    intro t
    obtain ⟨hport, hext⟩ := reportHour_port (s := s)
    refine ⟨rfl, rfl, rfl, rfl, by simp [t], rfl, rfl, by simp [t], fun hidle => ?begun, fun hbusy => ?held,
      ⟨checkpointOf s, fun hidle => ?_, fun hbusy => ?_, rfl, rfl, rfl, rfl, rfl, rfl, rfl, rfl, rfl, rfl, rfl, rfl, rfl, rfl,
        rfl, rfl, rfl, rfl, rfl⟩, fun hc hr => ?queued⟩
    case begun =>
      rw [hext, takeCheckpoint_idle hidle]
      exact ⟨fun l => readSlot_markUnfinished_self l _ _, fun k l hk => readSlot_markUnfinished_other l _ k _ hk⟩
    case held => rw [hext, takeCheckpoint_busy hbusy]; rfl
    case queued =>
      obtain ⟨hinvt, hhourly, hrest⟩ := reportHour_queues hc hr
      have hrates (r : Int) : (if s.nom.target = 0 then 0 else r.natAbs * 1000 / s.nom.target)
          = r.natAbs * 1000 / s.nom.target := by
        split
        · next h => rw [h, Nat.div_zero]
        · rfl
      simp only [hrates]
      exact ⟨hinvt, hhourly, hrest⟩
    · rw [hport, takeCheckpoint_idle hidle]; rfl
    · rw [hport, takeCheckpoint_busy hbusy]; rfl

end Sys2Proof.Machine
end


section
/-! PROOFS. The comparison of the shippers' spaces behind an injection (R5, R39): which flags it sets, and what it raises. -/

namespace Sys2Proof.Machine

open Sys2Proof (Flow Bed)

variable {s : State} {i j : Nat} {l : List Nat}

/-- The comparison finds a shipper above its booked space whose flag is not set. -/
def State.crosses (s : State) (i : Nat) : Bool :=
  s.cfg.configured i && !(s.acct.slots.getD i {}).spaceOver && decide (((s.cfg.shipper i).space : Int) < s.siteInventory i)

theorem State.crosses_iff : s.crosses i = true ↔ s.cfg.configured i = true
    ∧ (s.acct.slots.getD i {}).spaceOver = false ∧ ((s.cfg.shipper i).space : Int) < s.siteInventory i := by
  simp [State.crosses, and_assoc]

/-- The shipper's flag set. -/
def State.flag (s : State) (i : Nat) : State :=
  s.onAcct (fun a => { a with slots := updateAt i (fun r => { r with spaceOver := true }) a.slots })

theorem compareSpace_crossed (h : s.crosses i = true) :
    compareSpace s i = raise .spaceOver i (s.siteInventory i) (s.flag i) := if_pos (State.crosses_iff.mp h)

theorem compareSpace_kept (h : s.crosses i = false) : compareSpace s i = s :=
  if_neg fun hx => by rw [State.crosses_iff.mpr hx] at h; cases h

theorem updateAt_getD_inventory (i j : Nat) (l : List Slot) :
    ((updateAt i (fun r : Slot => { r with spaceOver := true }) l).getD j {}).inventory = (l.getD j {}).inventory := by
  have hmap := map_updateAt Slot.inventory (fun r => { r with spaceOver := true }) (fun _ => rfl) i l
  have hget (l : List Slot) : (l.getD j {}).inventory = (l.map Slot.inventory).getD j 0 :=
    (List.getD_map l {} Slot.inventory).symm
  rw [hget, hmap, hget]

theorem compareSpace_slots (s : State) (i : Nat) : (compareSpace s i).acct.slots
    = if s.crosses i = true then updateAt i (fun r => { r with spaceOver := true }) s.acct.slots else s.acct.slots := by
  by_cases h : s.crosses i = true
  · rw [compareSpace_crossed h, if_pos h]
    simp [State.flag]
  · rw [compareSpace_kept (by simpa using h), if_neg h]

theorem compareSpace_siteInventory (s : State) (i j : Nat) : (compareSpace s i).siteInventory j = s.siteInventory j := by
  have hpeers : (compareSpace s i).peers = s.peers := by simp
  rw [State.siteInventory, State.siteInventory, State.peerSum, State.peerSum, hpeers, State.inventory, State.inventory,
    compareSpace_slots]
  split
  · rw [updateAt_getD_inventory]
  · rfl

theorem compareSpace_crosses (h : j ≠ i) : (compareSpace s i).crosses j = s.crosses j := by
  have hcfg : (compareSpace s i).cfg = s.cfg := by simp [State.cfg]
  have hslot : (compareSpace s i).acct.slots.getD j {} = s.acct.slots.getD j {} := by
    rw [compareSpace_slots]
    split
    · exact updateAt_getD_of_ne _ _ _ _ _ (Ne.symm h)
    · rfl
  rw [State.crosses, State.crosses, hcfg, hslot, compareSpace_siteInventory]

theorem compareSpace_crosses_tail (hl : (i :: l).Nodup) : ∀ k ∈ l, (compareSpace s i).crosses k = s.crosses k := by
  intro k hk
  refine compareSpace_crosses ?_
  rintro rfl
  exact (List.nodup_cons.mp hl).1 hk

/-! ### The comparison of all shippers -/

theorem compareAll_siteInventory (l : List Nat) (s : State) : (l.foldl compareSpace s).siteInventory j = s.siteInventory j := by
  induction l generalizing s with
  | nil => rfl
  | cons i l ih => rw [List.foldl_cons, ih, compareSpace_siteInventory]

theorem compareAll_slots (hl : l.Nodup) (hj : j < s.acct.slots.length) : (l.foldl compareSpace s).acct.slots.getD j {}
    = if j ∈ l ∧ s.crosses j = true then { s.acct.slots.getD j {} with spaceOver := true } else s.acct.slots.getD j {} := by
  induction l generalizing s with
  | nil => simp
  | cons i l ih =>
    have htail := List.nodup_cons.mp hl
    have hlen : (compareSpace s i).acct.slots.length = s.acct.slots.length := by
      rw [compareSpace_slots]
      split
      · exact updateAt_length _ _ _
      · rfl
    rw [List.foldl_cons, ih htail.2 (by rwa [hlen])]
    by_cases hji : j = i
    · subst hji
      rw [if_neg (fun h => htail.1 h.1), compareSpace_slots]
      by_cases hc : s.crosses j = true
      · rw [if_pos hc, if_pos ⟨List.mem_cons_self, hc⟩, updateAt_getD_self _ _ _ _ hj]
      · rw [if_neg hc, if_neg (fun h => hc h.2)]
    · rw [compareSpace_crosses hji]
      have hslot : (compareSpace s i).acct.slots.getD j {} = s.acct.slots.getD j {} := by
        rw [compareSpace_slots]
        split
        · exact updateAt_getD_of_ne _ _ _ _ _ (Ne.symm hji)
        · rfl
      rw [hslot]
      simp [hji]

/-! ### What it raises -/

theorem compareSpace_reading {c : Cond} (h : c ≠ .spaceOver) (hx : c ≠ .txDrop) :
    (compareSpace s i).mon.reading c = s.mon.reading c := by
  unfold compareSpace
  split
  · exact raise_reading _ _ _ _ _ h hx
  · rfl

theorem compareAll_reading {c : Cond} (h : c ≠ .spaceOver) (hx : c ≠ .txDrop) (l : List Nat) (s : State) :
    (l.foldl compareSpace s).mon.reading c = s.mon.reading c := by
  induction l generalizing s with
  | nil => rfl
  | cons i l ih => rw [List.foldl_cons, ih, compareSpace_reading h hx]

theorem compareSpace_sized (hs : s.mon.sized) : (compareSpace s i).mon.sized := by
  unfold compareSpace
  split
  · exact raise_sized hs
  · exact hs

theorem satAdd_satAdd (top a k : Nat) : satAdd top (satAdd top a 1) k = satAdd top a (k + 1) := by
  unfold satAdd
  omega

theorem raisedTimes.after {c : Cond} {k : Nat} {t u : State} (h : raisedOnce c s t) (hk : raisedTimes c k t u) :
    raisedTimes c (k + 1) s u := by
  obtain ⟨hset, hcount⟩ := h
  obtain ⟨hmore, hnone⟩ := hk
  refine ⟨fun _ => ?_, fun h => by omega⟩
  rcases Nat.eq_zero_or_pos k with rfl | hpos
  · obtain ⟨hflag, hsame⟩ := hnone rfl
    exact ⟨hflag.trans hset, hsame.trans hcount⟩
  · obtain ⟨hflag, hadd⟩ := hmore hpos
    exact ⟨hflag, by rw [hadd, hcount, satAdd_satAdd]⟩

theorem compareAll_raises (hl : l.Nodup) (hs : s.mon.sized) :
    raisedTimes .spaceOver (l.filter s.crosses).length s (l.foldl compareSpace s) := by
  induction l generalizing s with
  | nil =>
    change raisedTimes .spaceOver 0 s s
    exact ⟨fun h => absurd h (by decide), fun _ => ⟨rfl, rfl⟩⟩
  | cons i l ih =>
    have hrest := ih (List.nodup_cons.mp hl).2 (compareSpace_sized (i := i) hs)
    rw [List.filter_congr (compareSpace_crosses_tail hl)] at hrest
    rw [List.foldl_cons]
    by_cases hc : s.crosses i = true
    · rw [List.filter_cons_of_pos hc, List.length_cons]
      refine raisedTimes.after ?_ hrest
      rw [compareSpace_crossed hc]
      exact raise_raisedOnce (s.flag i) .spaceOver i _ (by decide) hs
    · rw [List.filter_cons_of_neg hc]
      rwa [compareSpace_kept (by simpa using hc)] at hrest ⊢

theorem compareAll_keeps_record {r : ExceptionRecord} (h : r ∈ s.mon.exceptions) (l : List Nat) :
    r ∈ (l.foldl compareSpace s).mon.exceptions := by
  induction l generalizing s with
  | nil => exact h
  | cons i l ih =>
    refine ih ?_
    unfold compareSpace
    split
    · exact raise_keeps_record h
    · exact h

theorem compareAll_of_none (h : ∀ j ∈ l, s.crosses j = false) : l.foldl compareSpace s = s := by
  induction l with
  | nil => rfl
  | cons i l ih =>
    rw [List.foldl_cons, compareSpace_kept (h i List.mem_cons_self)]
    exact ih fun j hj => h j (List.mem_cons_of_mem _ hj)

/-- The first shipper found above its space has its record (R157). -/
theorem compareAll_records {a b : List Nat} (ha : ∀ j ∈ a, s.crosses j = false) (hi : s.crosses i = true) :
    recorded .spaceOver (fun r => r.slot = i ∧ r.value = s.siteInventory i) s ((a ++ i :: b).foldl compareSpace s) := by
  have hraise : recorded .spaceOver (fun r => r.slot = i ∧ r.value = s.siteInventory i) s (compareSpace s i) := by
    rw [compareSpace_crossed hi]
    have hrecord := raise_recorded (s := s.flag i) (c := .spaceOver) (slot := i) (v := s.siteInventory i)
      (p := fun r => r.slot = i ∧ r.value = s.siteInventory i) ⟨rfl, rfl⟩
    exact hrecord.before rfl rfl rfl rfl
  rw [List.foldl_append, compareAll_of_none ha, List.foldl_cons]
  exact hraise.later fun r hr => compareAll_keeps_record hr b

/-- The comparison meets the shippers in the order of their slots. -/
theorem spaces_sorted (shares : List Nat) :
    ((List.range 17).filter (fun i => decide (1 ≤ i) && decide (0 < shares.getD i 0))).Pairwise (· < ·) :=
  List.pairwise_lt_range.filter _

theorem mem_spaces {shares : List Nat} : i ∈ (List.range 17).filter (fun i => decide (1 ≤ i) && decide (0 < shares.getD i 0))
    ↔ i < 17 ∧ 1 ≤ i ∧ 0 < shares.getD i 0 := by simp

/-- The flags, the raises and the record of a comparison, by the flags that are newly set. -/
theorem compareSpaces_spec (hlen : s.acct.slots.length = 17) (hs : s.mon.sized) (shares : List Nat) :
    let t := compareSpaces shares s
    let newly (i : Nat) : Bool := (t.acct.slots.getD i {}).spaceOver && !(s.acct.slots.getD i {}).spaceOver
    (∀ i < 17, t.acct.slots.getD i {} = { s.acct.slots.getD i {} with spaceOver := (t.acct.slots.getD i {}).spaceOver }
        ∧ ((t.acct.slots.getD i {}).spaceOver = true ↔ (s.acct.slots.getD i {}).spaceOver = true ∨ 1 ≤ i
          ∧ 0 < shares.getD i 0 ∧ s.cfg.configured i = true ∧ ((s.cfg.shipper i).space : Int) < s.siteInventory i)
        ∧ (newly i = true → (∀ j < i, newly j = false) →
          recorded .spaceOver (fun r => r.slot = i ∧ r.value = s.siteInventory i) s t))
      ∧ raisedTimes .spaceOver ((List.range 17).filter newly).length s t
      ∧ ∀ i, t.siteInventory i = s.siteInventory i := by
  intro t newly
  have hsorted := spaces_sorted shares
  have hnodup : ((List.range 17).filter (fun i => decide (1 ≤ i) && decide (0 < shares.getD i 0))).Nodup :=
    hsorted.imp Nat.ne_of_lt
  have hslot {i : Nat} (hi : i < 17) : t.acct.slots.getD i {} = if (1 ≤ i ∧ 0 < shares.getD i 0) ∧ s.crosses i = true
      then { s.acct.slots.getD i {} with spaceOver := true } else s.acct.slots.getD i {} := by
    have hspec := compareAll_slots (s := s) (j := i) hnodup (by omega)
    simp only [mem_spaces, hi, true_and] at hspec
    exact hspec
  have hnewly {i : Nat} (hi : i < 17) : newly i = true ↔ (1 ≤ i ∧ 0 < shares.getD i 0) ∧ s.crosses i = true := by
    change ((t.acct.slots.getD i {}).spaceOver && !(s.acct.slots.getD i {}).spaceOver) = true ↔ _
    rw [hslot hi]
    split
    · rename_i h
      have hclear := (State.crosses_iff.mp h.2).2.1
      simp only [hclear, h, Bool.not_false, Bool.and_true, and_self]
    · rename_i h
      simp only [h, Bool.and_not_self, Bool.false_eq_true]
  refine ⟨fun i hi => ⟨?_, ?_, fun hnew hfirst => ?_⟩, ?_, fun i => compareAll_siteInventory _ _⟩
  · rw [hslot hi]
    split <;> rfl
  · rw [hslot hi]
    split
    · rename_i h
      obtain ⟨hconf, -, hspace⟩ := State.crosses_iff.mp h.2
      exact ⟨fun _ => .inr ⟨h.1.1, h.1.2, hconf, hspace⟩, fun _ => rfl⟩
    · rename_i h
      refine ⟨.inl, ?_⟩
      rintro (hset | ⟨hpos, hshare, hconf, hspace⟩)
      · exact hset
      · refine by_contra fun hclear => h ⟨⟨hpos, hshare⟩, State.crosses_iff.mpr ⟨hconf, by simpa using hclear, hspace⟩⟩
  · obtain ⟨hmarked, hcross⟩ := (hnewly hi).mp hnew
    obtain ⟨a, b, hsplit⟩ := List.append_of_mem (mem_spaces.mpr ⟨hi, hmarked.1, hmarked.2⟩)
    have hbefore : ∀ j ∈ a, s.crosses j = false := fun j hj => by
      rw [hsplit, List.pairwise_append] at hsorted
      have hlt : j < i := hsorted.2.2 j hj i List.mem_cons_self
      have hmem := mem_spaces.mp (hsplit ▸ List.mem_append_left (i :: b) hj)
      refine by_contra fun hc => ?_
      have hset := (hnewly hmem.1).mpr ⟨hmem.2, by simpa using hc⟩
      rw [hfirst j hlt] at hset
      cases hset
    have hrecord := compareAll_records (b := b) hbefore hcross
    rwa [← hsplit] at hrecord
  · have hfilter : (List.range 17).filter newly
        = ((List.range 17).filter (fun i => decide (1 ≤ i) && decide (0 < shares.getD i 0))).filter s.crosses := by
      rw [List.filter_filter]
      refine List.filter_congr fun i hi => ?_
      rw [Bool.eq_iff_iff, hnewly (List.mem_range.mp hi)]
      simp [and_comm]
    rw [hfilter]
    exact compareAll_raises hnodup hs

end Sys2Proof.Machine
end


section
/-! PROOFS. The booking of an energy (R38, R41, R43 to R46): the state its shares leave, and what is raised behind it. -/

namespace Sys2Proof.Machine

open Sys2Proof (Flow Bed)

variable {s : State} {f : Flow} {v h i : Nat} {w : List Nat} {bed : Option Bed}

/-! ### The state the shares leave -/

/-- What a booking makes of the energy and the carry. -/
def State.staged (s : State) (f : Flow) (v h : Nat) : Nat × Int := energyStage s.cfg.roundMode v h (s.acct.carry f)

/-- The shares of a booking, the marks of the capped shippers and the pool left over. -/
def State.shared (s : State) (f : Flow) (v h : Nat) (w : List Nat) : List Nat × List Bool × Nat :=
  finalShares f s.inventories w (s.staged f v h).1

/-- The state with the shares booked: before the condition of the caps and the comparison of the spaces. -/
def State.withShares (s : State) (f : Flow) (v h : Nat) (w : List Nat) (bed : Option Bed) : State :=
  let t := (s.onAcct (fun a => { a.setCarry f (s.staged f v h).2 with
    slots := updateAt 0 (addShortfall · (s.shared f v h w).2.2)
      (List.zipWith (bookShare f) a.slots (s.shared f v h w).1) })).onMon (addHourEnergy f (s.staged f v h).1)
  match f with
  | .inject => t
  | .withdraw => t.onDryer (addPassage bed (s.shared .withdraw v h w).1)

theorem bookEnergy_inject : bookEnergy .inject v h w bed s = ((s.staged .inject v h).1, (s.shared .inject v h w).1,
    compareSpaces (s.shared .inject v h w).1 (s.withShares .inject v h w bed)) := rfl

theorem bookEnergy_withdraw : bookEnergy .withdraw v h w bed s = ((s.staged .withdraw v h).1, (s.shared .withdraw v h w).1,
    if (s.shared .withdraw v h w).2.2 = 0 then s.withShares .withdraw v h w bed
    else raise .capShortfall (lowestMarked (s.shared .withdraw v h w).2.1) (s.shared .withdraw v h w).2.2
      (s.withShares .withdraw v h w bed)) := rfl

theorem bookEnergy_shared : (bookEnergy f v h w bed s).2.1 = (s.shared f v h w).1 := rfl

theorem State.withShares_rest : (s.withShares f v h w bed).train = s.train ∧ (s.withShares f v h w bed).cfg = s.cfg
    ∧ (s.withShares f v h w bed).clock = s.clock ∧ (s.withShares f v h w bed).peers = s.peers
    ∧ (s.withShares f v h w bed).mon.exceptions = s.mon.exceptions
    ∧ (s.withShares f v h w bed).mon.sticky = s.mon.sticky ∧ (s.withShares f v h w bed).mon.counters = s.mon.counters := by
  cases f <;> exact ⟨rfl, rfl, rfl, rfl, rfl, rfl, rfl⟩

theorem State.withShares_slots : (s.withShares f v h w bed).acct.slots
    = updateAt 0 (addShortfall · (s.shared f v h w).2.2) (List.zipWith (bookShare f) s.acct.slots (s.shared f v h w).1) := by
  cases f <;> rfl

theorem State.withShares_carry : (s.withShares f v h w bed).acct.carry f = (s.staged f v h).2
    ∧ (s.withShares f v h w bed).acct.carry (opposite f) = s.acct.carry (opposite f) := by
  cases f <;> exact ⟨rfl, rfl⟩

theorem State.shared_length (hw : w.length = 17) : (s.shared f v h w).1.length = 17 := finalShares_length hw

theorem State.withShares_slot (hs : s.acct.slots.length = 17) (hw : w.length = 17) (hi : i < 17) :
    (s.withShares f v h w bed).acct.slots.getD i {} = addShortfall (bookShare f (s.acct.slots.getD i {})
      ((s.shared f v h w).1.getD i 0)) (if i = 0 then (s.shared f v h w).2.2 else 0) := by
  have hlen := State.shared_length (s := s) (f := f) (v := v) (h := h) hw
  have hzip := zipWith_getD (bookShare f) (l := s.acct.slots) (m := (s.shared f v h w).1) (by omega : i < _)
    (by omega : i < _) {} 0 {}
  rw [State.withShares_slots]
  by_cases h0 : i = 0
  · subst h0
    rw [updateAt_getD_self _ _ _ _ (by simp only [List.length_zipWith]; omega), hzip, if_pos rfl]
  · rw [updateAt_getD_of_ne _ _ _ _ _ (Ne.symm h0), hzip, if_neg h0]
    rfl

theorem State.withShares_spaceOver (hs : s.acct.slots.length = 17) (hw : w.length = 17) (hi : i < 17) :
    ((s.withShares f v h w bed).acct.slots.getD i {}).spaceOver = (s.acct.slots.getD i {}).spaceOver := by
  rw [State.withShares_slot hs hw hi]
  cases f <;> rfl

/-! ### The account table behind a booking -/

theorem compareSpace_carry (s : State) (i : Nat) (f : Flow) : (compareSpace s i).acct.carry f = s.acct.carry f := by
  unfold compareSpace
  split
  · simp only [raise_frame]
    cases f <;> rfl
  · rfl

theorem compareSpaces_carry (shares : List Nat) (s : State) (f : Flow) :
    (compareSpaces shares s).acct.carry f = s.acct.carry f := by
  unfold compareSpaces
  generalize List.filter _ (List.range 17) = l
  induction l generalizing s with
  | nil => rfl
  | cons i l ih => rw [List.foldl_cons, ih, compareSpace_carry]

/-- The account table of a withdrawal is the one its shares leave. -/
theorem bookEnergy_withdraw_acct : (bookEnergy .withdraw v h w bed s).2.2.acct = (s.withShares .withdraw v h w bed).acct := by
  rw [bookEnergy_withdraw]
  dsimp only
  split
  · rfl
  · simp only [raise_frame]

theorem bookEnergy_carry (g : Flow) :
    (bookEnergy f v h w bed s).2.2.acct.carry g = (s.withShares f v h w bed).acct.carry g := by
  cases f with
  | inject => exact compareSpaces_carry _ _ _
  | withdraw => rw [bookEnergy_withdraw_acct]

theorem sum_zipWith_shareMoved (f : Flow) (l : List Int) (m : List Nat) (h : l.length = m.length) :
    (List.zipWith (shareMoved f) l m).sum = l.sum + signedEnergy f m.sum := by
  induction l generalizing m with
  | nil => cases m <;> cases f <;> simp_all [signedEnergy]
  | cons x l ih =>
    cases m with
    | nil => simp at h
    | cons n m =>
      have := ih m (by simpa using h)
      cases f <;> simp only [List.zipWith_cons_cons, List.sum_cons, shareMoved, signedEnergy] at this ⊢ <;> omega

theorem bookEnergy_sum (hs : s.acct.slots.length = 17) (hw : w.length = 17) :
    (bookEnergy f v h w bed s).2.2.inventories.sum = s.inventories.sum + signedEnergy f (s.staged f v h).1 := by
  have hlen := State.shared_length (s := s) (f := f) (v := v) (h := h) hw
  have hsum : (s.shared f v h w).1.sum = (s.staged f v h).1 := finalShares_sum hw
  rw [bookEnergy_inventories, bookEnergy_shared, sum_zipWith_shareMoved _ _ _ (by simp [State.inventories, hs, hlen]), hsum]

/-! ### The caps of a withdrawal -/

theorem lowestMarked_of_mark {marks : List Bool} (h1 : 1 ≤ i) (hi : marks.getD i false = true) :
    1 ≤ lowestMarked marks ∧ marks.getD (lowestMarked marks) false = true
      ∧ ∀ j < lowestMarked marks, 1 ≤ j → marks.getD j false = false := by
  have hlt : i < marks.length := by
    refine by_contra fun h => ?_
    rw [List.getD_eq_default _ _ (by omega)] at hi
    cases hi
  unfold lowestMarked
  cases hfind : (List.range marks.length).find? (fun i => decide (1 ≤ i) && marks.getD i false) with
  | none =>
    have := List.find?_eq_none.mp hfind i (List.mem_range.mpr hlt)
    simp only [h1, hi, decide_true, Bool.and_self, not_true] at this
  | some k =>
    obtain ⟨hk, -, hbefore⟩ := List.find?_range_eq_some.mp hfind
    simp only [Bool.and_eq_true, decide_eq_true_eq] at hk
    refine ⟨hk.1, hk.2, fun j hj hj1 => ?_⟩
    have hnot := hbefore j hj
    simpa only [hj1, decide_true, Bool.true_and, Bool.not_eq_true'] using hnot

theorem State.shared_capping (hw : w.length = 17) : Capping s.inventories (apportion (s.staged .withdraw v h).1 w)
    (capShares s.inventories w (apportion (s.staged .withdraw v h).1 w)).1 (s.shared .withdraw v h w).2.1
    (s.shared .withdraw v h w).2.2 :=
  capShares_capping s.inventories (hw.trans (apportion_length_17 hw).symm)

/-- What slot 0 gets beyond the share it was apportioned is the pool (R44). -/
theorem State.shared_pool (hw : w.length = 17) (hw0 : w.getD 0 0 = 0) : (s.shared .withdraw v h w).1.getD 0 0
    - (apportion (s.staged .withdraw v h).1 w).getD 0 0 = (s.shared .withdraw v h w).2.2 := by
  have hfirst := apportion_length_17 (e := (s.staged .withdraw v h).1) hw
  have hop := capShares_operator s.inventories hw0 hw hfirst
  have hlen := (State.shared_capping (s := s) (v := v) (h := h) hw).length
  have hget : (s.shared .withdraw v h w).1.getD 0 0
      = (capShares s.inventories w (apportion (s.staged .withdraw v h).1 w)).1.getD 0 0 + (s.shared .withdraw v h w).2.2 :=
    updateAt_getD_self _ _ _ _ (by rw [hlen, hfirst]; decide)
  omega

theorem capLimit_inventories (s : State) (i : Nat) : capLimit s.inventories i = (s.acct.slots.getD i {}).inventory.toNat := by
  rw [capLimit, inventories_getD, State.inventory]

/-- A shipper gives its inventory, or at least the share it was apportioned; all of it while a pool is left over (R44). -/
theorem State.shared_shipper (hw : w.length = 17) (h1 : 1 ≤ i) (hi : i < 17) :
    (s.shared .withdraw v h w).1.getD i 0 ≤ (s.acct.slots.getD i {}).inventory.toNat
    ∧ ((s.shared .withdraw v h w).1.getD i 0 = (s.acct.slots.getD i {}).inventory.toNat
      ∨ (apportion (s.staged .withdraw v h).1 w).getD i 0 ≤ (s.shared .withdraw v h w).1.getD i 0)
    ∧ (0 < (s.shared .withdraw v h w).2.2 → 0 < w.getD i 0 →
      (s.shared .withdraw v h w).1.getD i 0 = (s.acct.slots.getD i {}).inventory.toNat) := by
  have hfirst := apportion_length_17 (e := (s.staged .withdraw v h).1) hw
  have hcap := State.shared_capping (s := s) (v := v) (h := h) hw
  have hshare : (s.shared .withdraw v h w).1.getD i 0
      = (capShares s.inventories w (apportion (s.staged .withdraw v h).1 w)).1.getD i 0 := finalShares_shipper h1
  have hfull (hmark : (s.shared .withdraw v h w).2.1.getD i false = true) :
      (s.shared .withdraw v h w).1.getD i 0 = (s.acct.slots.getD i {}).inventory.toNat := by
    rw [hshare, (hcap.full i (by omega) hmark).2, capLimit_inventories]
  refine ⟨?_, ?_, fun hpool hweight => ?_⟩
  · rw [hshare, ← capLimit_inventories]
    exact hcap.within i (by omega) h1
  · rcases hcap.grown i (by omega) with hmark | hgrown
    · exact .inl (hfull hmark)
    · exact .inr (by rwa [hshare])
  · have hend : (s.shared .withdraw v h w).2.2 = 0 ∨ (uncappedWeights w (s.shared .withdraw v h w).2.1).sum = 0 :=
      capShares_end s.inventories hw hfirst
    rcases hend with hnone | hweights
    · omega
    · exact hfull (capped_of_no_weight_left hweights (by omega) hweight)

/-- A pool left over comes of a capped shipper (R44). -/
theorem State.shared_capped (hw : w.length = 17) (hpool : 0 < (s.shared .withdraw v h w).2.2) :
    1 ≤ lowestMarked (s.shared .withdraw v h w).2.1 ∧ (s.shared .withdraw v h w).1.getD
        (lowestMarked (s.shared .withdraw v h w).2.1) 0
      = (s.inventory (lowestMarked (s.shared .withdraw v h w).2.1)).toNat := by
  have hfirst := apportion_length_17 (e := (s.staged .withdraw v h).1) hw
  have hcap := State.shared_capping (s := s) (v := v) (h := h) hw
  obtain ⟨i, hi, hmark⟩ : ∃ i < 17, (s.shared .withdraw v h w).2.1.getD i false = true := by
    by_contra hnone
    have hle : (apportion (s.staged .withdraw v h).1 w).sum
        ≤ (capShares s.inventories w (apportion (s.staged .withdraw v h).1 w)).1.sum := by
      rw [sum_eq_sum_range, sum_eq_sum_range (capShares _ _ _).1, hcap.length]
      refine List.sum_le_sum fun i hi => ?_
      rw [hfirst, List.mem_range] at hi
      rcases hcap.grown i (by omega) with hmark | hgrown
      · exact absurd ⟨i, hi, hmark⟩ hnone
      · exact hgrown
    have := hcap.total
    omega
  obtain ⟨hlow, hmarked, -⟩ := lowestMarked_of_mark (hcap.full i (by omega) hmark).1 hmark
  generalize lowestMarked (s.shared .withdraw v h w).2.1 = k at hlow hmarked ⊢
  have hk : k < 17 := by
    refine by_contra fun hge => ?_
    rw [List.getD_eq_default _ _ (by rw [hcap.capped_length]; omega)] at hmarked
    cases hmarked
  refine ⟨hlow, ?_⟩
  have hshare : (s.shared .withdraw v h w).1.getD k 0
      = (capShares s.inventories w (apportion (s.staged .withdraw v h).1 w)).1.getD k 0 := finalShares_shipper hlow
  rw [hshare, (hcap.full k (by omega) hmarked).2, capLimit, inventories_getD]

/-! ### What a booking raises -/

theorem State.withShares_reading (c : Cond) : (s.withShares f v h w bed).mon.reading c = s.mon.reading c := by
  obtain ⟨-, -, -, -, -, hsticky, hcounters⟩ := State.withShares_rest (s := s) (f := f) (v := v) (h := h) (w := w) (bed := bed)
  simp only [Monitor.reading, hsticky, hcounters]

theorem State.withShares_recorded {c : Cond} {p : ExceptionRecord → Prop} {t : State}
    (hrec : recorded c p (s.withShares f v h w bed) t) : recorded c p s t := by
  obtain ⟨htrain, hcfg, hclock, -, hlist, -, -⟩ :=
    State.withShares_rest (s := s) (f := f) (v := v) (h := h) (w := w) (bed := bed)
  exact hrec.before (by rw [htrain]) hcfg hclock hlist

theorem bookEnergy_capShortfall (hm : s.mon.sized) (hw : w.length = 17) (hpool : 0 < (s.shared .withdraw v h w).2.2) :
    raisedOnce .capShortfall s (bookEnergy .withdraw v h w bed s).2.2 ∧ recorded .capShortfall (fun r => 1 ≤ r.slot
      ∧ (s.shared .withdraw v h w).1.getD r.slot 0 = (s.inventory r.slot).toNat
      ∧ r.value = (s.shared .withdraw v h w).2.2) s (bookEnergy .withdraw v h w bed s).2.2 := by
  rw [bookEnergy_withdraw]
  dsimp only
  rw [if_neg (by omega)]
  constructor
  · exact raisedOnce_of_before (raise_raisedOnce _ _ _ _ (by decide) hm) (State.withShares_reading _)
  · obtain ⟨hslot, hshare⟩ := State.shared_capped (s := s) (v := v) (h := h) hw hpool
    exact State.withShares_recorded (raise_recorded ⟨hslot, hshare, rfl⟩)

theorem bookEnergy_inject_notRaised {c : Cond} (hc : c ≠ .spaceOver) (hx : c ≠ .txDrop) :
    notRaised c s (bookEnergy .inject v h w bed s).2.2 := by
  rw [notRaised_iff, bookEnergy_inject]
  exact (compareAll_reading hc hx _ _).trans (State.withShares_reading _)

theorem bookEnergy_withdraw_notRaised {c : Cond} (hc : c ≠ .capShortfall) (hx : c ≠ .txDrop) :
    notRaised c s (bookEnergy .withdraw v h w bed s).2.2 := by
  rw [notRaised_iff, bookEnergy_withdraw]
  dsimp only
  split
  · exact State.withShares_reading _
  · exact (raise_reading _ _ _ _ _ hc hx).trans (State.withShares_reading _)

theorem bookEnergy_of_no_pool (hpool : (s.shared .withdraw v h w).2.2 = 0) :
    (bookEnergy .withdraw v h w bed s).2.2 = s.withShares .withdraw v h w bed := by
  rw [bookEnergy_withdraw]
  exact if_pos hpool

end Sys2Proof.Machine
end


section
/-! PROOFS. The law of the inventories' sum (R3, R35 to R53): a booking's slots, the fuel's charges, and an interval and a
suspense record booked. -/

namespace Sys2Proof.Machine

open Sys2Proof (Flow Bed)

variable {s : State} {f : Flow} {v h i : Nat} {w : List Nat} {bed : Option Bed}

/-! ### The slots behind a booking -/

/-- The space-over flag of a slot, newly set. -/
def newlyOver (s t : State) (i : Nat) : Bool := (t.acct.slots.getD i {}).spaceOver && !(s.acct.slots.getD i {}).spaceOver

theorem newlyOver_withShares (hs : s.acct.slots.length = 17) (hw : w.length = 17) (hi : i < 17) (t : State) :
    newlyOver (s.withShares f v h w bed) t i = newlyOver s t i := by
  rw [newlyOver, State.withShares_spaceOver hs hw hi]
  rfl

theorem bookEnergy_inject_slot (hs : s.acct.slots.length = 17) (hm : s.mon.sized) (hw : w.length = 17) (hi : i < 17) :
    let t := (bookEnergy .inject v h w bed s).2.2
    let x := s.acct.slots.getD i {}
    let y := t.acct.slots.getD i {}
    let n := (bookEnergy .inject v h w bed s).2.1.getD i 0
    (y.inventory = x.inventory + n ∧ y.totals = { x.totals with injected := x.totals.injected + n })
      ∧ (y.spaceOver = true ↔ x.spaceOver = true ∨ 1 ≤ i ∧ 0 < n ∧ s.cfg.configured i = true
        ∧ ((s.cfg.shipper i).space : Int) < t.siteInventory i)
      ∧ (newlyOver s t i = true → (∀ j < i, newlyOver s t j = false) →
        recorded .spaceOver (fun r => r.slot = i ∧ r.value = t.siteInventory i) s t) := by
  intro t x y n
  have hlen : (s.withShares .inject v h w bed).acct.slots.length = 17 := by
    rw [State.withShares_slots, updateAt_length, List.length_zipWith, State.shared_length hw, hs]
    rfl
  obtain ⟨hslots, -, hsite⟩ := compareSpaces_spec (s := s.withShares .inject v h w bed) hlen hm (s.shared .inject v h w).1
  obtain ⟨hy, hflag, hrec⟩ := hslots i hi
  rw [State.withShares_slot hs hw hi] at hy
  have hyx : y = _ := hy
  refine ⟨⟨by rw [hyx]; rfl, by rw [hyx]; cases i <;> rfl⟩, ?_, fun hnew hfirst => ?_⟩
  · rw [← hsite i, State.withShares_spaceOver hs hw hi] at hflag
    exact hflag
  · rw [← hsite i] at hrec
    refine State.withShares_recorded (hrec ?_ fun j hj => ?_)
    · exact (newlyOver_withShares hs hw hi t).trans hnew
    · exact (newlyOver_withShares hs hw (hj.trans hi) t).trans (hfirst j hj)

theorem bookEnergy_inject_spaceOver (hs : s.acct.slots.length = 17) (hm : s.mon.sized) (hw : w.length = 17) :
    raisedTimes .spaceOver ((List.range 17).filter (newlyOver s (bookEnergy .inject v h w bed s).2.2)).length s
      (bookEnergy .inject v h w bed s).2.2 := by
  have hlen : (s.withShares .inject v h w bed).acct.slots.length = 17 := by
    rw [State.withShares_slots, updateAt_length, List.length_zipWith, State.shared_length hw, hs]
    rfl
  obtain ⟨-, htimes, -⟩ := compareSpaces_spec (s := s.withShares .inject v h w bed) hlen hm (s.shared .inject v h w).1
  have hfilter : (List.range 17).filter (newlyOver s (bookEnergy .inject v h w bed s).2.2)
      = (List.range 17).filter (newlyOver (s.withShares .inject v h w bed) (bookEnergy .inject v h w bed s).2.2) :=
    List.filter_congr fun i hi => (newlyOver_withShares hs hw (List.mem_range.mp hi) _).symm
  rw [hfilter]
  exact htimes

theorem bookEnergy_withdraw_slot (hs : s.acct.slots.length = 17) (hw : w.length = 17) (hi : i < 17) :
    (bookEnergy .withdraw v h w bed s).2.2.acct.slots.getD i {} = addShortfall (bookShare .withdraw (s.acct.slots.getD i {})
      ((bookEnergy .withdraw v h w bed s).2.1.getD i 0)) (if i = 0 then (s.shared .withdraw v h w).2.2 else 0) := by
  rw [bookEnergy_withdraw_acct, State.withShares_slot hs hw hi]
  rfl

theorem newlyOver_withdraw (hs : s.acct.slots.length = 17) (hw : w.length = 17) (hi : i < 17) :
    newlyOver s (bookEnergy .withdraw v h w bed s).2.2 i = false := by
  rw [newlyOver, bookEnergy_withdraw_slot hs hw hi]
  exact Bool.and_not_self _

theorem bookEnergy_withdraw_spaceOver (hs : s.acct.slots.length = 17) (hw : w.length = 17) :
    raisedTimes .spaceOver ((List.range 17).filter (newlyOver s (bookEnergy .withdraw v h w bed s).2.2)).length s
      (bookEnergy .withdraw v h w bed s).2.2 := by
  have hnone : (List.range 17).filter (newlyOver s (bookEnergy .withdraw v h w bed s).2.2) = [] :=
    List.filter_eq_nil_iff.mpr fun i hi => by rw [newlyOver_withdraw hs hw (List.mem_range.mp hi)]; decide
  rw [hnone]
  exact ⟨fun hpos => absurd hpos (by decide), fun _ => bookEnergy_withdraw_notRaised (by decide) (by decide)⟩

theorem bookEnergy_passage (bd : Bed) :
    (bed = some bd → f = .withdraw → (bookEnergy f v h w bed s).2.2.dryer.bed bd = { s.dryer.bed bd with
        passage := List.zipWith (· + ·) (s.dryer.bed bd).passage (bookEnergy f v h w bed s).2.1 })
      ∧ (bed ≠ some bd ∨ f = .inject → (bookEnergy f v h w bed s).2.2.dryer.bed bd = s.dryer.bed bd) := by
  rw [bookEnergy_dryer]
  cases f with
  | inject => exact ⟨fun _ => nofun, fun _ => rfl⟩
  | withdraw =>
    constructor
    · rintro rfl -
      simp [addPassage]
    · rintro (hne | hx)
      · cases bed with
        | none => rfl
        | some x =>
          have hb : bd = otherBed x := by
            rcases bed_eq_or_other x bd with heq | heq
            · exact absurd (congrArg some heq.symm) hne
            · exact heq
          subst hb
          simp [addPassage]
      · cases hx

/-! ### The fuel's charges -/

section

variable {k : FuelKind} {amount : Nat}

/-- What a shipper cannot bear of its charge. -/
def State.misses (s : State) (charges : List Nat) (i : Nat) : Nat := charges.getD i 0 - (s.inventory i).toNat

theorem fuelShorts_getD (hs : s.acct.slots.length = 17) {charges : List Nat} (hc : charges.length = 17) (h1 : 1 ≤ i)
    (hi : i < 17) : (fuelShorts s.acct.slots charges).getD i 0 = s.misses charges i := by
  obtain ⟨j, rfl⟩ : ∃ j, i = j + 1 := ⟨i - 1, by omega⟩
  have hzip := zipWith_getD fuelShort (l := s.acct.slots.drop 1) (m := charges.drop 1) (i := j)
    (by rw [List.length_drop]; omega) (by rw [List.length_drop]; omega) {} 0 0
  rw [fuelShorts, List.getD_cons_succ, hzip, fuelShort, State.misses, State.inventory]
  simp only [List.getD_eq_getElem?_getD, List.getElem?_drop, Nat.add_comm 1 j]

theorem fuelShorts_length (hs : s.acct.slots.length = 17) {charges : List Nat} (hc : charges.length = 17) :
    (fuelShorts s.acct.slots charges).length = 17 := by
  simp [fuelShorts, hs, hc]

theorem fuelShorts_sum (hs : s.acct.slots.length = 17) {charges : List Nat} (hc : charges.length = 17) :
    (fuelShorts s.acct.slots charges).sum = ((List.range 16).map (fun i => s.misses charges (i + 1))).sum := by
  rw [sum_eq_sum_range, fuelShorts_length hs hc, List.range_succ_eq_map, List.map_cons, List.sum_cons, List.map_map]
  have hzero : (fuelShorts s.acct.slots charges).getD 0 0 = 0 := rfl
  rw [hzero, Nat.zero_add]
  refine congrArg List.sum (List.map_congr_left fun j hj => ?_)
  exact fuelShorts_getD hs hc (by omega) (by have := List.mem_range.mp hj; omega)

theorem bookFuel_of_none (hnone : (fuelShorts s.acct.slots (apportion amount w)).sum = 0) : bookFuel k amount w s
    = s.onAcct (fun a => { a with slots := deductCharges k a.slots (apportion amount w) }) := if_pos hnone

theorem bookFuel_of_some (hsome : 0 < (fuelShorts s.acct.slots (apportion amount w)).sum) : bookFuel k amount w s
    = raise .fuelShortfall (lowestMarked ((fuelShorts s.acct.slots (apportion amount w)).map (fun n => decide (0 < n))))
      (fuelShorts s.acct.slots (apportion amount w)).sum
      (s.onAcct (fun a => { a with slots := deductCharges k a.slots (apportion amount w) })) :=
  if_neg (Nat.pos_iff_ne_zero.mp hsome)

theorem exists_of_sum_pos {l : List Nat} (hpos : 0 < l.sum) : ∃ i < l.length, 0 < l.getD i 0 := by
  refine by_contra fun hnone => ?_
  have hzero : l.sum = 0 := by
    rw [sum_eq_sum_range]
    refine List.sum_eq_zero fun n hn => ?_
    obtain ⟨i, hi, rfl⟩ := List.mem_map.mp hn
    have hle : ¬ 0 < l.getD i 0 := fun hgt => hnone ⟨i, List.mem_range.mp hi, hgt⟩
    omega
  omega

/-- FUEL_SHORTFALL is raised once, with the lowest shipper that cannot bear its charge and the sum that is missing. -/
theorem bookFuel_shortfall (hs : s.acct.slots.length = 17) (hm : s.mon.sized) (hw : w.length = 17)
    (hsome : 0 < (fuelShorts s.acct.slots (apportion amount w)).sum) :
    raisedOnce .fuelShortfall s (bookFuel k amount w s) ∧ recorded .fuelShortfall (fun r => 1 ≤ r.slot
      ∧ 0 < s.misses (apportion amount w) r.slot ∧ (∀ i < r.slot, 1 ≤ i → s.misses (apportion amount w) i = 0)
      ∧ r.value = (fuelShorts s.acct.slots (apportion amount w)).sum) s (bookFuel k amount w s) := by
  have hc := apportion_length_17 (e := amount) hw
  have hlen := fuelShorts_length hs hc
  have hmarks (j : Nat) : ((fuelShorts s.acct.slots (apportion amount w)).map (fun n => decide (0 < n))).getD j false
      = decide (0 < (fuelShorts s.acct.slots (apportion amount w)).getD j 0) :=
    List.getD_map (fuelShorts s.acct.slots (apportion amount w)) 0 (fun n => decide (0 < n))
  obtain ⟨i, hi, hshort⟩ := exists_of_sum_pos hsome
  have h1 : 1 ≤ i := by
    rcases Nat.eq_zero_or_pos i with rfl | hpos
    · exact absurd hshort (Nat.lt_irrefl 0)
    · exact hpos
  obtain ⟨hlow, hmark, hbefore⟩ := lowestMarked_of_mark (marks := (fuelShorts s.acct.slots
    (apportion amount w)).map (fun n => decide (0 < n))) h1 (by rw [hmarks]; exact decide_eq_true hshort)
  rw [bookFuel_of_some hsome]
  generalize lowestMarked _ = low at hlow hmark hbefore ⊢
  rw [hmarks, decide_eq_true_eq] at hmark
  have hk : low < 17 := by
    refine by_contra fun hge => ?_
    rw [List.getD_eq_default _ _ (by omega)] at hmark
    omega
  refine ⟨raise_raisedOnce _ _ _ _ (by decide) hm, ?_⟩
  refine recorded.before (t := s.onAcct (fun a => { a with slots := deductCharges k a.slots (apportion amount w) }))
    (raise_recorded ⟨hlow, ?_, fun j hj hj1 => ?_, rfl⟩) rfl rfl rfl rfl
  · rwa [fuelShorts_getD hs hc hlow hk] at hmark
  · have hnone := hbefore j hj hj1
    rw [hmarks, decide_eq_false_iff_not, fuelShorts_getD hs hc hj1 (Nat.lt_trans hj hk)] at hnone
    exact Nat.eq_zero_of_not_pos hnone

/-- What a slot pays of the fuel, and what it misses. -/
theorem bookFuel_slot (hs : s.acct.slots.length = 17) (hw : w.length = 17) (hi : i < 17) :
    let shorts := (fuelShorts s.acct.slots (apportion amount w)).sum
    let x := s.acct.slots.getD i {}
    let paid := if i = 0 then (apportion amount w).getD 0 0 + shorts
      else (apportion amount w).getD i 0 - s.misses (apportion amount w) i
    let missed := if i = 0 then shorts else s.misses (apportion amount w) i
    (bookFuel k amount w s).acct.slots.getD i {} = { x with
      inventory := x.inventory - paid
      totals := { addFuel k x.totals paid with shortfall := x.totals.shortfall + missed } } := by
  have hc : (apportion amount w).length = s.acct.slots.length := (apportion_length_17 hw).trans hs.symm
  intro shorts x paid missed
  have hshortfall (n : Nat) : (addFuel k x.totals n).shortfall = x.totals.shortfall := by cases k <;> rfl
  rw [bookFuel_slots]
  by_cases h0 : i = 0
  · subst h0
    rw [deductCharges_operator hc (by omega), deductOperator, addShortfall]
    dsimp only
    rw [hshortfall]
    rfl
  · rw [deductCharges_shipper hc (by omega) (by omega), deductShipper, addShortfall]
    dsimp only
    rw [hshortfall]
    simp only [paid, missed, if_neg h0, State.misses, State.inventory, fuelShort, x]

end

end Sys2Proof.Machine
end


section
/-! PROOFS. An interval, a regeneration and a due suspense record booked (R35, R36, R46 to R53), and with them the law of the
inventories' sum. -/

namespace Sys2Proof.Machine

open Sys2Proof (Flow Bed)

variable {s : State} {f : Flow} {v h i fuel amount : Nat} {w : List Nat} {bed : Option Bed} {k : FuelKind}

/-! ### A charge takes its amount out of the inventories -/

theorem sum_deductShipper (l : List Slot) (m : List Nat) (h : l.length = m.length) :
    ((List.zipWith (deductShipper k) l m).map Slot.inventory).sum
      = (l.map Slot.inventory).sum - m.sum + (List.zipWith fuelShort l m).sum := by
  induction l generalizing m with
  | nil => cases m <;> simp_all
  | cons x l ih =>
    cases m with
    | nil => simp at h
    | cons n m =>
      have hrest := ih m (by simpa using h)
      have hhead : (deductShipper k x n).inventory = x.inventory - (n - fuelShort x n : Nat) := rfl
      have hle : fuelShort x n ≤ n := Nat.sub_le _ _
      simp only [List.zipWith_cons_cons, List.map_cons, List.sum_cons, hhead]
      omega

theorem sum_deductCharges (l : List Slot) (m : List Nat) (h : m.length = l.length) (hpos : 0 < l.length) :
    ((deductCharges k l m).map Slot.inventory).sum = (l.map Slot.inventory).sum - m.sum := by
  match l, m with
  | op :: shippers, c0 :: cs =>
    have hrest := sum_deductShipper (k := k) shippers cs (by simpa using h.symm)
    have hhead (n : Nat) : (deductOperator k op c0 n).inventory = op.inventory - (c0 + n : Nat) := rfl
    simp only [deductCharges, List.map_cons, List.sum_cons, hhead]
    omega
  | op :: shippers, [] => simp at h
  | [], _ => simp at hpos

theorem bookFuel_sum (hs : s.acct.slots.length = 17) (hw : w.length = 17) :
    (bookFuel k amount w s).inventories.sum = s.inventories.sum - amount := by
  have hc : (apportion amount w).length = s.acct.slots.length := (apportion_length_17 hw).trans hs.symm
  rw [State.inventories, bookFuel_slots, sum_deductCharges _ _ hc (by omega), apportion_sum, State.inventories]

theorem bookFuel_carry (f : Flow) : (bookFuel k amount w s).acct.carry f = s.acct.carry f := by
  unfold bookFuel
  dsimp only
  split
  · cases f <;> rfl
  · simp only [raise_frame]
    cases f <;> rfl

theorem bookFuel_keeps_record {r : ExceptionRecord} (h : r ∈ s.mon.exceptions) :
    r ∈ (bookFuel k amount w s).mon.exceptions := by
  unfold bookFuel
  dsimp only
  split
  · exact h
  · exact raise_keeps_record h

theorem bookRegeneration_sum (hs : s.sized) (bed : Option Bed) (g : Nat) :
    (bookRegeneration bed g s).inventories.sum = s.inventories.sum - g := by
  obtain ⟨hslots, -, ha, hb, -, -⟩ := hs
  have hpassage (x : Bed) : (s.dryer.bed x).passage.length = 17 := by cases x <;> assumption
  cases bed with
  | none => exact bookFuel_sum hslots List.length_replicate
  | some x => exact bookFuel_sum hslots (hpassage x)

/-! ### The booking of a stray flow -/

theorem getD_operator_alone (e n : Nat) (h1 : 1 ≤ i) : (e :: List.replicate n 0).getD i 0 = 0 := by
  obtain ⟨j, rfl⟩ : ∃ j, i = j + 1 := ⟨i - 1, by omega⟩
  rw [List.getD_cons_succ, List.getD_eq_getElem?_getD, List.getElem?_replicate]
  split <;> rfl

/-- Without weights slot 0 takes the whole energy, and no space is compared (R41). -/
theorem bookEnergy_unweighted : (bookEnergy .inject v h (List.replicate 17 0) bed s).2
    = ((s.staged .inject v h).1 :: List.replicate 16 0, s.withShares .inject v h (List.replicate 17 0) bed) := by
  have hshares : (s.shared .inject v h (List.replicate 17 0)).1 = (s.staged .inject v h).1 :: List.replicate 16 0 :=
    apportion_of_no_weight (w := List.replicate 17 0) (s.staged .inject v h).1 (by decide)
  have hnone : (List.range 17).filter (fun i => decide (1 ≤ i)
      && decide (0 < ((s.staged .inject v h).1 :: List.replicate 16 0).getD i 0)) = [] := by
    refine List.filter_eq_nil_iff.mpr fun i _ => ?_
    by_cases h1 : 1 ≤ i
    · rw [getD_operator_alone _ _ h1]
      simp
    · simp [h1]
  rw [bookEnergy_inject, hshares, compareSpaces, hnone]
  rfl

/-- A shipper without weight keeps its slot under a charge (R47). -/
theorem bookFuel_unweighted (hs : s.acct.slots.length = 17) (hw : w.length = 17) (h1 : 1 ≤ i) (hi : i < 17)
    (hzero : w.getD i 0 = 0) : (bookFuel k amount w s).acct.slots.getD i {} = s.acct.slots.getD i {} := by
  have hcharge : (apportion amount w).getD i 0 = 0 := by
    rcases Nat.eq_zero_or_pos w.sum with hsum | hsum
    · rw [apportion_of_no_weight _ hsum, getD_operator_alone _ _ h1]
    · exact apportion_getD_of_weight_zero hsum hzero
  rw [bookFuel_slot hs hw hi]
  dsimp only
  rw [if_neg (by omega), if_neg (by omega), State.misses, hcharge]
  have hfuel (t : Totals) : addFuel k t 0 = t := by cases k <;> rfl
  simp only [hfuel, Nat.zero_sub, Nat.add_zero, Int.natCast_zero, Int.sub_zero]

/-! ### An interval -/

theorem intervalDirection_flow (last : Dir) : intervalDirection (flowMode f) last v = some (f, false) := by
  cases f <;> rfl

theorem intervalDirection_calm {mode : Mode} (hi : mode ≠ .inject) (hw : mode ≠ .withdraw) (last : Dir) (hv : 0 < v) :
    intervalDirection mode last v = some (last.getD .inject, decide (last = none)) := by
  have hcalm : modeFlow mode = none := by cases mode <;> simp_all [modeFlow]
  unfold intervalDirection
  rw [hcalm]
  dsimp only
  rw [if_neg (by omega)]
  cases last <;> rfl

theorem intervalDirection_none {mode : Mode} (hi : mode ≠ .inject) (hw : mode ≠ .withdraw) (last : Dir) :
    intervalDirection mode last 0 = none := by
  have hcalm : modeFlow mode = none := by cases mode <;> simp_all [modeFlow]
  unfold intervalDirection
  rw [hcalm]
  rfl

theorem intervalDirection_stray {mode : Mode} {last : Dir} (hstray : intervalDirection mode last v = some (f, true)) :
    mode ≠ .inject ∧ mode ≠ .withdraw ∧ 0 < v ∧ last = none := by
  have hcalm (g : Flow) : mode ≠ flowMode g := by
    rintro rfl
    rw [intervalDirection_flow] at hstray
    cases hstray
  rcases Nat.eq_zero_or_pos v with rfl | hv
  · rw [intervalDirection_none (hcalm .inject) (hcalm .withdraw)] at hstray
    cases hstray
  · rw [intervalDirection_calm (hcalm .inject) (hcalm .withdraw) _ hv] at hstray
    injection hstray with hpair
    injection hpair with _ hlast
    exact ⟨hcalm .inject, hcalm .withdraw, hv, of_decide_eq_true hlast⟩

theorem adsorbing_eq_of_alone {d : Dryer} {bed : Bed} (hads : (d.bed bed).state = .adsorbing)
    (hother : (d.bed (otherBed bed)).state ≠ .adsorbing) : d.adsorbing = some bed := by
  cases hd : d.adsorbing with
  | none => exact absurd hads (Dryer.adsorbing_eq_none.mp hd bed)
  | some x =>
    have hx := Dryer.adsorbing_eq_some hd
    obtain rfl | rfl := bed_eq_or_other bed x
    · rfl
    · exact absurd hx hother

/-- The weights of an interval's booking: none for a stray flow (R36). -/
def State.intervalWeights (s : State) (f : Flow) (stray : Bool) : List Nat :=
  if stray then List.replicate 17 0 else bookingWeights f s.nom.confirmed

theorem State.intervalWeights_length (hs : s.sized) (stray : Bool) : (s.intervalWeights f stray).length = 17 := by
  obtain ⟨-, hconf, -⟩ := hs
  unfold State.intervalWeights
  split
  · exact List.length_replicate
  · exact bookingWeights_length hconf

/-- The state of an interval's energy booked, with the stray flow raised. -/
def State.intervalBooked (s : State) (v h : Nat) (f : Flow) (stray : Bool) : State :=
  let b := bookEnergy f v h (s.intervalWeights f stray) s.dryer.adsorbing s
  if stray then raise .strayFlow 0 b.1 b.2.2 else b.2.2

/-- The hour's compressor fuel counted. -/
def State.burned (s : State) (fuel : Nat) : State := s.onMon (fun m => { m with sumCompFuel := m.sumCompFuel + fuel })

theorem bookInterval_some {stray : Bool} (hdir : intervalDirection s.train.mode s.train.lastFlow v = some (f, stray)) :
    bookInterval v h fuel s = (bookFuel .compressor fuel
      (bookEnergy f v h (s.intervalWeights f stray) s.dryer.adsorbing s).2.1 (s.intervalBooked v h f stray)).burned fuel := by
  unfold bookInterval
  rw [hdir]
  cases stray <;> rfl

theorem bookInterval_none (hdir : intervalDirection s.train.mode s.train.lastFlow v = none) :
    bookInterval v h fuel s = (bookFuel .compressor fuel (List.replicate 17 0) s).burned fuel := by
  unfold bookInterval
  rw [hdir]
  rfl

section

variable {stray : Bool}

theorem State.intervalBooked_acct : (s.intervalBooked v h f stray).acct
    = (bookEnergy f v h (s.intervalWeights f stray) s.dryer.adsorbing s).2.2.acct := by
  unfold State.intervalBooked
  dsimp only
  split <;> simp only [raise_frame]

theorem State.intervalBooked_dryer : (s.intervalBooked v h f stray).dryer
    = (bookEnergy f v h (s.intervalWeights f stray) s.dryer.adsorbing s).2.2.dryer := by
  unfold State.intervalBooked
  dsimp only
  split <;> simp only [raise_frame]

theorem State.intervalBooked_slots (hs : s.sized) : (s.intervalBooked v h f stray).acct.slots.length = 17 := by
  have hinv := congrArg List.length (bookEnergy_inventories (f := f) (v := v) (h := h) (w := s.intervalWeights f stray)
    (bed := s.dryer.adsorbing) (s := s))
  rw [List.length_zipWith, bookEnergy_length (s.intervalWeights_length hs stray)] at hinv
  simp only [State.inventories, List.length_map, hs.1] at hinv
  rw [State.intervalBooked_acct]
  exact hinv

theorem bookInterval_dryer (hdir : intervalDirection s.train.mode s.train.lastFlow v = some (f, stray)) :
    (bookInterval v h fuel s).dryer = (bookEnergy f v h (s.intervalWeights f stray) s.dryer.adsorbing s).2.2.dryer := by
  rw [bookInterval_some hdir, ← State.intervalBooked_dryer]
  simp only [State.burned, State.onMon_dryer, bookFuel_frame]

/-- The sum and the carries behind an interval (R35, R36, R38). -/
theorem bookInterval_books (hs : s.sized) (hdir : intervalDirection s.train.mode s.train.lastFlow v = some (f, stray)) :
    (bookInterval v h fuel s).inventories.sum = s.inventories.sum + signedEnergy f (s.staged f v h).1 - fuel
      ∧ (bookInterval v h fuel s).acct.carry f = (s.staged f v h).2
      ∧ (bookInterval v h fuel s).acct.carry (opposite f) = s.acct.carry (opposite f) := by
  have hlen := s.intervalWeights_length (f := f) hs stray
  have hcarry (g : Flow) : (bookInterval v h fuel s).acct.carry g
      = (s.withShares f v h (s.intervalWeights f stray) s.dryer.adsorbing).acct.carry g := by
    rw [bookInterval_some hdir]
    refine (bookFuel_carry g).trans ?_
    rw [State.intervalBooked_acct, bookEnergy_carry]
  refine ⟨?_, (hcarry f).trans State.withShares_carry.1, (hcarry _).trans State.withShares_carry.2⟩
  rw [bookInterval_some hdir, ← bookEnergy_sum (bed := s.dryer.adsorbing) hs.1 hlen]
  refine (bookFuel_sum (State.intervalBooked_slots hs) (bookEnergy_length hlen)).trans ?_
  rw [State.inventories, State.intervalBooked_acct, State.inventories]

theorem bookEnergy_strayFlow : notRaised .strayFlow s (bookEnergy f v h w bed s).2.2 := by
  cases f with
  | inject => exact bookEnergy_inject_notRaised (by decide) (by decide)
  | withdraw => exact bookEnergy_withdraw_notRaised (by decide) (by decide)

theorem State.burned_acct : (s.burned fuel).acct = s.acct := rfl

theorem burned_keeps_record {r : ExceptionRecord} (hr : r ∈ s.mon.exceptions) :
    r ∈ ((bookFuel k amount w s).burned fuel).mon.exceptions := bookFuel_keeps_record (k := k) (amount := amount) (w := w) hr

theorem burned_reading {c : Cond} (hc : c ≠ .fuelShortfall) (hx : c ≠ .txDrop) :
    ((bookFuel k amount w s).burned fuel).mon.reading c = s.mon.reading c := bookFuel_reading hc hx k amount w

/-- A stray flow: raised once, with the energy; no shipper takes part (R36). -/
theorem bookInterval_stray (hs : s.sized) (hm : s.mon.sized)
    (hdir : intervalDirection s.train.mode s.train.lastFlow v = some (.inject, true)) :
    raisedOnce .strayFlow s (bookInterval v h fuel s)
      ∧ recorded .strayFlow (fun r => r.slot = 0 ∧ r.value = ((s.staged .inject v h).1 : Nat)) s (bookInterval v h fuel s)
      ∧ ∀ i < 17, 1 ≤ i → (bookInterval v h fuel s).acct.slots.getD i {} = s.acct.slots.getD i {} := by
  have hbook := bookEnergy_unweighted (s := s) (v := v) (h := h) (bed := s.dryer.adsorbing)
  have hbooked : s.intervalBooked v h .inject true = raise .strayFlow 0 (s.staged .inject v h).1
      (s.withShares .inject v h (List.replicate 17 0) s.dryer.adsorbing) :=
    congrArg (fun b : List Nat × State => raise .strayFlow 0 (s.staged .inject v h).1 b.2) hbook
  rw [bookInterval_some hdir]
  refine ⟨?_, ?_, fun i hi h1 => ?_⟩
  · refine raisedOnce_of_reading (t := s.intervalBooked v h .inject true) ?_ (burned_reading (by decide) (by decide))
    rw [hbooked]
    exact raisedOnce_of_before (raise_raisedOnce _ _ _ _ (by decide) hm) (State.withShares_reading _)
  · refine recorded.later (t := s.intervalBooked v h .inject true) ?_ fun r hr => burned_keeps_record hr
    rw [hbooked]
    exact State.withShares_recorded (raise_recorded ⟨rfl, rfl⟩)
  · have hshares : (bookEnergy .inject v h (s.intervalWeights .inject true) s.dryer.adsorbing s).2.1
        = (s.staged .inject v h).1 :: List.replicate 16 0 := congrArg Prod.fst hbook
    have hzero : ((s.staged .inject v h).1 :: List.replicate 16 0).getD i 0 = 0 :=
      getD_operator_alone _ _ h1
    rw [State.burned_acct, hshares, bookFuel_unweighted (State.intervalBooked_slots hs) (by simp) h1 hi hzero]
    have hshared : (s.shared .inject v h (List.replicate 17 0)).1 = (s.staged .inject v h).1 :: List.replicate 16 0 := hshares
    rw [hbooked]
    simp only [raise_frame]
    rw [State.withShares_slot hs.1 List.length_replicate hi, hshared, hzero, if_neg (by omega)]
    simp only [addShortfall, bookShare, Nat.add_zero, Int.natCast_zero, Int.add_zero]

theorem bookInterval_not_stray (hdir : ∀ f, intervalDirection s.train.mode s.train.lastFlow v ≠ some (f, true)) :
    notRaised .strayFlow s (bookInterval v h fuel s) := by
  rw [notRaised_iff]
  cases hd : intervalDirection s.train.mode s.train.lastFlow v with
  | none =>
    rw [bookInterval_none hd]
    exact bookFuel_reading (by decide) (by decide) _ _ _
  | some d =>
    obtain ⟨f, stray⟩ := d
    cases stray with
    | true => exact absurd hd (hdir f)
    | false =>
      rw [bookInterval_some hd]
      exact (bookFuel_reading (by decide) (by decide) _ _ _).trans (notRaised_iff.mp bookEnergy_strayFlow)

end

/-! ### A due suspense record -/

theorem raise_link_quiet {c : Cond} {slot : Nat} {x : Int} (hc : s.cfg.escalates (condCode c) = false) :
    (raise c slot x s).link = s.link := by
  have hquiet : s.escalated c = false := by rw [State.escalated, hc, Bool.and_false]
  unfold raise raiseQuiet
  simp [hquiet]

theorem compareAll_link_quiet (hc : s.cfg.escalates (condCode .spaceOver) = false) (l : List Nat) :
    (l.foldl compareSpace s).link = s.link := by
  induction l generalizing s with
  | nil => rfl
  | cons i l ih =>
    have hcfg : (compareSpace s i).cfg = s.cfg := by simp [State.cfg]
    rw [List.foldl_cons, ih (by rwa [hcfg])]
    unfold compareSpace
    split
    · exact raise_link_quiet hc
    · rfl

theorem State.withShares_link : (s.withShares f v h w bed).link = s.link := by cases f <;> rfl

/-- A booking leaves a queue with room for one entry more, an injection's only while SPACE_OVER queues no report. -/
theorem bookEnergy_room {n : Nat} (hr : s.room n) (hn : n < 8)
    (hquiet : f = .withdraw ∨ s.cfg.escalates (condCode .spaceOver) = false) : (bookEnergy f v h w bed s).2.2.room (n + 1) := by
  have hshares : (s.withShares f v h w bed).room n := by rwa [State.room, State.withShares_link]
  cases f with
  | inject =>
    have hlink : (bookEnergy .inject v h w bed s).2.2.link = s.link := by
      rw [bookEnergy_inject]
      exact (compareAll_link_quiet (by rcases hquiet with hx | hx <;> [cases hx; exact hx]) _).trans State.withShares_link
    rw [State.room, hlink]
    exact hr.mono (Nat.le_succ n)
  | withdraw =>
    rw [bookEnergy_withdraw]
    dsimp only
    split
    · exact hshares.mono (Nat.le_succ n)
    · exact raise_room _ _ _ _ hshares hn

theorem bookSuspense_due {r : Suspense} {d : Due} (hr : s.intake.suspense f = some r) (hd : r.due = some d) :
    bookSuspense f bed s = replyDue d .done ((bookEnergy f d.book r.cv (bookingWeights f r.snapshot) bed s).2.2.onIntake
      (fun i => i.setSuspense f none)) := by
  unfold bookSuspense
  rw [hr]
  dsimp only
  rw [hd]

theorem bookSuspense_undue (hdue : ∀ r, s.intake.suspense f = some r → r.due = none) : bookSuspense f bed s = s := by
  unfold bookSuspense
  split
  · rfl
  · next r hr =>
    rw [hdue r hr]

theorem bookEnergy_hourSum : (bookEnergy f v h w bed s).2.2.mon.sumInjected
      = s.mon.sumInjected + (if f = .inject then (s.staged f v h).1 else 0)
    ∧ (bookEnergy f v h w bed s).2.2.mon.sumWithdrawn
      = s.mon.sumWithdrawn + (if f = .withdraw then (s.staged f v h).1 else 0) := by
  have hshares : (s.withShares f v h w bed).mon = addHourEnergy f (s.staged f v h).1 s.mon := by cases f <;> rfl
  cases f with
  | inject =>
    rw [bookEnergy_inject]
    simp [hshares, addHourEnergy]
  | withdraw =>
    rw [bookEnergy_withdraw]
    dsimp only
    split <;> simp [hshares, addHourEnergy]

/-- A due record booked: its energy, its reply, and nothing of the other blocks (R53, R130). -/
theorem bookSuspense_books {r : Suspense} {d : Due} (hmode : s.train.mode ≠ .config)
    (hr : s.intake.suspense f = some r) (hd : r.due = some d) :
    let b := bookEnergy f d.book r.cv (bookingWeights f r.snapshot) bed s
    let t := bookSuspense f bed s
    t.acct = b.2.2.acct ∧ t.dryer = b.2.2.dryer ∧ t.intake = s.intake.setSuspense f none
      ∧ t.mon.sumInjected = b.2.2.mon.sumInjected ∧ t.mon.sumWithdrawn = b.2.2.mon.sumWithdrawn
      ∧ (s.roomy → f = .withdraw ∨ s.cfg.escalates 6 = false → t.waits (.reply
          { console := d.console, command := d.command, arg := d.arg, litres := d.litres, outcome := .done }))
      ∧ t.nom = s.nom ∧ t.train = s.train ∧ t.comp = s.comp ∧ t.clock = s.clock ∧ t.peers = s.peers := by
  intro b t
  have ht : t = replyDue d .done (b.2.2.onIntake (fun i => i.setSuspense f none)) := bookSuspense_due hr hd
  clear_value t
  subst ht
  refine ⟨by simp [replyDue], by simp, by simp [b], by simp, by simp, fun hroom hquiet => ?_, by simp [b], by simp [b],
    by simp [b], by simp [b], by simp [b]⟩
  have hbooked : b.2.2.room 5 := bookEnergy_room (n := 4) hroom (by decide) hquiet
  exact replyTo_waits _ _ _ _ _ _ _ (by simpa [b] using hmode) hbooked.1 (Nat.lt_of_le_of_lt hbooked.2 (by decide))

theorem energyStage_exact (round : Bool) (v h : Nat) (c : Int)
    (hc : if round then -5000000 ≤ c ∧ c ≤ 4999999 else 0 ≤ c ∧ c ≤ 9999999) :
    ((energyStage round v h c).1 : Int) * 10000000 + (energyStage round v h c).2 = (v : Int) * h + c
      ∧ (if round then -5000000 ≤ (energyStage round v h c).2 ∧ (energyStage round v h c).2 ≤ 4999999
        else 0 ≤ (energyStage round v h c).2 ∧ (energyStage round v h c).2 ≤ 9999999) := by
  have hpos : (0 : Int) ≤ (v : Int) * h := Int.mul_nonneg (Int.natCast_nonneg v) (Int.natCast_nonneg h)
  unfold energyStage
  dsimp only
  generalize (v : Int) * h = p at hpos ⊢
  cases round <;> simp only [if_true, if_false, Bool.false_eq_true] at hc ⊢ <;> omega

/-! ### The law -/

/-- Settles O51: each booking and charge by the state its shares and charges leave, and what is raised behind it. -/
theorem inventorySumLaw : Obligations.InventorySumLaw := by
  unfold Obligations.InventorySumLaw
  refine ⟨fun s f v h w bed hs hm hw => ?_, fun s kind amount w hs hm hw => ?_, fun s v h fuel hs hm => ?_,
    fun s bed g hs => bookRegeneration_sum hs bed g, fun s f bed r d hs hmode hr hd => ?_,
    fun s f bed hdue => bookSuspense_undue hdue, fun round v h c hc => energyStage_exact round v h c hc⟩
  · intro e shares t pool newly
    have hlen : shares.length = 17 := bookEnergy_length hw
    have hsum : shares.sum = e := finalShares_sum hw
    have hcarry : (e, t.acct.carry f) = energyStage s.cfg.roundMode v h (s.acct.carry f) := by
      rw [show t.acct.carry f = (s.staged f v h).2 from (bookEnergy_carry f).trans State.withShares_carry.1]
      rfl
    refine ⟨bookEnergy_sum hs.1 hw, hlen, hsum, hcarry, (bookEnergy_carry _).trans State.withShares_carry.2, ?_, ?_, ?_, ?_,
      ?_, bookEnergy_passage⟩
    · rintro rfl
      rfl
    · intro i hi x y n
      cases f with
      | inject =>
        obtain ⟨hslot, hflag, hrec⟩ := bookEnergy_inject_slot (v := v) (h := h) (bed := bed) hs.1 hm hw hi
        exact ⟨fun _ => hslot, nofun, fun _ => hflag, nofun, hrec⟩
      | withdraw =>
        have hy : y = _ := bookEnergy_withdraw_slot hs.1 hw hi
        refine ⟨nofun, fun _ hw0 => ?_, nofun, fun _ => by rw [hy]; rfl, fun hnew => ?_⟩
        · have hpool : pool = (s.shared .withdraw v h w).2.2 := State.shared_pool hw hw0
          refine ⟨by rw [hy]; rfl, fun h1 => (State.shared_shipper hw h1 hi).1, by rw [hy, hpool]; rfl,
            fun h1 => (State.shared_shipper hw h1 hi).2.1, fun h1 hpos => (State.shared_shipper hw h1 hi).2.2 (hpool ▸ hpos)⟩
        · have hnone : newly i = false := newlyOver_withdraw hs.1 hw hi
          rw [hnone] at hnew
          cases hnew
    · cases f with
      | inject => exact bookEnergy_inject_spaceOver hs.1 hm hw
      | withdraw => exact bookEnergy_withdraw_spaceOver hs.1 hw
    · rintro rfl hw0 hpos
      have hpool : pool = (s.shared .withdraw v h w).2.2 := State.shared_pool hw hw0
      rw [hpool] at hpos ⊢
      exact bookEnergy_capShortfall hm hw hpos
    · cases f with
      | inject => exact fun _ => bookEnergy_inject_notRaised (by decide) (by decide)
      | withdraw =>
        rintro (hx | ⟨hw0, hnone⟩)
        · cases hx
        · have hpool : pool = (s.shared .withdraw v h w).2.2 := State.shared_pool hw hw0
          rw [notRaised_iff]
          change (bookEnergy .withdraw v h w bed s).2.2.mon.reading _ = _
          rw [bookEnergy_of_no_pool (hpool ▸ hnone), State.withShares_reading]
  · intro charges t short shorts
    have hc := apportion_length_17 (e := amount) hw
    have hshorts : (fuelShorts s.acct.slots charges).sum = shorts := fuelShorts_sum hs.1 hc
    refine ⟨fun hnone => ?_, fun hsome => ?_, fun i hi => ?_⟩
    · have hplain : t = _ := bookFuel_of_none (hshorts.trans hnone)
      rw [hplain]
      exact ⟨rfl, rfl⟩
    · have hraise := bookFuel_shortfall (k := kind) hs.1 hm hw (hshorts.symm ▸ hsome)
      rw [hshorts] at hraise
      exact hraise
    · intro x y paid missed
      have hslot := bookFuel_slot (k := kind) (amount := amount) hs.1 hw hi
      dsimp only at hslot
      rw [hshorts] at hslot
      have hy : y = _ := hslot
      rw [hy]
      refine ⟨rfl, ?_, ?_⟩
      · rintro rfl
        rfl
      · rintro rfl
        rfl
  · intro stray
    refine ⟨?_, fun hcalm => ?_, fun f hf => ?_, fun hi hw hv => ?_⟩
    · rintro ⟨hi, hw, hv, hlast⟩
      refine bookInterval_stray hs hm ?_
      rw [intervalDirection_calm hi hw _ hv, hlast]
      rfl
    · refine bookInterval_not_stray fun f hdir => hcalm ?_
      exact intervalDirection_stray hdir
    · obtain ⟨stray, hdir, hweights⟩ : ∃ b, intervalDirection s.train.mode s.train.lastFlow v = some (f, b)
          ∧ (f = .withdraw → b = false) := by
        rcases hf with hmode | ⟨hi, hw, hv, hlast⟩
        · exact ⟨false, by rw [hmode, intervalDirection_flow], fun _ => rfl⟩
        · refine ⟨_, by rw [intervalDirection_calm hi hw _ hv, hlast], ?_⟩
          rintro rfl
          cases hd : s.train.lastFlow with
          | none => rw [hd] at hlast; cases hlast
          | some d => rfl
      obtain ⟨hsum, hcarry, hother⟩ := bookInterval_books (h := h) (fuel := fuel) hs hdir
      refine ⟨hsum, hcarry, hother, ?_, ?_⟩
      · rintro (rfl | hnone)
        · rw [bookInterval_dryer hdir, bookEnergy_dryer]
        · rw [bookInterval_dryer hdir, Dryer.adsorbing_eq_none.mpr hnone, bookEnergy_dryer]
          cases f <;> rfl
      · rintro bed hads hcalm rfl
        have hbed : s.dryer.adsorbing = some bed := adsorbing_eq_of_alone hads hcalm
        rw [hweights rfl] at hdir
        rw [bookInterval_dryer hdir, hbed, ((bookEnergy_passage bed).1 rfl rfl)]
        rfl
    · subst hv
      rw [bookInterval_none (intervalDirection_none hi hw _)]
      exact bookFuel_sum hs.1 List.length_replicate
  · intro e b t
    obtain ⟨hacct, hdryer, hintake, hinj, hwith, hrest⟩ := bookSuspense_books (bed := bed) hmode hr hd
    have hsnapshot : r.snapshot.length = 16 := by
      obtain ⟨-, -, -, -, hi, hw⟩ := hs
      cases f
      · exact hi r hr
      · exact hw r hr
    obtain ⟨hsumi, hsumw⟩ := bookEnergy_hourSum (f := f) (v := d.book) (h := r.cv) (w := bookingWeights f r.snapshot)
      (bed := bed) (s := s)
    refine ⟨hacct, hdryer, hintake, ?_, ?_, ?_, ?_, hrest⟩
    · exact (congrArg (fun a : Accounts => a.carry f) hacct).trans ((bookEnergy_carry f).trans State.withShares_carry.1)
    · have hinv : t.inventories = b.2.2.inventories := inventories_of_slots (congrArg Accounts.slots hacct)
      rw [hinv]
      exact bookEnergy_sum hs.1 (bookingWeights_length hsnapshot)
    · rintro rfl
      exact hinj.trans hsumi
    · rintro rfl
      exact hwith.trans hsumw

end Sys2Proof.Machine
end


section
/-! PROOFS. The formats of the ports (R144, R145, R168, R169): a field read where it was written, a telegram's frame, the
part's own bits on the line, and a SAMPLE. -/

namespace Sys2Proof

open Sys2Proof.Machine

/-! ### Fields -/

section

variable {a rest : List Byte} {n v off : Nat}

theorem fieldAt_skip (h : a.length ≤ off) : fieldAt (a ++ rest) off n = fieldAt rest (off - a.length) n := by
  rw [fieldAt, List.drop_append, List.drop_eq_nil_of_le h, List.nil_append, fieldAt]

theorem fieldAt_natBytes : fieldAt (natBytes n v ++ rest) 0 n = v % 256 ^ n := by
  rw [fieldAt, List.drop_zero, List.take_left' (length_natBytes n v), bytesNat_natBytes]

theorem fieldAt_encNat (hv : fitsBytes n v = true) : fieldAt (encNat n v ++ rest) 0 n = v := by
  have hlt : v < 2 ^ (8 * n) := of_decide_eq_true hv
  have hpow : (256 : Nat) ^ n = 2 ^ (8 * n) := by rw [Nat.pow_mul]
  rw [encNat, if_pos hlt, fieldAt_natBytes, hpow, Nat.mod_eq_of_lt hlt]

theorem fieldAt_encNat_last (hv : fitsBytes n v = true) : fieldAt (encNat n v) 0 n = v := by
  simpa using fieldAt_encNat (rest := []) hv

theorem signed_encInt {x : Int} (hn : 0 < n) (hx : fitsSigned n x = true) :
    signed n (fieldAt (encInt n x ++ rest) 0 n) = x := by
  have hrange : -2 ^ (8 * n - 1) ≤ x ∧ x < 2 ^ (8 * n - 1) := by
    simpa only [fitsSigned, Bool.and_eq_true, decide_eq_true_eq] using hx
  have hpow : (256 : Nat) ^ n = 2 ^ (8 * n) := by rw [Nat.pow_mul]
  have hdouble : 2 ^ (8 * n) = 2 * 2 ^ (8 * n - 1) := by
    rw [← Nat.pow_succ']
    congr 1
    omega
  rw [encInt, if_pos hrange, fieldAt_natBytes, hpow, signed, hdouble]
  have hcast : (2 : Int) ^ (8 * n) = 2 * ((2 ^ (8 * n - 1) : Nat) : Int) := by exact_mod_cast hdouble
  have hhalf : (2 : Int) ^ (8 * n - 1) = ((2 ^ (8 * n - 1) : Nat) : Int) := by norm_cast
  rw [hhalf] at hrange
  rw [hcast]
  generalize 2 ^ (8 * n - 1) = half at hrange ⊢
  obtain ⟨hlow, hhigh⟩ := hrange
  rcases Int.lt_or_le x 0 with hneg | hpos
  · have hmod : x % (2 * (half : Int)) = x + 2 * half := by
      rw [← Int.add_emod_right, Int.emod_eq_of_lt (by omega) (by omega)]
    rw [hmod, Nat.mod_eq_of_lt (by omega), if_neg (by omega)]
    omega
  · rw [Int.emod_eq_of_lt hpos (by omega), Nat.mod_eq_of_lt (by omega), if_pos (by omega)]
    omega

theorem signed_encInt_last {x : Int} (hn : 0 < n) (hx : fitsSigned n x = true) : signed n (fieldAt (encInt n x) 0 n) = x := by
  simpa using signed_encInt (rest := []) hn hx

end

/-! ### Frames (R168) -/

theorem check16_fits (bs : List Byte) : bytesNat (natBytes 2 (check16 bs)) = check16 bs := by
  have hlt : check16 bs < 2 ^ 16 := crc_lt 16 4129 bs (by decide)
  rw [bytesNat_natBytes, Nat.mod_eq_of_lt (by simpa using hlt)]

section

variable {cls src kind dst : Nat} {payload : List Byte}

/-- A frame's four header bytes and the rest, each read where it stands. -/
theorem frame_reads (hc : cls ≤ 3) (hsrc : src ≤ 31) (hkind : fitsBytes 1 kind = true) (hdst : fitsBytes 1 dst = true)
    (hlen : payload.length ≤ 64) :
    fieldAt (frame cls src kind dst payload) 0 1 = arbitrationValue cls src
      ∧ fieldAt (frame cls src kind dst payload) 1 1 = kind ∧ fieldAt (frame cls src kind dst payload) 2 1 = dst
      ∧ fieldAt (frame cls src kind dst payload) 3 1 = payload.length
      ∧ ((frame cls src kind dst payload).drop 4).take payload.length = payload := by
  have hvalue : fitsBytes 1 (arbitrationValue cls src) = true := by simp [fitsBytes, arbitrationValue]; omega
  have hsize : fitsBytes 1 payload.length = true := by simp [fitsBytes]; omega
  simp only [frame, sealed16, List.append_assoc]
  refine ⟨fieldAt_encNat hvalue, ?_, ?_, ?_, ?_⟩
  · simp [fieldAt_skip, fieldAt_encNat hkind]
  · simp [fieldAt_skip, fieldAt_encNat hdst]
  · simp [fieldAt_skip, fieldAt_encNat hsize]
  · simp [List.drop_append, List.drop_eq_nil_of_le]

theorem frame_whole (hc : cls ≤ 3) (hsrc : src ≤ 31) (hkind : fitsBytes 1 kind = true) (hdst : fitsBytes 1 dst = true)
    (hlen : payload.length ≤ 64) : wholeTelegram (frame cls src kind dst payload) = true := by
  obtain ⟨-, -, -, hsize, -⟩ := frame_reads hc hsrc hkind hdst hlen
  have hframe : (frame cls src kind dst payload).length = payload.length + 6 := by simp [frame, sealed16]; omega
  have hcheck (bs : List Byte) : check16 ((sealed16 bs).take ((sealed16 bs).length - 2))
      = bytesNat ((sealed16 bs).drop ((sealed16 bs).length - 2)) := by
    have hbody : (sealed16 bs).length - 2 = bs.length := by simp [sealed16]
    rw [hbody, sealed16, List.take_left' rfl, List.drop_left' rfl, check16_fits]
  rw [wholeTelegram, hsize, hframe, ← hframe]
  simp only [decide_true, Bool.and_true, Bool.and_eq_true, decide_eq_true_eq]
  exact ⟨⟨by omega, hlen⟩, hcheck _⟩

theorem decode_frame (hc : cls ≤ 3) (hhead : headerFits src dst = true) (hkind : fitsBytes 1 kind = true)
    (hlen : payload.length ≤ 64) : decodeTelegram (frame cls src kind dst payload)
      = if fits cls kind payload.length then commandOf src kind dst payload else .unknownKind src dst kind := by
  simp only [headerFits, isStation, Bool.and_eq_true, decide_eq_true_eq] at hhead
  obtain ⟨⟨hlow, hsrc⟩, hdst⟩ := hhead
  obtain ⟨hvalue, hk, hd, hsize, hpayload⟩ := frame_reads hc hsrc hkind hdst hlen
  have hsource : arbitrationValue cls src % 128 % 32 = src := by simp only [arbitrationValue]; omega
  have hclass : arbitrationValue cls src % 128 / 32 = cls := by simp only [arbitrationValue]; omega
  rw [decodeTelegram]
  simp only [hvalue, hk, hd, hsize, hpayload, hsource, hclass, frame_whole hc hsrc hkind hdst hlen]
  rw [if_neg (by decide), if_neg (by omega)]

theorem decode_bare (hc : cls ≤ 3) (hhead : headerFits src dst = true) (hkind : fitsBytes 1 kind = true) :
    decodeTelegram (frame cls src kind dst []) = if fits cls kind 0 then commandOf src kind dst []
      else .unknownKind src dst kind := decode_frame hc hhead hkind (by decide)

theorem decode_order {command arg litres : Nat} (hfits : orderFits src dst arg litres = true)
    (hcommand : fitsBytes 1 command = true) :
    decodeTelegram (orderBytes src dst command arg litres) = orderOf src dst command arg litres := by
  simp only [orderFits, Bool.and_eq_true] at hfits
  obtain ⟨⟨hhead, harg⟩, hlitres⟩ := hfits
  rw [orderBytes, decode_frame (by decide) hhead (by decide) (by simp)]
  simp [fits, fixedClass, fixedLength, commandOf, fieldAt_skip, fieldAt_encNat hcommand, fieldAt_encNat harg,
    fieldAt_encNat_last hlitres]

theorem decode_time {day second : Nat} (hhead : headerFits src dst = true) (hday : fitsBytes 2 day = true)
    (hsecond : fitsBytes 4 second = true) :
    decodeTelegram (frame 1 src 1 dst (encNat 2 day ++ encNat 4 second)) = .time src dst day second := by
  rw [decode_frame (by decide) hhead (by decide) (by simp)]
  simp [fits, fixedClass, fixedLength, commandOf, fieldAt_skip, fieldAt_encNat hday, fieldAt_encNat_last hsecond]

theorem decode_noms {slot day hour : Nat} {rate : Int} (hhead : headerFits src dst = true) (hslot : fitsBytes 1 slot = true)
    (hday : fitsBytes 2 day = true) (hhour : fitsBytes 1 hour = true) (hrate : fitsSigned 4 rate = true) :
    decodeTelegram (frame 1 src 2 dst (encNat 1 slot ++ encNat 2 day ++ encNat 1 hour ++ encInt 4 rate))
      = .noms src dst slot day hour rate := by
  rw [decode_frame (by decide) hhead (by decide) (by simp)]
  simp [fits, fixedClass, fixedLength, commandOf, fieldAt_skip, fieldAt_encNat hslot, fieldAt_encNat hday,
    fieldAt_encNat hhour, signed_encInt_last (by decide) hrate]

theorem decode_offer {dir offer share target mode unit : Nat} (hhead : headerFits src dst = true)
    (hdir : fitsBytes 1 dir = true) (hoffer : fitsBytes 4 offer = true) (hshare : fitsBytes 4 share = true)
    (htarget : fitsBytes 5 target = true) (hmode : fitsBytes 1 mode = true) (hunit : fitsBytes 1 unit = true) :
    decodeTelegram (frame 1 src 3 dst (encNat 1 dir ++ encNat 4 offer ++ encNat 4 share ++ encNat 5 target
      ++ encNat 1 mode ++ encNat 1 unit)) = .offer src dst dir offer share target mode unit := by
  rw [decode_frame (by decide) hhead (by decide) (by simp)]
  simp [fits, fixedClass, fixedLength, commandOf, fieldAt_skip, fieldAt_encNat hdir, fieldAt_encNat hoffer,
    fieldAt_encNat hshare, fieldAt_encNat htarget, fieldAt_encNat hmode, fieldAt_encNat_last hunit]

theorem decode_halt {reason : Nat} (hhead : headerFits src dst = true) (hreason : fitsBytes 1 reason = true) :
    decodeTelegram (frame 0 src 8 dst (encNat 1 reason)) = .halt src dst reason := by
  rw [decode_frame (by decide) hhead (by decide) (by simp)]
  simp [fits, fixedClass, fixedLength, commandOf, fieldAt_encNat_last hreason]

/-- Signed fields of one width, one behind the other, each read at its place. -/
theorem fieldAt_flatMap {n i : Nat} (hn : 0 < n) {l : List Int} (hfits : ∀ x ∈ l, fitsSigned n x = true) (hi : i < l.length) :
    signed n (fieldAt (l.flatMap (encInt n)) (n * i) n) = l.getD i 0 := by
  induction l generalizing i with
  | nil => simp at hi
  | cons x l ih =>
    rw [List.flatMap_cons]
    cases i with
    | zero => exact signed_encInt hn (hfits x List.mem_cons_self)
    | succ i =>
      rw [fieldAt_skip (by rw [length_encInt]; exact Nat.le_mul_of_pos_right n (Nat.succ_pos i)), length_encInt,
        Nat.mul_succ, Nat.add_sub_cancel, List.getD_cons_succ]
      exact ih (fun y hy => hfits y (List.mem_cons_of_mem _ hy)) (by simpa using hi)


theorem decode_invt {half day hour : Nat} {inventories : List Int} (hhead : headerFits src dst = true)
    (hhalf : fitsBytes 1 half = true) (hday : fitsBytes 2 day = true) (hhour : fitsBytes 1 hour = true)
    (hlen : inventories.length = 8) (hfits : ∀ x ∈ inventories, fitsSigned 6 x = true) :
    decodeTelegram (frame 2 src 10 dst (encNat 1 half ++ encNat 2 day ++ encNat 1 hour ++ inventories.flatMap (encInt 6)))
      = .invt src dst half day hour inventories := by
  have hread : (List.range 8).map (fun i => signed 6 (fieldAt (inventories.flatMap (encInt 6)) (6 * i) 6)) = inventories := by
    refine List.ext_getElem (by simp [hlen]) fun i hi _ => ?_
    have hi8 : i < inventories.length := by simpa [hlen] using hi
    rw [List.getElem_map, List.getElem_range, fieldAt_flatMap (by decide) hfits hi8, List.getD_eq_getElem _ _ hi8]
  rw [decode_frame (by decide) hhead (by decide) (by simp [hlen])]
  have hsize : fits 2 10 (encNat 1 half ++ encNat 2 day ++ encNat 1 hour ++ inventories.flatMap (encInt 6)).length = true := by
    simp [fits, fixedClass, fixedLength, hlen]
  have hplace (i : Nat) : 4 + 6 * i - 1 - 2 - 1 = 6 * i := by omega
  have hskip (i : Nat) : fieldAt (encNat 1 half ++ (encNat 2 day ++ (encNat 1 hour ++ inventories.flatMap (encInt 6))))
      (4 + 6 * i) 6 = fieldAt (inventories.flatMap (encInt 6)) (6 * i) 6 := by
    rw [fieldAt_skip (by simp; omega), fieldAt_skip (by simp; omega), fieldAt_skip (by simp; omega)]
    simp only [length_encNat, hplace]
  rw [if_pos hsize]
  simp only [commandOf, List.append_assoc, hskip, hread]
  simp [fieldAt_skip, fieldAt_encNat hhalf, fieldAt_encNat hday, fieldAt_encNat hhour]

theorem decode_unknownKind (hhead : headerFits src dst = true) (hkind : fitsBytes 1 kind = true) :
    decodeTelegram (frame (if kind = 11 then 0 else 3) src kind dst []) = .unknownKind src dst kind := by
  rw [decode_bare (by split <;> decide) hhead hkind]
  refine if_neg fun hfits => ?_
  rw [fits, Bool.and_eq_true, decide_eq_true_eq] at hfits
  obtain ⟨hclass, -⟩ := hfits
  split at hclass
  · next h => subst h; cases hclass
  · next h =>
    unfold fixedClass at hclass
    split at hclass <;> simp at hclass h

/-- Decoding a well-formed telegram's bytes gives the command that they were encoded from (R168). -/
theorem decodeTelegram_encode {c : Instr} {bytes : List Byte} (hwf : c.wellFormed = true)
    (henc : encodeTelegram c = some bytes) : decodeTelegram bytes = c := by
  cases c <;> simp only [encodeTelegram, reduceCtorEq, Option.some.injEq] at henc
    <;> simp only [Instr.wellFormed, Bool.and_eq_true] at hwf <;> subst henc
  case time =>
    obtain ⟨⟨hhead, hday⟩, hsecond⟩ := hwf
    exact decode_time hhead hday hsecond
  case noms =>
    obtain ⟨⟨⟨⟨hhead, hslot⟩, hday⟩, hhour⟩, hrate⟩ := hwf
    exact decode_noms hhead hslot hday hhour hrate
  case offer =>
    obtain ⟨⟨⟨⟨⟨⟨hhead, hdir⟩, hoffer⟩, hshare⟩, htarget⟩, hmode⟩, hunit⟩ := hwf
    exact decode_offer hhead hdir hoffer hshare htarget hmode hunit
  case invt =>
    obtain ⟨⟨⟨⟨⟨hhead, hhalf⟩, hday⟩, hhour⟩, hlen⟩, hfits⟩ := hwf
    exact decode_invt hhead hhalf hday hhour (of_decide_eq_true hlen) (List.all_eq_true.mp hfits)
  case halt => exact decode_halt hwf.1 hwf.2
  case join => exact decode_bare (by decide) hwf (by decide)
  case claim => exact decode_bare (by decide) hwf (by decide)
  case cede => exact decode_bare (by decide) hwf (by decide)
  case resume => exact decode_bare (by decide) hwf (by decide)
  case report => exact decode_bare (by decide) hwf (by decide)
  case unknownKind => exact decode_unknownKind hwf.1 hwf.2
  case orderShut => exact decode_order hwf (by decide)
  case orderRelease => exact decode_order hwf (by decide)
  case orderUnlock => exact decode_order hwf (by decide)
  case orderBedOut => exact decode_order hwf (by decide)
  case orderBedIn => exact decode_order hwf (by decide)
  case orderAccept => exact decode_order hwf (by decide)
  case orderCorrect => exact decode_order hwf (by decide)
  case orderClear => exact decode_order hwf (by decide)
  case orderRestart => exact decode_order hwf (by decide)
  case orderUnknownCommand =>
    obtain ⟨⟨hfits, hcommand⟩, hother⟩ := hwf
    rw [decode_order hfits hcommand]
    simp only [Bool.or_eq_true, decide_eq_true_eq] at hother
    unfold orderOf
    split <;> simp at hother ⊢

end

/-! ### The part's own bits (R145) -/

theorem receivedLine_lineBits {s : State} {l : List Bool} (hl : lineBits s = some l) : receivedLine s l = .echoIntact := by
  obtain ⟨sent, hsent, rfl⟩ := Option.map_eq_some_iff.mp hl
  rw [receivedLine_lineOf, receivedCommand, hsent]
  exact if_pos rfl

theorem receivedCommand_other {s : State} {sent bs : List Byte} (hsent : sentBytes s = some sent) (hbs : bs ≠ sent) :
    receivedCommand s bs = if wholeTelegram bs = true ∧ fieldAt bs 0 1 % 32 = s.station then .dupStation (fieldAt bs 1 1)
      else .echoMismatch := by
  rw [receivedCommand, hsent]
  exact if_neg hbs

/-! ### The SAMPLE (R169) -/

theorem marksNat_cons (b : Bool) (l : List Bool) : marksNat (b :: l) = b.toNat + 2 * marksNat l := rfl

theorem testBit_marksNat (l : List Bool) (i : Nat) : (marksNat l).testBit i = l.getD i false := by
  induction l generalizing i with
  | nil => exact Nat.zero_testBit i
  | cons b l ih =>
    rw [marksNat_cons]
    cases i with
    | zero =>
      rw [Nat.testBit_zero, List.getD_cons_zero]
      cases b <;> simp
    | succ i =>
      rw [Nat.testBit_succ, List.getD_cons_succ, ← ih]
      congr 1
      cases b <;> simp only [Bool.toNat_true, Bool.toNat_false] <;> omega

theorem marksNat_lt (l : List Bool) : marksNat l < 2 ^ l.length := by
  induction l with
  | nil => exact Nat.one_pos
  | cons b l ih =>
    rw [marksNat_cons, List.length_cons, Nat.pow_succ]
    have := b.toNat_le
    omega

theorem sum_bits (l : List Bool) (k : Nat) :
    ((l.zipIdx k).map (fun (on, bit) => if on then 2 ^ bit else 0)).sum = 2 ^ k * marksNat l := by
  induction l generalizing k with
  | nil => rfl
  | cons b l ih =>
    rw [List.zipIdx_cons, List.map_cons, List.sum_cons, ih, marksNat_cons, Nat.pow_succ]
    cases b <;> simp <;> ring

/-- The marks of a SAMPLE's fields, in the order of the validity word's bits. -/
def Sample.marks (p : Sample) : List Bool :=
  [p.meter.isSome, p.cv.isSome, p.wellhead.isSome, p.wellheadTemp.isSome, p.header.isSome,
    p.feedback.isSome, p.suction.isSome, p.discharge.isSome, p.compFuel.isSome, p.heaterFuel.isSome,
    p.inletPressure.isSome, p.inletTemp.isSome, p.bedATemp.isSome, p.bedBTemp.isSome, p.dewPoint.isSome,
    p.lineup.isSome]

theorem validityOf_eq (p : Sample) : validityOf p = marksNat p.marks := by
  rw [validityOf, Sample.marks, sum_bits, Nat.pow_zero, Nat.one_mul]

theorem validityOf_fits (p : Sample) : fitsBytes 2 (validityOf p) = true := by
  rw [validityOf_eq]
  exact decide_eq_true (marksNat_lt p.marks)

theorem measured_getD {α : Type} {p : Sample} {bit : Nat} {o : Option α} {x d : α} (hbit : p.marks.getD bit false = o.isSome)
    (hx : x = o.getD d) : measured (validityOf p) bit x = o := by
  rw [measured, validityOf_eq, testBit_marksNat, hbit, hx]
  cases o <;> rfl

theorem fits_getD {n : Nat} {o : Option Nat} (ho : o.all (fitsBytes n) = true) : fitsBytes n (o.getD 0) = true := by
  cases o with
  | none => exact decide_eq_true (Nat.two_pow_pos _)
  | some x => exact ho

theorem fitsSigned_getD {n : Nat} {o : Option Int} (ho : o.all (fitsSigned n) = true) : fitsSigned n (o.getD 0) = true := by
  cases o with
  | none =>
    have hpos : (0 : Int) < 2 ^ (8 * n - 1) := Int.pow_pos (by decide)
    simp only [fitsSigned, Option.getD_none, Bool.and_eq_true, decide_eq_true_eq]
    omega
  | some x => exact ho

/-- The fields of a SAMPLE record, from the sequence number to the lineup feedback. -/
def Sample.fieldBytes (p : Sample) : List Byte :=
  encNat 1 p.sequence ++ (encNat 1 p.totalizerReset.toNat
    ++ (encNat 2 (validityOf p) ++ (encNat 4 (p.meter.getD 0) ++ (encNat 4 (p.cv.getD 0) ++ (encNat 2 (p.wellhead.getD 0)
    ++ (encInt 2 (p.wellheadTemp.getD 0) ++ (encNat 2 (p.header.getD 0)
    ++ (encNat 1 ((p.feedback.map feedbackCode).getD 0) ++ (encNat 2 (p.suction.getD 0) ++ (encNat 2 (p.discharge.getD 0)
    ++ (encNat 4 (p.compFuel.getD 0) ++ (encNat 4 (p.heaterFuel.getD 0) ++ (encNat 2 (p.inletPressure.getD 0)
    ++ (encInt 2 (p.inletTemp.getD 0) ++ (encInt 2 (p.bedATemp.getD 0) ++ (encInt 2 (p.bedBTemp.getD 0)
    ++ (encInt 2 (p.dewPoint.getD 0) ++ encNat 1 ((p.lineup.map lineupCode).getD 0))))))))))))))))))

theorem encodeSample_eq (p : Sample) : encodeSample p = sealed16 (encNat 1 1 ++ (encNat 1 42 ++ p.fieldBytes)) := by
  simp only [encodeSample, Sample.fieldBytes, List.append_assoc]

theorem Sample.fieldBytes_length (p : Sample) : p.fieldBytes.length = 42 := by simp [Sample.fieldBytes]

/-- The record's frame is the one of a SAMPLE, whatever its fields. -/
theorem decodeField_encode (p : Sample) : decodeField (encodeSample p) = .sample (some (sampleOf p.fieldBytes)) := by
  have hlen := p.fieldBytes_length
  have hbody : (encNat 1 1 ++ (encNat 1 42 ++ p.fieldBytes)).length = 44 := by simp [hlen]
  rw [encodeSample_eq, decodeField, if_pos]
  · have hfields : ((sealed16 (encNat 1 1 ++ (encNat 1 42 ++ p.fieldBytes))).drop 2).take 42 = p.fieldBytes := by
      simp [sealed16, List.drop_append, List.drop_eq_nil_of_le, hlen]
    rw [hfields]
  · refine ⟨by simp [sealed16, hlen], ?_, ?_, ?_⟩
    · rw [sealed16, List.append_assoc]
      exact fieldAt_encNat (by decide)
    · rw [sealed16, List.append_assoc, List.append_assoc, fieldAt_skip (by simp)]
      exact fieldAt_encNat (by decide)
    · rw [sealed16, List.take_left' hbody, List.drop_left' hbody, check16_fits]

theorem feedback_reads {p : Sample} {x : Nat} (hx : x = (p.feedback.map feedbackCode).getD 0) :
    (measured (validityOf p) 5 x).bind feedbackOfCode = p.feedback := by
  rw [measured_getD (o := p.feedback.map feedbackCode) (by rw [Option.isSome_map]; rfl) hx]
  rcases p.feedback with - | f
  · rfl
  · cases f <;> rfl

theorem lineup_reads {p : Sample} {x : Nat} (hx : x = (p.lineup.map lineupCode).getD 0) :
    (measured (validityOf p) 15 x).bind lineupOfCode = p.lineup := by
  rw [measured_getD (o := p.lineup.map lineupCode) (by rw [Option.isSome_map]; rfl) hx]
  rcases p.lineup with - | f
  · rfl
  · cases f <;> rfl

theorem feedbackCode_fits (o : Option Feedback) : fitsBytes 1 ((o.map feedbackCode).getD 0) = true := by
  rcases o with - | f
  · rfl
  · cases f <;> rfl

theorem lineupCode_fits (o : Option Lineup) : fitsBytes 1 ((o.map lineupCode).getD 0) = true := by
  rcases o with - | f
  · rfl
  · cases f <;> rfl

theorem reset_fits (b : Bool) : fitsBytes 1 b.toNat = true := by cases b <;> rfl

/-- Each field of a SAMPLE's bytes is read as it was written. -/
theorem sampleOf_fieldBytes {p : Sample} (hwf : p.wellFormed = true) : sampleOf p.fieldBytes = p := by
  simp only [Sample.wellFormed, Bool.and_eq_true] at hwf
  obtain ⟨⟨⟨⟨⟨⟨⟨⟨⟨⟨⟨⟨⟨⟨hseq, hmeter⟩, hcv⟩, hwell⟩, hwellT⟩, hheader⟩, hsuction⟩, hdischarge⟩, hcomp⟩, hheater⟩, hinlet⟩, hinletT⟩,
    hbedA⟩, hbedB⟩, hdew⟩ := hwf
  have hvalidity : fieldAt p.fieldBytes 2 2 = validityOf p := by
    simp [Sample.fieldBytes, fieldAt_skip, fieldAt_encNat (validityOf_fits p)]
  have hsequence : fieldAt p.fieldBytes 0 1 = p.sequence := fieldAt_encNat hseq
  have hreset : (fieldAt p.fieldBytes 1 1).testBit 0 = p.totalizerReset := by
    have hread : fieldAt p.fieldBytes 1 1 = p.totalizerReset.toNat := by
      simp [Sample.fieldBytes, fieldAt_skip, fieldAt_encNat (reset_fits p.totalizerReset)]
    rw [hread]
    cases p.totalizerReset <;> rfl
  have read_meter : measured (validityOf p) 0 (fieldAt p.fieldBytes 4 4) = p.meter :=
    measured_getD (d := 0) rfl (by simp [Sample.fieldBytes, fieldAt_skip, fieldAt_encNat (fits_getD hmeter)])
  have read_cv : measured (validityOf p) 1 (fieldAt p.fieldBytes 8 4) = p.cv :=
    measured_getD (d := 0) rfl (by simp [Sample.fieldBytes, fieldAt_skip, fieldAt_encNat (fits_getD hcv)])
  have read_wellhead : measured (validityOf p) 2 (fieldAt p.fieldBytes 12 2) = p.wellhead :=
    measured_getD (d := 0) rfl (by simp [Sample.fieldBytes, fieldAt_skip, fieldAt_encNat (fits_getD hwell)])
  have read_wellheadTemp : measured (validityOf p) 3 (signed 2 (fieldAt p.fieldBytes 14 2)) = p.wellheadTemp :=
    measured_getD (d := 0) rfl (by simp [Sample.fieldBytes, fieldAt_skip, signed_encInt (by decide) (fitsSigned_getD hwellT)])
  have read_header : measured (validityOf p) 4 (fieldAt p.fieldBytes 16 2) = p.header :=
    measured_getD (d := 0) rfl (by simp [Sample.fieldBytes, fieldAt_skip, fieldAt_encNat (fits_getD hheader)])
  have read_suction : measured (validityOf p) 6 (fieldAt p.fieldBytes 19 2) = p.suction :=
    measured_getD (d := 0) rfl (by simp [Sample.fieldBytes, fieldAt_skip, fieldAt_encNat (fits_getD hsuction)])
  have read_discharge : measured (validityOf p) 7 (fieldAt p.fieldBytes 21 2) = p.discharge :=
    measured_getD (d := 0) rfl (by simp [Sample.fieldBytes, fieldAt_skip, fieldAt_encNat (fits_getD hdischarge)])
  have read_compFuel : measured (validityOf p) 8 (fieldAt p.fieldBytes 23 4) = p.compFuel :=
    measured_getD (d := 0) rfl (by simp [Sample.fieldBytes, fieldAt_skip, fieldAt_encNat (fits_getD hcomp)])
  have read_heaterFuel : measured (validityOf p) 9 (fieldAt p.fieldBytes 27 4) = p.heaterFuel :=
    measured_getD (d := 0) rfl (by simp [Sample.fieldBytes, fieldAt_skip, fieldAt_encNat (fits_getD hheater)])
  have read_inletPressure : measured (validityOf p) 10 (fieldAt p.fieldBytes 31 2) = p.inletPressure :=
    measured_getD (d := 0) rfl (by simp [Sample.fieldBytes, fieldAt_skip, fieldAt_encNat (fits_getD hinlet)])
  have read_inletTemp : measured (validityOf p) 11 (signed 2 (fieldAt p.fieldBytes 33 2)) = p.inletTemp :=
    measured_getD (d := 0) rfl (by simp [Sample.fieldBytes, fieldAt_skip, signed_encInt (by decide) (fitsSigned_getD hinletT)])
  have read_bedATemp : measured (validityOf p) 12 (signed 2 (fieldAt p.fieldBytes 35 2)) = p.bedATemp :=
    measured_getD (d := 0) rfl (by simp [Sample.fieldBytes, fieldAt_skip, signed_encInt (by decide) (fitsSigned_getD hbedA)])
  have read_bedBTemp : measured (validityOf p) 13 (signed 2 (fieldAt p.fieldBytes 37 2)) = p.bedBTemp :=
    measured_getD (d := 0) rfl (by simp [Sample.fieldBytes, fieldAt_skip, signed_encInt (by decide) (fitsSigned_getD hbedB)])
  have read_dewPoint : measured (validityOf p) 14 (signed 2 (fieldAt p.fieldBytes 39 2)) = p.dewPoint :=
    measured_getD (d := 0) rfl (by simp [Sample.fieldBytes, fieldAt_skip, signed_encInt (by decide) (fitsSigned_getD hdew)])
  have read_feedback : fieldAt p.fieldBytes 18 1 = (p.feedback.map feedbackCode).getD 0 := by
    simp [Sample.fieldBytes, fieldAt_skip, fieldAt_encNat (feedbackCode_fits p.feedback)]
  have read_lineup : fieldAt p.fieldBytes 41 1 = (p.lineup.map lineupCode).getD 0 := by
    simp [Sample.fieldBytes, fieldAt_skip, fieldAt_encNat_last (lineupCode_fits p.lineup)]
  rw [sampleOf, hvalidity, hsequence, hreset, feedback_reads read_feedback, lineup_reads read_lineup]
  rw [read_meter, read_cv, read_wellhead, read_wellheadTemp, read_header, read_suction, read_discharge, read_compFuel,
    read_heaterFuel, read_inletPressure, read_inletTemp, read_bedATemp, read_bedBTemp, read_dewPoint]

/-- Settles O54, by the reading of each field at its place, the frame's header and the line's stuffing. -/
theorem formatsAgree : Obligations.FormatsAgree := by
  unfold Obligations.FormatsAgree
  refine ⟨fun c bytes hwf henc => ?_, fun p hwf => ?_, fun s l hl => receivedLine_lineBits hl, fun s sent bs hsent hbs => ?_,
    fun s bs hnone => ?_⟩
  · have hdecode := decodeTelegram_encode hwf henc
    exact ⟨hdecode, (decodeLine_lineOf bytes).trans hdecode⟩
  · rw [decodeField_encode, sampleOf_fieldBytes hwf]
  · rw [receivedCommand_other hsent hbs]
    exact ⟨by split <;> simp, fun hwhole hsource => if_pos ⟨hwhole, hsource⟩⟩
  · rw [receivedCommand, hnone]

end Sys2Proof
end


section
/-! PROOFS. The steps of the dryer's minute work (R108 to R120), one after the other: what each makes of the two beds, of
DEW_HIGH, of the inventories and the hour sum, and what it raises. -/

namespace Sys2Proof.Machine

open Sys2Proof (Bed Flow)

variable {s : State} {r : Interval} {bed x : Bed} {c : Cond}


/-! ### Water (R109, R110) -/

/-- A bed's record as the water of the interval leaves it. -/
def watered (s : State) (r : Interval) (b : BedRecord) : BedRecord :=
  if b.state = .adsorbing ∧ withdrawalInterval s r = true ∧ 0 < r.volume then addWater r.volume (intervalWater s r) b else b

theorem withdrawal_interval (s : State) (r : Interval) :
    (match intervalDirection s.train.mode s.train.lastFlow r.volume with
      | some (.withdraw, _) => true
      | _ => false) = withdrawalInterval s r := by
  unfold withdrawalInterval
  by_cases hi : s.train.mode = .inject
  · have hdir : intervalDirection s.train.mode s.train.lastFlow r.volume = some (.inject, false) := by
      rw [hi]
      exact intervalDirection_flow (f := .inject) _
    rw [hdir]
    simp [hi]
  · by_cases hw : s.train.mode = .withdraw
    · have hdir : intervalDirection s.train.mode s.train.lastFlow r.volume = some (.withdraw, false) := by
        rw [hw]
        exact intervalDirection_flow (f := .withdraw) _
      rw [hdir]
      simp [hw]
    · rcases Nat.eq_zero_or_pos r.volume with hv | hv
      · rw [hv, intervalDirection_none hi hw]
        simp [hw]
      · rw [intervalDirection_calm hi hw _ hv]
        rcases hl : s.train.lastFlow with - | f
        · simp [hw]
        · cases f <;> simp [hi, hw, hv]

theorem adsorbing_iff {d : Dryer} (hd : d.sound) : d.adsorbing = some x ↔ (d.bed x).state = .adsorbing := by
  refine ⟨Dryer.adsorbing_eq_some, fun hx => adsorbing_eq_of_alone hx fun hother => ?_⟩
  exact ((Dryer.sound_iff _).mp hd x).1 ⟨hx, hother⟩

theorem dryerWater_bed (hd : s.dryer.sound) (x : Bed) :
    (dryerWater (withdrawalInterval s r) r s).dryer.bed x = watered s r (s.dryer.bed x) := by
  unfold dryerWater watered
  cases ha : s.dryer.adsorbing with
  | none => rw [if_neg fun h => Dryer.adsorbing_eq_none.mp ha x h.1]
  | some bed =>
    have hbed : (s.dryer.bed x).state = .adsorbing ↔ x = bed := by
      rw [← adsorbing_iff hd, ha]
      simp [eq_comm]
    by_cases hw : withdrawalInterval s r = true ∧ 0 < r.volume
    · obtain rfl | rfl := bed_eq_or_other bed x <;> simp [hbed, hw]
    · simp [hw]

theorem dryerWater_rest (b : Bool) : (dryerWater b r s).dryer.dewHigh = s.dryer.dewHigh
    ∧ (dryerWater b r s).dryer.idleCarry = s.dryer.idleCarry ∧ (dryerWater b r s).dryer.dryBlock = s.dryer.dryBlock := by
  unfold dryerWater
  split <;> (try split) <;> simp

/-! ### Heater fuel (R113, R115) -/

/-- A bed's record as the heater's fuel leaves it. -/
def heated (r : Interval) (b : BedRecord) : BedRecord :=
  if b.state = .heating then { b with accumulator := b.accumulator + r.heaterWh } else b

theorem heating_eq_none {d : Dryer} : d.heating = none ↔ ∀ x, (d.bed x).state ≠ .heating := by
  have hbeds : (∀ x, (d.bed x).state ≠ .heating) ↔ d.bedA.state ≠ .heating ∧ d.bedB.state ≠ .heating :=
    ⟨fun h => ⟨h .a, h .b⟩, fun h x => by cases x; exacts [h.1, h.2]⟩
  rw [hbeds]
  unfold Dryer.heating
  split
  · next ha => simp [ha]
  · next ha => split <;> simp_all

theorem heating_iff (hd : s.dryer.sound) : s.dryer.heating = some x ↔ (s.dryer.bed x).state = .heating := by
  refine ⟨Dryer.heating_eq_some, fun hx => ?_⟩
  cases hh : s.dryer.heating with
  | none => exact absurd hx (heating_eq_none.mp hh x)
  | some bed =>
    obtain rfl | rfl := bed_eq_or_other bed x
    · rfl
    · exact absurd ⟨Dryer.heating_eq_some hh, hx⟩ ((Dryer.sound_iff _).mp hd bed).2

/-- The heater fuel of an interval without a HEATING bed, in litres. -/
def State.idleFuel (s : State) (r : Interval) : Nat :=
  if s.dryer.heating = none then (r.heaterWh + s.dryer.idleCarry) / 1000 else 0

theorem dryerFuel_some (hh : s.dryer.heating = some bed) : dryerFuel r s
    = s.onDryer (fun d => d.onBed bed (fun b => { b with accumulator := b.accumulator + r.heaterWh })) := by
  unfold dryerFuel
  rw [hh]

/-- A slots list and two passage lists of their lengths. -/
def State.stocked (s : State) : Prop := s.acct.slots.length = 17 ∧ ∀ x, (s.dryer.bed x).passage.length = 17

theorem dryerFuel_none (hh : s.dryer.heating = none) : dryerFuel r s
    = if s.idleFuel r = 0 then s.onDryer (fun d => { d with idleCarry := (r.heaterWh + s.dryer.idleCarry) % 1000 })
      else bookRegeneration none (s.idleFuel r)
        (s.onDryer (fun d => { d with idleCarry := (r.heaterWh + s.dryer.idleCarry) % 1000 })) := by
  unfold dryerFuel State.idleFuel
  rw [hh]
  simp

theorem bookRegeneration_none_dryer (g : Nat) : (bookRegeneration none g s).dryer = s.dryer := by simp [bookRegeneration]

theorem dryerFuel_bed (hd : s.dryer.sound) (x : Bed) : (dryerFuel r s).dryer.bed x = heated r (s.dryer.bed x) := by
  unfold heated
  cases hh : s.dryer.heating with
  | none =>
    have hbeds (i : Nat) : ({ s.dryer with idleCarry := i } : Dryer).bed x = s.dryer.bed x := by cases x <;> rfl
    rw [if_neg (heating_eq_none.mp hh x), dryerFuel_none hh]
    split
    · exact hbeds _
    · rw [bookRegeneration_none_dryer]
      exact hbeds _
  | some bed =>
    rw [dryerFuel_some hh]
    have hbed : (s.dryer.bed x).state = .heating ↔ x = bed := by
      rw [← heating_iff hd, hh]
      simp [eq_comm]
    obtain rfl | rfl := bed_eq_or_other bed x <;> simp [hbed]

theorem dryerFuel_rest : (dryerFuel r s).dryer.dewHigh = s.dryer.dewHigh ∧ (dryerFuel r s).dryer.dryBlock = s.dryer.dryBlock
    ∧ (dryerFuel r s).dryer.idleCarry = (if s.dryer.heating = none then (r.heaterWh + s.dryer.idleCarry) % 1000
      else s.dryer.idleCarry) ∧ (dryerFuel r s).mon.sumHeater = s.mon.sumHeater + s.idleFuel r := by
  cases hh : s.dryer.heating with
  | none =>
    rw [dryerFuel_none hh]
    split
    · next h => simp [h]
    · simp [bookRegeneration_none_dryer, bookRegeneration_sumHeater]
  | some bed =>
    rw [dryerFuel_some hh]
    simp [State.idleFuel, hh]

theorem bookFuel_sized {k : FuelKind} {n : Nat} {w : List Nat} (hm : s.mon.sized) : (bookFuel k n w s).mon.sized := by
  unfold bookFuel
  dsimp only
  split
  · exact hm
  · exact raise_sized hm

theorem bookRegeneration_sized {o : Option Bed} {g : Nat} (hm : s.mon.sized) : (bookRegeneration o g s).mon.sized := by
  cases o <;> exact bookFuel_sized hm

theorem bookRegeneration_reading (hc : c ≠ .fuelShortfall) (hx : c ≠ .txDrop) (o : Option Bed) (g : Nat) :
    (bookRegeneration o g s).mon.reading c = s.mon.reading c := by
  cases o <;> exact bookFuel_reading hc hx _ _ _

/-- A charge moves the sum by its litres, and keeps the lists at their lengths (R50). -/
theorem bookRegeneration_stocked (hs : s.stocked) (o : Option Bed) (g : Nat) : (bookRegeneration o g s).stocked
    ∧ (bookRegeneration o g s).inventories.sum = s.inventories.sum - g := by
  obtain ⟨hslots, hpassage⟩ := hs
  have hlen (w : List Nat) (hw : w.length = 17) : (bookFuel .regeneration g w s).acct.slots.length = 17 := by
    rw [bookFuel_slots, deductCharges_length ((apportion_length_17 hw).trans hslots.symm), hslots]
  cases o with
  | none =>
    refine ⟨⟨hlen _ List.length_replicate, fun x => ?_⟩, bookFuel_sum hslots List.length_replicate⟩
    rw [bookRegeneration_none_dryer]
    exact hpassage x
  | some bed =>
    refine ⟨⟨hlen _ (hpassage bed), fun x => ?_⟩, bookFuel_sum hslots (hpassage bed)⟩
    rw [bookRegeneration_dryer]
    obtain rfl | rfl := bed_eq_or_other bed x <;> simp [hpassage]

theorem dryerFuel_stocked (hd : s.dryer.sound) (hs : s.stocked) : (dryerFuel r s).stocked
    ∧ (dryerFuel r s).inventories.sum = s.inventories.sum - s.idleFuel r := by
  have hpassage (x : Bed) : ((dryerFuel r s).dryer.bed x).passage.length = 17 := by
    rw [dryerFuel_bed hd, heated]
    split <;> exact hs.2 x
  cases hh : s.dryer.heating with
  | none =>
    have hplain : (s.onDryer (fun d => { d with idleCarry := (r.heaterWh + s.dryer.idleCarry) % 1000 })).stocked :=
      ⟨hs.1, fun x => by rw [← hs.2 x]; cases x <;> rfl⟩
    rw [dryerFuel_none hh]
    split
    · next h => exact ⟨hplain, by rw [h]; exact (Int.sub_zero _).symm⟩
    · exact bookRegeneration_stocked hplain none _
  | some bed =>
    refine ⟨⟨?_, hpassage⟩, ?_⟩
    · rw [dryerFuel_some hh]
      exact hs.1
    · rw [dryerFuel_some hh, State.idleFuel, hh]
      exact (Int.sub_zero _).symm

theorem dryerFuel_reading (hc : c ≠ .fuelShortfall) (hx : c ≠ .txDrop) :
    (dryerFuel r s).mon.reading c = s.mon.reading c := by
  cases hh : s.dryer.heating with
  | none =>
    rw [dryerFuel_none hh]
    split
    · rfl
    · exact bookRegeneration_reading hc hx _ _
  | some bed => rw [dryerFuel_some hh, State.onDryer_mon]

theorem dryerFuel_sized (hm : s.mon.sized) : (dryerFuel r s).mon.sized := by
  cases hh : s.dryer.heating with
  | none =>
    rw [dryerFuel_none hh]
    split
    · exact hm
    · exact bookRegeneration_sized hm
  | some bed =>
    rw [dryerFuel_some hh]
    exact hm

/-! ### The dew point (R118) -/

theorem dryerDew_raises (h : s.dryer.dewHigh = false ∧ dewAfter s r = true) : ∃ v, dryerDew (withdrawalInterval s r) r s
    = raise .dewHigh 0 v (s.onDryer (fun d => { d with dewHigh := true })) := by
  obtain ⟨hlow, hafter⟩ := h
  unfold dewAfter at hafter
  dsimp only at hafter
  have hw : withdrawalInterval s r = true := by
    cases hw : withdrawalInterval s r
    · rw [if_pos hw, hlow] at hafter
      cases hafter
    · rfl
  rw [if_neg (by rw [hw]; decide), if_neg (by rw [hlow]; decide), decide_eq_true_eq] at hafter
  unfold dryerDew
  dsimp only
  rw [if_neg (by rw [hw]; decide), if_neg (by rw [hlow]; decide), if_pos hafter]
  exact ⟨_, rfl⟩

theorem dryerDew_keeps (h : ¬ (s.dryer.dewHigh = false ∧ dewAfter s r = true)) : dryerDew (withdrawalInterval s r) r s
    = s.onDryer (fun d => { d with dewHigh := dewAfter s r }) := by
  have hsame : s = s.onDryer (fun d => { d with dewHigh := s.dryer.dewHigh }) := rfl
  unfold dewAfter at h ⊢
  unfold dryerDew
  dsimp only at h ⊢
  by_cases hw : withdrawalInterval s r = false
  · rw [if_pos hw, if_pos hw]
    exact hsame
  · rw [if_neg hw] at h
    rw [if_neg hw, if_neg hw]
    by_cases hhigh : s.dryer.dewHigh = true
    · rw [if_pos hhigh, if_pos hhigh]
      split
      · next hle => rw [decide_eq_false (by omega)]
      · next hgt =>
        rw [decide_eq_true (by omega), ← hhigh]
        exact hsame
    · rw [if_neg hhigh] at h
      have hclear : s.dryer.dewHigh = false := by simpa using hhigh
      rw [if_neg hhigh, if_neg hhigh]
      split
      · next hle => exact absurd ⟨hclear, decide_eq_true hle⟩ h
      · next hgt =>
        rw [decide_eq_false hgt, ← hclear]
        exact hsame

/-- Of the dew point only DEW_HIGH follows. -/
theorem dryerDew_dryer : (dryerDew (withdrawalInterval s r) r s).dryer = { s.dryer with dewHigh := dewAfter s r } := by
  by_cases h : s.dryer.dewHigh = false ∧ dewAfter s r = true
  · obtain ⟨v, hraise⟩ := dryerDew_raises h
    rw [hraise, h.2]
    simp
  · rw [dryerDew_keeps h]
    rfl

theorem dryerDew_reading (hc : c ≠ .dewHigh) (hx : c ≠ .txDrop) :
    (dryerDew (withdrawalInterval s r) r s).mon.reading c = s.mon.reading c := by
  by_cases h : s.dryer.dewHigh = false ∧ dewAfter s r = true
  · obtain ⟨v, hraise⟩ := dryerDew_raises h
    rw [hraise]
    exact raise_reading _ _ _ _ _ hc hx
  · rw [dryerDew_keeps h]
    rfl

theorem dryerDew_sized (hm : s.mon.sized) : (dryerDew (withdrawalInterval s r) r s).mon.sized := by
  by_cases h : s.dryer.dewHigh = false ∧ dewAfter s r = true
  · obtain ⟨v, hraise⟩ := dryerDew_raises h
    rw [hraise]
    exact raise_sized hm
  · rw [dryerDew_keeps h]
    exact hm

/-! ### The phase ends (R113, R114) -/

/-- A bed's record at the end of its cooling, charged. -/
def rested (b : BedRecord) : BedRecord :=
  { b with state := .standby, phaseTimer := none, loading := 0, waterCarry := 0, accumulator := 0
           heaterCarry := (b.accumulator + b.heaterCarry) % 1000, passage := List.replicate 17 0 }

/-- A bed's record as the end of its phase leaves it. -/
def ended (s : State) (r : Interval) (x : Bed) (b : BedRecord) : BedRecord :=
  if heatingEnds s r x = true then { b with state := .cooling, phaseTimer := some 0 }
  else if coolingEnds s r x = true then rested b else b

/-- The STANDBY bed taken into service when it may be (R111). -/
def Dryer.served (d : Dryer) (may : Bool) : Dryer :=
  match d.adsorbing, d.standbyBed with
  | none, some bed => if may = true then d.onBed bed (fun r => { r with state := .adsorbing }) else d
  | _, _ => d

theorem takeBedIn_dryer : (takeBedIn s).dryer = s.dryer.served (decide (s.train.lineup = .withdraw)) := by
  unfold takeBedIn Dryer.served
  rcases s.dryer.adsorbing with - | x
  · rcases s.dryer.standbyBed with - | y
    · rfl
    · dsimp only
      simp only [decide_eq_true_eq]
      split <;> rfl
  · rfl

theorem takeBedIn_books : (takeBedIn s).acct = s.acct ∧ (takeBedIn s).mon = s.mon := by
  unfold takeBedIn
  split
  · split <;> exact ⟨rfl, rfl⟩
  · exact ⟨rfl, rfl⟩

theorem rested_dryer (bed : Bed) : (chargeBed bed (s.onDryer (fun d => d.onBed bed (fun b => { b with
      state := .standby, phaseTimer := none, loading := 0, waterCarry := 0 })))).dryer = s.dryer.onBed bed rested := by
  rw [chargeBed_dryer, State.onDryer_dryer, Dryer.onBed_onBed, Dryer.onBed_bed_same]
  cases bed <;> rfl

/-- The state of a bed whose cooling ends, its charge formed. -/
def State.restBed (s : State) (bed : Bed) : State :=
  chargeBed bed (s.onDryer (fun d => d.onBed bed (fun b => { b with
    state := .standby, phaseTimer := none, loading := 0, waterCarry := 0 })))

/-- A phase that does not end its cooling: its heating ends, or nothing does. -/
theorem dryerPhase_uncooled {u : State} (hcfg : u.cfg = s.cfg) (hcool : coolingEnds s r bed = false) :
    dryerPhase bed (s.dryer.bed bed).state r u = u.onDryer (fun d => d.onBed bed (ended s r bed)) := by
  have hsame : u = u.onDryer (fun d => d.onBed bed (fun b => b)) := by cases bed <;> rfl
  unfold ended
  simp only [hcool, Bool.false_eq_true, if_false]
  unfold coolingEnds at hcool
  unfold heatingEnds dryerPhase
  rw [hcfg]
  cases ht : fresh (r.held.bedTemp bed) with
  | none => simpa using hsame
  | some t =>
    rw [ht] at hcool
    cases hst : (s.dryer.bed bed).state with
    | heating =>
      dsimp only
      by_cases hle : s.cfg.dryer.heatTarget ≤ t
      · simp [hle]
      · rw [if_neg hle]
        simpa [hle] using hsame
    | cooling =>
      dsimp only
      rw [if_neg (by simpa [hst] using hcool)]
      simpa using hsame
    | standby => simpa using hsame
    | adsorbing => simpa using hsame
    | out => simpa using hsame

theorem dryerPhase_cooled {u : State} (hcfg : u.cfg = s.cfg) (hcool : coolingEnds s r bed = true) :
    dryerPhase bed (s.dryer.bed bed).state r u = takeBedIn (u.restBed bed) := by
  unfold coolingEnds at hcool
  unfold dryerPhase
  rw [hcfg]
  cases ht : fresh (r.held.bedTemp bed) with
  | none => simp [ht] at hcool
  | some t =>
    simp only [ht, Option.any_some, Bool.and_eq_true, decide_eq_true_eq] at hcool
    rw [hcool.1]
    exact if_pos hcool.2

/-- The beds behind one phase's end. -/
theorem dryerPhase_dryer {u : State} (hcfg : u.cfg = s.cfg) (htrain : u.train = s.train) :
    (dryerPhase bed (s.dryer.bed bed).state r u).dryer = if coolingEnds s r bed = true
      then (u.dryer.onBed bed rested).served (decide (s.train.lineup = .withdraw))
      else u.dryer.onBed bed (ended s r bed) := by
  split
  · next h =>
    have htrain' : (u.restBed bed).train = s.train := by rw [← htrain]; simp [State.restBed]
    rw [dryerPhase_cooled hcfg h, takeBedIn_dryer, htrain', State.restBed, rested_dryer]
  · next h => rw [dryerPhase_uncooled hcfg (by simpa using h), State.onDryer_dryer]

/-! ### Both phases -/

/-- A bed's record taken into service. -/
def serving (b : BedRecord) : BedRecord := { b with state := .adsorbing }

theorem Dryer.served_false (d : Dryer) : d.served false = d := by
  unfold Dryer.served
  split <;> rfl

theorem Dryer.served_adsorbing {d : Dryer} {may : Bool} (h : d.bedA.state = .adsorbing ∨ d.bedB.state = .adsorbing) :
    d.served may = d := by
  have hsome : d.adsorbing ≠ none := fun hnone => by
    have hall := Dryer.adsorbing_eq_none.mp hnone
    rcases h with h | h
    · exact hall .a h
    · exact hall .b h
  unfold Dryer.served
  split
  · next hnone _ => exact absurd hnone hsome
  · rfl

theorem Dryer.adsorbing_none {d : Dryer} (ha : d.bedA.state ≠ .adsorbing) (hb : d.bedB.state ≠ .adsorbing) :
    d.adsorbing = none := Dryer.adsorbing_eq_none.mpr fun x => by cases x; exacts [ha, hb]

theorem Dryer.served_a {d : Dryer} (ha : d.bedA.state = .standby) (hb : d.bedB.state ≠ .adsorbing) :
    d.served true = d.onBed .a serving := by
  have hstandby : d.standbyBed = some .a := if_pos ha
  unfold Dryer.served
  rw [Dryer.adsorbing_none (by rw [ha]; decide) hb, hstandby]
  rfl

theorem Dryer.served_b {d : Dryer} (ha : d.bedA.state ≠ .adsorbing) (hna : d.bedA.state ≠ .standby)
    (hb : d.bedB.state = .standby) : d.served true = d.onBed .b serving := by
  have hstandby : d.standbyBed = some .b := by rw [Dryer.standbyBed, if_neg hna, if_pos hb]
  unfold Dryer.served
  rw [Dryer.adsorbing_none ha (by rw [hb]; decide), hstandby]
  rfl

/-- Both ends of the phases, with the bed taken into service behind an ended cooling. -/
def Dryer.phased (d : Dryer) (s : State) (r : Interval) : Dryer :=
  { d with
    bedA := if takenIn s r .a = true then serving (ended s r .a d.bedA) else ended s r .a d.bedA
    bedB := if takenIn s r .b = true then serving (ended s r .b d.bedB) else ended s r .b d.bedB }

theorem takenIn_of_warm (ha : coolingEnds s r .a = false) (hb : coolingEnds s r .b = false) (x : Bed) :
    takenIn s r x = false := by
  simp [takenIn, ha, hb]

theorem coolingEnds_state (h : coolingEnds s r x = true) : (s.dryer.bed x).state = .cooling := by
  simp only [coolingEnds, Bool.and_eq_true, decide_eq_true_eq] at h
  exact h.1

theorem ended_of_cooled (h : coolingEnds s r x = true) (b : BedRecord) : ended s r x b = rested b := by
  have hheat : heatingEnds s r x = false := by simp [heatingEnds, coolingEnds_state h]
  simp [ended, hheat, h]

/-- The end of a phase leaves no bed STANDBY but one whose cooling ends, and none ADSORBING. -/
theorem ended_state (h : coolingEnds s r x = false) (b : BedRecord) (hb : b.state = (s.dryer.bed x).state) :
    ((ended s r x b).state = .adsorbing ↔ b.state = .adsorbing) ∧ ((ended s r x b).state = .standby ↔ b.state = .standby) := by
  unfold ended
  simp only [h, Bool.false_eq_true, if_false]
  split
  · next hheat =>
    simp only [heatingEnds, Bool.and_eq_true, decide_eq_true_eq] at hheat
    simp [hb, hheat.1]
  · exact ⟨Iff.rfl, Iff.rfl⟩

theorem takenIn_of_lineup (h : s.train.lineup ≠ .withdraw) (x : Bed) : takenIn s r x = false := by simp [takenIn, h]

theorem takenIn_of_served (h : s.dryer.bedA.state = .adsorbing ∨ s.dryer.bedB.state = .adsorbing) (x : Bed) :
    takenIn s r x = false := by rcases h with h | h <;> simp [takenIn, h]

/-- Which bed is taken in, where one may be. -/
theorem takenIn_of_free (hl : s.train.lineup = .withdraw) (ha : s.dryer.bedA.state ≠ .adsorbing)
    (hb : s.dryer.bedB.state ≠ .adsorbing) (hcool : coolingEnds s r .a = true ∨ coolingEnds s r .b = true) :
    takenIn s r .a = standsFree s r .a ∧ takenIn s r .b = !standsFree s r .a := by
  rcases hcool with h | h <;> simp [takenIn, hl, ha, hb, h]

/-- The beds where only bed B's cooling ends. -/
theorem phased_of_b {d : Dryer} (hA : coolingEnds s r .a = false) (hB : coolingEnds s r .b = true)
    (hstate : d.bedA.state = s.dryer.bedA.state) :
    ((d.onBed .a (ended s r .a)).onBed .b rested).served (decide (s.train.lineup = .withdraw)) = d.phased s r := by
  have hb : s.dryer.bedB.state = .cooling := coolingEnds_state hB
  have hrest := ended_of_cooled hB d.bedB
  obtain ⟨hads, hstandby⟩ := ended_state hA d.bedA hstate
  rw [hstate] at hads hstandby
  by_cases hl : s.train.lineup = .withdraw
  · rw [decide_eq_true hl]
    by_cases ha : s.dryer.bedA.state = .adsorbing
    · rw [Dryer.served_adsorbing (.inl (by exact hads.mpr ha)), Dryer.phased, takenIn_of_served (.inl ha),
        takenIn_of_served (.inl ha), hrest]
      rfl
    · obtain ⟨hta, htb⟩ := takenIn_of_free hl ha (by rw [hb]; decide) (.inr hB)
      rw [Dryer.phased, hta, htb, hrest]
      by_cases hs : s.dryer.bedA.state = .standby
      · have hfree : standsFree s r .a = true := by simp [standsFree, Dryer.bed, hs]
        rw [Dryer.served_a (by exact hstandby.mpr hs) (by simp [Dryer.onBed, rested]), hfree]
        rfl
      · have hfree : standsFree s r .a = false := by simp [standsFree, Dryer.bed, hs, hA]
        rw [Dryer.served_b (by exact fun h => ha (hads.mp h)) (by exact fun h => hs (hstandby.mp h)) rfl, hfree]
        rfl
  · rw [decide_eq_false hl, Dryer.served_false, Dryer.phased, takenIn_of_lineup hl, takenIn_of_lineup hl, hrest]
    rfl

/-- The beds where bed A's cooling ends: bed B's, if it ends too, takes no bed in any more. -/
theorem phased_of_a {d : Dryer} (hA : coolingEnds s r .a = true) (hstate : d.bedB.state = s.dryer.bedB.state) :
    (let d' := (d.onBed .a rested).served (decide (s.train.lineup = .withdraw))
      if coolingEnds s r .b = true then (d'.onBed .b rested).served (decide (s.train.lineup = .withdraw))
      else d'.onBed .b (ended s r .b)) = d.phased s r := by
  have ha : s.dryer.bedA.state = .cooling := coolingEnds_state hA
  have hrest := ended_of_cooled hA d.bedA
  by_cases hl : s.train.lineup = .withdraw
  · rw [decide_eq_true hl]
    by_cases hb : s.dryer.bedB.state = .adsorbing
    · have hB : coolingEnds s r .b = false := by simp [coolingEnds, Dryer.bed, hb]
      rw [Dryer.served_adsorbing (.inr (by exact hstate.trans hb)), Dryer.phased, takenIn_of_served (.inr hb),
        takenIn_of_served (.inr hb), hrest]
      simp only [hB, Bool.false_eq_true, if_false]
      rfl
    · obtain ⟨hta, htb⟩ := takenIn_of_free hl (by rw [ha]; decide) hb (.inl hA)
      have hfree : standsFree s r .a = true := by simp [standsFree, hA]
      rw [Dryer.served_a rfl (by rw [← hstate] at hb; exact hb), Dryer.phased, hta, htb, hfree, hrest]
      dsimp only
      split
      · next hB =>
        rw [Dryer.served_adsorbing (.inl rfl), ended_of_cooled hB]
        rfl
      · rfl
  · rw [decide_eq_false hl]
    simp only [Dryer.served_false, Dryer.phased, takenIn_of_lineup hl, hrest]
    split
    · next hB =>
      rw [ended_of_cooled hB]
      rfl
    · rfl

theorem phases_dryer {u : State} (hcfg : u.cfg = s.cfg) (htrain : u.train = s.train)
    (hstate : ∀ x, (u.dryer.bed x).state = (s.dryer.bed x).state) :
    (dryerPhase .b s.dryer.bedB.state r (dryerPhase .a s.dryer.bedA.state r u)).dryer = u.dryer.phased s r := by
  have ha : (dryerPhase .a s.dryer.bedA.state r u).dryer = _ := dryerPhase_dryer (bed := .a) hcfg htrain
  have hb : (dryerPhase .b s.dryer.bedB.state r (dryerPhase .a s.dryer.bedA.state r u)).dryer = _ :=
    dryerPhase_dryer (bed := .b) (s := s) (r := r) (by rw [← hcfg]; simp [State.cfg]) (by rw [← htrain]; simp)
  rw [hb, ha]
  have hstateA : u.dryer.bedA.state = s.dryer.bedA.state := hstate .a
  have hstateB : u.dryer.bedB.state = s.dryer.bedB.state := hstate .b
  generalize u.dryer = d at hstateA hstateB
  cases hcoolA : coolingEnds s r .a with
  | false =>
    cases hcoolB : coolingEnds s r .b with
    | false => simp [Dryer.phased, takenIn_of_warm hcoolA hcoolB, Dryer.onBed]
    | true => exact phased_of_b hcoolA hcoolB hstateA
  | true => exact phased_of_a hcoolA hstateB

/-! ### The charges of the phases (R50, R115) -/

/-- The litres of a bed's charge. -/
def BedRecord.burnt (b : BedRecord) : Nat := (b.accumulator + b.heaterCarry) / 1000

theorem Dryer.served_bed (d : Dryer) (may : Bool) (x : Bed) :
    (d.served may).bed x = { d.bed x with state := ((d.served may).bed x).state } := by
  unfold Dryer.served
  split
  · next bed _ _ =>
    split
    · obtain rfl | rfl := bed_eq_or_other bed x <;> simp
    · rfl
  · rfl

theorem State.stocked.onBed (hs : s.stocked) {f : BedRecord → BedRecord} (hf : ∀ b, (f b).passage = b.passage) :
    (s.onDryer (fun d => d.onBed bed f)).stocked :=
  ⟨hs.1, fun x => by obtain rfl | rfl := bed_eq_or_other bed x <;> simp [hf, hs.2]⟩

theorem chargeBed_stocked (hs : s.stocked) : (chargeBed bed s).stocked
    ∧ (chargeBed bed s).inventories.sum = s.inventories.sum - (s.dryer.bed bed).burnt :=
  bookRegeneration_stocked (hs.onBed (f := fun b => { b with
    accumulator := 0, heaterCarry := ((s.dryer.bed bed).accumulator + (s.dryer.bed bed).heaterCarry) % 1000 })
    fun _ => rfl) (some bed) _

theorem State.restBed_books (hs : s.stocked) : (s.restBed bed).stocked
    ∧ (s.restBed bed).inventories.sum = s.inventories.sum - (s.dryer.bed bed).burnt
    ∧ (s.restBed bed).mon.sumHeater = s.mon.sumHeater + (s.dryer.bed bed).burnt := by
  obtain ⟨hstocked, hsum⟩ := chargeBed_stocked (bed := bed) (hs.onBed (bed := bed) (f := fun b => { b with
    state := .standby, phaseTimer := none, loading := 0, waterCarry := 0 }) fun _ => rfl)
  have hheater := chargeBed_sumHeater (bed := bed) (s := s.onDryer (fun d => d.onBed bed (fun b => { b with
    state := .standby, phaseTimer := none, loading := 0, waterCarry := 0 })))
  simp only [State.onDryer_dryer, Dryer.onBed_bed_same] at hsum hheater
  exact ⟨hstocked, hsum, hheater⟩

/-- The litres charged at the end of a phase. -/
def State.phaseCharge (s : State) (r : Interval) (bed : Bed) : Nat :=
  if coolingEnds s r bed = true then (s.dryer.bed bed).burnt else 0

theorem dryerPhase_books {u : State} (hcfg : u.cfg = s.cfg) (hs : u.stocked)
    (hburnt : coolingEnds s r bed = true → (u.dryer.bed bed).burnt = (s.dryer.bed bed).burnt) :
    (dryerPhase bed (s.dryer.bed bed).state r u).stocked
      ∧ (dryerPhase bed (s.dryer.bed bed).state r u).inventories.sum = u.inventories.sum - s.phaseCharge r bed
      ∧ (dryerPhase bed (s.dryer.bed bed).state r u).mon.sumHeater = u.mon.sumHeater + s.phaseCharge r bed := by
  unfold State.phaseCharge
  split
  · next h =>
    obtain ⟨⟨hslots, hpassage⟩, hsum, hheater⟩ := State.restBed_books (bed := bed) hs
    obtain ⟨hacct, hmon⟩ := takeBedIn_books (s := u.restBed bed)
    rw [dryerPhase_cooled hcfg h]
    refine ⟨⟨by rw [hacct]; exact hslots, fun x => ?_⟩, ?_, ?_⟩
    · rw [takeBedIn_dryer, Dryer.served_bed]
      exact hpassage x
    · rw [inventories_of_slots (s := u.restBed bed) (by rw [hacct]), hsum, hburnt h]
    · rw [hmon, hheater, hburnt h]
  · next h =>
    rw [dryerPhase_uncooled hcfg (by simpa using h)]
    refine ⟨⟨hs.1, fun x => ?_⟩, (Int.sub_zero _).symm, rfl⟩
    have hkeep (b : BedRecord) : (ended s r bed b).passage = b.passage := by
      unfold ended
      simp only [h, Bool.false_eq_true, if_false]
      split <;> rfl
    exact (hs.onBed hkeep).2 x

theorem dryerPhase_reading {u : State} {st : BedState} (hc : c ≠ .fuelShortfall) (hx : c ≠ .txDrop) :
    (dryerPhase bed st r u).mon.reading c = u.mon.reading c := by
  unfold dryerPhase
  repeat' split
  all_goals try rfl
  rw [takeBedIn_books.2]
  exact chargeBed_reading (s := u.onDryer _) hc hx

theorem dryerPhase_sized {u : State} {st : BedState} (hm : u.mon.sized) : (dryerPhase bed st r u).mon.sized := by
  unfold dryerPhase
  repeat' split
  all_goals try exact hm
  rw [takeBedIn_books.2]
  exact bookRegeneration_sized (s := (u.onDryer _).onDryer _) hm

/-! ### The switch (R112) -/

/-- A bed in service is switched out: it is full, or the gas is wet, and the other one stands by. -/
def State.switches (s : State) (bed : Bed) : Prop := (s.dryer.bed bed).state = .adsorbing
  ∧ (s.cfg.dryer.switchLoad ≤ (s.dryer.bed bed).loading ∨ s.dryer.dewHigh = true)
  ∧ (s.dryer.bed (otherBed bed)).state = .standby

theorem dryerSwitch_switched (hd : s.dryer.sound) (h : s.switches bed) : dryerSwitch s = s.onDryer (fun d =>
    { (d.onBed bed enterHeating).onBed (otherBed bed) serving with dewHigh := false }) := by
  obtain ⟨hads, hfull, hother⟩ := h
  unfold dryerSwitch
  rw [(adsorbing_iff hd).mpr hads]
  exact if_pos ⟨hfull, hother⟩

theorem dryerSwitch_kept (h : ∀ x, ¬ s.switches x) : dryerSwitch s = s := by
  unfold dryerSwitch
  split
  · rfl
  · next bed hads => exact if_neg fun hx => h bed ⟨Dryer.adsorbing_eq_some hads, hx⟩

theorem dryerSwitch_out (hd : s.dryer.sound) (h : s.switches x) :
    (dryerSwitch s).dryer.bed x = enterHeating (s.dryer.bed x) := by
  have hhigh (d : Dryer) : ({ d with dewHigh := false } : Dryer).bed x = d.bed x := by cases x <;> rfl
  rw [dryerSwitch_switched hd h, State.onDryer_dryer, hhigh]
  simp

theorem dryerSwitch_in (hd : s.dryer.sound) (h : s.switches (otherBed x)) :
    (dryerSwitch s).dryer.bed x = serving (s.dryer.bed x) := by
  have hhigh (d : Dryer) : ({ d with dewHigh := false } : Dryer).bed x = d.bed x := by cases x <;> rfl
  rw [dryerSwitch_switched hd h, State.onDryer_dryer, hhigh]
  simp

theorem dryerSwitch_dewHigh (hd : s.dryer.sound) (h : s.switches x) : (dryerSwitch s).dryer.dewHigh = false := by
  rw [dryerSwitch_switched hd h, State.onDryer_dryer]

theorem dryerSwitch_rest : (dryerSwitch s).dryer.idleCarry = s.dryer.idleCarry
    ∧ (dryerSwitch s).dryer.dryBlock = s.dryer.dryBlock := by
  unfold dryerSwitch
  split
  · exact ⟨rfl, rfl⟩
  · split
    · simp
    · exact ⟨rfl, rfl⟩

/-! ### The limit (R119, R120) -/

theorem dryerLimitStep_dryer : (dryerLimitStep r s).dryer = { s.dryer with
    limit := (dryerLimit s.cfg.dryer s.dryer (intervalWater s r) r.cv).1
    dryBlock := decide ((dryerLimit s.cfg.dryer s.dryer (intervalWater s r) r.cv).1 = some 0) } := by
  unfold dryerLimitStep
  dsimp only
  split <;> simp

theorem dryerLimitStep_blocks (hm : s.mon.sized) (hb : s.dryer.dryBlock = false)
    (h : (dryerLimitStep r s).dryer.dryBlock = true) : raisedOnce .dryBlock s (dryerLimitStep r s) := by
  rw [dryerLimitStep_dryer] at h
  unfold dryerLimitStep
  dsimp only
  rw [if_pos ⟨h, hb⟩]
  exact raise_raisedOnce _ _ _ _ (by decide) hm

theorem dryerLimitStep_keeps (h : ¬ (s.dryer.dryBlock = false ∧ (dryerLimitStep r s).dryer.dryBlock = true)) :
    (dryerLimitStep r s).mon = s.mon := by
  rw [dryerLimitStep_dryer] at h
  unfold dryerLimitStep
  dsimp only
  rw [if_neg fun hx => h ⟨hx.2, hx.1⟩]
  rfl

theorem dryerLimitStep_reading (hc : c ≠ .dryBlock) (hx : c ≠ .txDrop) :
    (dryerLimitStep r s).mon.reading c = s.mon.reading c := by
  unfold dryerLimitStep
  dsimp only
  split
  · exact raise_reading _ _ _ _ _ hc hx
  · rfl

theorem standbyBed_iff {d : Dryer} :
    d.standbyBed = some x ↔ (d.bed x).state = .standby ∧ (x = .b → d.bedA.state ≠ .standby) := by
  unfold Dryer.standbyBed
  by_cases ha : d.bedA.state = .standby
  · rw [if_pos ha]
    cases x <;> simp [Dryer.bed, ha]
  · rw [if_neg ha]
    cases x <;> simp [Dryer.bed, ha]

theorem inService_iff {d : Dryer} (hd : d.sound) : d.inService = some x ↔ serves d x := by
  unfold Dryer.inService serves
  cases hads : d.adsorbing with
  | some bed =>
    have hbed := Dryer.adsorbing_eq_some hads
    have hfree : ¬ (d.bedA.state ≠ .adsorbing ∧ d.bedB.state ≠ .adsorbing) := fun h => by
      cases bed
      · exact h.1 hbed
      · exact h.2 hbed
    dsimp only
    rw [← hads, adsorbing_iff hd]
    exact ⟨.inl, fun h => h.resolve_right fun hx => hfree ⟨hx.1, hx.2.1⟩⟩
  | none =>
    have hnone := Dryer.adsorbing_eq_none.mp hads
    dsimp only
    rw [standbyBed_iff]
    exact ⟨fun h => .inr ⟨hnone .a, hnone .b, h⟩, fun h => (h.resolve_left (hnone x)).2.2⟩

theorem inService_none {d : Dryer} (hd : d.sound) (h : ∀ x, ¬ serves d x) : d.inService = none := by
  cases hs : d.inService with
  | none => rfl
  | some x => exact absurd ((inService_iff hd).mp hs) (h x)

/-- The rows of the limit's table. -/
theorem dryerLimit_rows {d : Dryer} {g : DryerFigures} {w cv : Nat} (hd : d.sound) (hx : serves d x) :
    let load := (d.bed x).loading
    let o := d.bed (otherBed x)
    let limit := (dryerLimit g d w cv).1
    (g.breakthroughLoad ≤ load → limit = some 0)
      ∧ (load < g.breakthroughLoad →
        (load < g.switchLoad ∧ d.dewHigh = false ∨ o.state = .standby → limit = none)
        ∧ (g.switchLoad ≤ load ∨ d.dewHigh = true → o.state ≠ .standby →
          (d.dewHigh = true ∨ o.state = .out → limit = some 0)
          ∧ (d.dewHigh = false → o.state ≠ .out →
            limit = if w = 0 then none else some (lastingRate g load o w cv)))) := by
  intro load o limit
  have hlimit : limit = (dryerLimit g d w cv).1 := rfl
  unfold dryerLimit at hlimit
  rw [(inService_iff hd).mpr hx] at hlimit
  dsimp only at hlimit
  refine ⟨fun hbroken => ?_, fun hsound => ⟨?_, fun hfull hstandby => ⟨?_, fun hdry hout => ?_⟩⟩⟩
  · rw [hlimit, if_pos hbroken]
  · rw [if_neg (by omega)] at hlimit
    rintro (hlight | hother)
    · rw [hlimit, if_pos hlight]
    · split at hlimit
      · exact hlimit
      · exact hlimit
  · rw [if_neg (by omega), if_neg (fun h => by rcases hfull with h' | h' <;> [omega; simp [h'] at h]), if_neg hstandby] at hlimit
    rintro (hhigh | hout)
    · rw [hlimit, if_pos hhigh]
    · split at hlimit
      · exact hlimit
      · exact hlimit
  · rw [if_neg (by omega), if_neg (fun h => by rcases hfull with h' | h' <;> [omega; simp [hdry] at h']), if_neg hstandby,
      if_neg (by rw [hdry]; decide), if_neg hout] at hlimit
    rw [hlimit]
    split <;> rfl

end Sys2Proof.Machine
end


section
/-! PROOFS. The dryer's minute work as a whole (R108 to R120): the two beds behind it, the charges, the conditions and the
limit. -/

namespace Sys2Proof.Machine

open Sys2Proof (Bed Flow)

variable {s : State} {r : Interval} {bed x : Bed} {c : Cond}

/-! ### The steps before the switch -/

/-- The state after the water and the fuel. -/
def State.loaded (s : State) (r : Interval) : State := dryerFuel r (dryerWater (withdrawalInterval s r) r s)

/-- The state after the water, the fuel and the dew point. -/
def State.fuelled (s : State) (r : Interval) : State := dryerDew (withdrawalInterval s r) r (s.loaded r)

/-- The state after both phases. -/
def State.cycled (s : State) (r : Interval) : State :=
  dryerPhase .b s.dryer.bedB.state r (dryerPhase .a s.dryer.bedA.state r (s.fuelled r))

theorem dryerMinute_eq : dryerMinute r s = handDryer (dryerLimitStep r (dryerSwitch (s.cycled r))) := by
  unfold State.cycled State.fuelled State.loaded
  rw [← withdrawal_interval s r]
  rfl

theorem withdrawalInterval_congr {u : State} (h : u.train = s.train) : withdrawalInterval u r = withdrawalInterval s r := by
  rw [withdrawalInterval, withdrawalInterval, h]

theorem State.fuelled_frame : (s.fuelled r).train = s.train ∧ (s.fuelled r).cfg = s.cfg := by
  unfold State.fuelled State.loaded
  exact ⟨by simp, by simp [State.cfg]⟩

/-- The dew point's step finds what the minute's start has. -/
theorem State.loaded_same : withdrawalInterval (s.loaded r) r = withdrawalInterval s r
    ∧ (s.loaded r).dryer.dewHigh = s.dryer.dewHigh ∧ dewAfter (s.loaded r) r = dewAfter s r := by
  have htrain : (s.loaded r).train = s.train := by simp [State.loaded]
  have hcfg : (s.loaded r).cfg = s.cfg := by simp [State.loaded, State.cfg]
  have hhigh : (s.loaded r).dryer.dewHigh = s.dryer.dewHigh := by
    rw [State.loaded, dryerFuel_rest.1, (dryerWater_rest _).1]
  have hinterval := withdrawalInterval_congr (r := r) htrain
  exact ⟨hinterval, hhigh, by rw [dewAfter, dewAfter, hinterval, hcfg, hhigh]⟩

theorem State.fuelled_dryer : (s.fuelled r).dryer = { (s.loaded r).dryer with dewHigh := dewAfter s r } := by
  obtain ⟨hinterval, -, hafter⟩ := State.loaded_same (s := s) (r := r)
  have hdew := dryerDew_dryer (s := s.loaded r) (r := r)
  rwa [hinterval, hafter] at hdew

/-- A bed's record as the water, the fuel and its phase leave it. -/
def State.minuteBed (s : State) (r : Interval) (x : Bed) : BedRecord :=
  ended s r x (heated r (watered s r (s.dryer.bed x)))

theorem watered_state (b : BedRecord) : (watered s r b).state = b.state := by
  unfold watered
  split <;> rfl

theorem heated_state (b : BedRecord) : (heated r b).state = b.state := by
  unfold heated
  split <;> rfl

theorem State.fuelled_bed (hd : s.dryer.sound) (x : Bed) :
    (s.fuelled r).dryer.bed x = heated r (watered s r (s.dryer.bed x)) := by
  have hwater : (dryerWater (withdrawalInterval s r) r s).dryer.sound := dryerWater_sound hd
  rw [State.fuelled_dryer, State.loaded, ← dryerWater_bed hd, ← dryerFuel_bed hwater]
  cases x <;> rfl

theorem State.cycled_dryer (hd : s.dryer.sound) : (s.cycled r).dryer = (s.fuelled r).dryer.phased s r :=
  phases_dryer State.fuelled_frame.2 State.fuelled_frame.1 fun x => by
    rw [State.fuelled_bed hd, heated_state, watered_state]

theorem State.cycled_bed (hd : s.dryer.sound) (x : Bed) : (s.cycled r).dryer.bed x
    = if takenIn s r x = true then serving (s.minuteBed r x) else s.minuteBed r x := by
  rw [State.cycled_dryer hd, State.minuteBed, ← State.fuelled_bed hd]
  cases x <;> rfl

theorem heating_watered (hd : s.dryer.sound) :
    (dryerWater (withdrawalInterval s r) r s).dryer.heating = none ↔ s.dryer.heating = none := by
  rw [heating_eq_none, heating_eq_none]
  exact forall_congr' fun x => by rw [dryerWater_bed hd, watered_state]

theorem State.cycled_rest (hd : s.dryer.sound) : (s.cycled r).dryer.dewHigh = dewAfter s r
    ∧ (s.cycled r).dryer.idleCarry = (if s.dryer.heating = none then (r.heaterWh + s.dryer.idleCarry) % 1000
      else s.dryer.idleCarry)
    ∧ (s.cycled r).dryer.dryBlock = s.dryer.dryBlock := by
  have hwater := dryerWater_rest (s := s) (r := r) (withdrawalInterval s r)
  obtain ⟨-, hblock, hidle, -⟩ := dryerFuel_rest (s := dryerWater (withdrawalInterval s r) r s) (r := r)
  rw [State.cycled_dryer hd, State.fuelled_dryer]
  refine ⟨rfl, ?_, ?_⟩
  · change (s.loaded r).dryer.idleCarry = _
    rw [State.loaded, hidle, hwater.2.1]
    simp only [heating_watered hd]
  · exact hblock.trans hwater.2.2

theorem State.fuelled_sound (hd : s.dryer.sound) : (s.fuelled r).dryer.sound := dryerDew_sound (dryerFuel_sound (dryerWater_sound hd))

theorem State.cycled_sound (hd : s.dryer.sound) : (s.cycled r).dryer.sound := dryerPhase_sound (dryerPhase_sound (s.fuelled_sound hd))

theorem State.cycled_frame : (s.cycled r).train = s.train ∧ (s.cycled r).cfg = s.cfg := by
  unfold State.cycled
  exact ⟨by simp [State.fuelled_frame.1], by rw [← (State.fuelled_frame (s := s) (r := r)).2]; simp [State.cfg]⟩

/-! ### The charges and the conditions before the switch -/

theorem dryerPhase_other_burnt {u : State} (hcfg : u.cfg = s.cfg) (htrain : u.train = s.train) :
    ((dryerPhase bed (s.dryer.bed bed).state r u).dryer.bed (otherBed bed)).burnt = (u.dryer.bed (otherBed bed)).burnt := by
  rw [dryerPhase_dryer hcfg htrain]
  split
  · rw [Dryer.served_bed, Dryer.onBed_bed_other]
    rfl
  · rw [Dryer.onBed_bed_other]

/-- The water and the fuel charge the idle heater alone. -/
theorem State.loaded_books (hd : s.dryer.sound) (hs : s.stocked) : (s.loaded r).stocked
    ∧ (s.loaded r).inventories.sum = s.inventories.sum - s.idleFuel r
    ∧ (s.loaded r).mon.sumHeater = s.mon.sumHeater + s.idleFuel r := by
  have hpassage (x : Bed) : ((dryerWater (withdrawalInterval s r) r s).dryer.bed x).passage.length = 17 := by
    rw [dryerWater_bed hd, watered]
    split <;> exact hs.2 x
  have hidle : (dryerWater (withdrawalInterval s r) r s).idleFuel r = s.idleFuel r := by
    simp only [State.idleFuel, heating_watered hd, (dryerWater_rest _).2.1]
  obtain ⟨hstocked, hsum⟩ := dryerFuel_stocked (r := r) (dryerWater_sound hd) ⟨by simpa using hs.1, hpassage⟩
  obtain ⟨-, -, -, hheater⟩ := dryerFuel_rest (s := dryerWater (withdrawalInterval s r) r s) (r := r)
  rw [hidle] at hsum hheater
  refine ⟨hstocked, ?_, ?_⟩
  · rw [State.loaded, hsum]
    simp [State.inventories]
  · rw [State.loaded, hheater]
    simp

theorem State.cycled_books (hd : s.dryer.sound) (hs : s.stocked) :
    (s.cycled r).inventories.sum
      = s.inventories.sum - (s.idleFuel r + s.phaseCharge r .a + s.phaseCharge r .b : Nat)
    ∧ (s.cycled r).mon.sumHeater = s.mon.sumHeater + (s.idleFuel r + s.phaseCharge r .a + s.phaseCharge r .b) := by
  obtain ⟨hloaded, hsum, hheater⟩ := State.loaded_books (r := r) hd hs
  have hacct : (s.fuelled r).acct = (s.loaded r).acct := by simp [State.fuelled]
  have hheat : (s.fuelled r).mon.sumHeater = (s.loaded r).mon.sumHeater := by simp [State.fuelled]
  have hfuelled : (s.fuelled r).stocked := by
    refine ⟨by rw [hacct]; exact hloaded.1, fun x => ?_⟩
    rw [State.fuelled_dryer, ← hloaded.2 x]
    cases x <;> rfl
  obtain ⟨htrain, hcfg⟩ := State.fuelled_frame (s := s) (r := r)
  have hburnt (x : Bed) (hx : coolingEnds s r x = true) :
      ((s.fuelled r).dryer.bed x).burnt = (s.dryer.bed x).burnt := by
    have hst := coolingEnds_state hx
    rw [State.fuelled_bed hd, heated, watered_state, hst, if_neg (by decide), watered, hst, if_neg (by simp)]
  obtain ⟨hstockedA, hsumA, hheaterA⟩ := dryerPhase_books (bed := .a) hcfg hfuelled (hburnt .a)
  have hburntB : ((dryerPhase .a s.dryer.bedA.state r (s.fuelled r)).dryer.bed .b).burnt = ((s.fuelled r).dryer.bed .b).burnt :=
    dryerPhase_other_burnt (bed := .a) hcfg htrain
  obtain ⟨-, hsumB, hheaterB⟩ := dryerPhase_books (bed := .b) (s := s) (r := r) (by rw [← hcfg]; simp [State.cfg]) hstockedA
    fun h => hburntB.trans (hburnt .b h)
  have hinv : (s.fuelled r).inventories.sum = (s.loaded r).inventories.sum := by
    rw [inventories_of_slots (s := s.loaded r) (by rw [hacct])]
  constructor
  · refine hsumB.trans ?_
    rw [hsumA, hinv, hsum]
    omega
  · refine hheaterB.trans ?_
    rw [hheaterA, hheat, hheater]
    omega

theorem State.cycled_reading (hc : c ≠ .fuelShortfall) (hx : c ≠ .txDrop) :
    (s.cycled r).mon.reading c = (s.fuelled r).mon.reading c := by
  unfold State.cycled
  rw [dryerPhase_reading hc hx, dryerPhase_reading hc hx]

theorem State.loaded_reading (hc : c ≠ .fuelShortfall) (hx : c ≠ .txDrop) :
    (s.loaded r).mon.reading c = s.mon.reading c := by
  rw [State.loaded, dryerFuel_reading hc hx]
  simp

theorem State.loaded_sized (hm : s.mon.sized) : (s.loaded r).mon.sized := dryerFuel_sized (by simpa using hm)

/-- DEW_HIGH is raised when it is set, and only then. -/
theorem State.cycled_dewHigh (hm : s.mon.sized) :
    (s.dryer.dewHigh = false ∧ dewAfter s r = true → raisedOnce .dewHigh s (s.cycled r))
      ∧ (¬ (s.dryer.dewHigh = false ∧ dewAfter s r = true) → (s.cycled r).mon.reading .dewHigh = s.mon.reading .dewHigh) := by
  obtain ⟨hinterval, hhigh, hafter⟩ := State.loaded_same (s := s) (r := r)
  have hloaded : (s.loaded r).mon.reading .dewHigh = s.mon.reading .dewHigh := State.loaded_reading (by decide) (by decide)
  have hcycled : (s.cycled r).mon.reading .dewHigh = (s.fuelled r).mon.reading .dewHigh :=
    State.cycled_reading (by decide) (by decide)
  rw [← hhigh, ← hafter]
  constructor
  · intro h
    obtain ⟨v, hraise⟩ := dryerDew_raises h
    rw [hinterval] at hraise
    have hfuelled : s.fuelled r = _ := hraise
    refine raisedOnce_of_reading (t := s.fuelled r) ?_ hcycled
    rw [hfuelled]
    exact raisedOnce_of_before (raise_raisedOnce _ _ _ _ (by decide) (State.loaded_sized hm)) hloaded
  · intro h
    have hkeep := dryerDew_keeps h
    rw [hinterval] at hkeep
    have hfuelled : s.fuelled r = _ := hkeep
    rw [hcycled, hfuelled]
    exact hloaded

theorem State.cycled_dryBlock : (s.cycled r).mon.reading .dryBlock = s.mon.reading .dryBlock := by
  obtain ⟨hinterval, -, -⟩ := State.loaded_same (s := s) (r := r)
  rw [State.cycled_reading (by decide) (by decide), State.fuelled, ← hinterval,
    dryerDew_reading (by decide) (by decide), State.loaded_reading (by decide) (by decide)]

theorem State.cycled_sized (hm : s.mon.sized) : (s.cycled r).mon.sized := by
  obtain ⟨hinterval, -, -⟩ := State.loaded_same (s := s) (r := r)
  have hdew := dryerDew_sized (r := r) (State.loaded_sized (r := r) hm)
  rw [hinterval] at hdew
  exact dryerPhase_sized (dryerPhase_sized hdew)

/-! ### The beds behind the minute work -/

theorem State.minuteBed_states (x : Bed) :
    ((s.minuteBed r x).state = .adsorbing ↔ (s.dryer.bed x).state = .adsorbing)
      ∧ ((s.minuteBed r x).state = .standby ↔ standsFree s r x = true) := by
  have hstate : (heated r (watered s r (s.dryer.bed x))).state = (s.dryer.bed x).state := by
    rw [heated_state, watered_state]
  unfold State.minuteBed
  cases hcool : coolingEnds s r x with
  | true =>
    have hst := coolingEnds_state hcool
    rw [ended_of_cooled hcool, hst]
    simp [rested, standsFree, hcool]
  | false =>
    obtain ⟨hads, hstandby⟩ := ended_state hcool _ hstate
    rw [hads, hstandby, hstate]
    simp [standsFree, hcool]

theorem takenIn_free (h : takenIn s r x = true) : standsFree s r x = true := by
  unfold takenIn at h
  simp only [Bool.and_eq_true, Bool.or_eq_true] at h
  obtain ⟨⟨-, hcool⟩, hfree⟩ := h
  cases x with
  | a => exact hfree
  | b =>
    have hnot : standsFree s r .a = false := by simpa using hfree
    rcases hcool with hA | hB
    · simp [standsFree, hA] at hnot
    · simp [standsFree, hB]

theorem takenIn_alone (h : (s.dryer.bed x).state = .adsorbing ∨ takenIn s r x = true) :
    takenIn s r (otherBed x) = false := by
  rcases h with hads | htaken
  · refine takenIn_of_served ?_ _
    cases x
    · exact .inl hads
    · exact .inr hads
  · unfold takenIn at htaken ⊢
    cases x <;> simp_all [otherBed]

theorem cycled_state (hd : s.dryer.sound) (x : Bed) :
    (((s.cycled r).dryer.bed x).state = .adsorbing ↔ (s.dryer.bed x).state = .adsorbing ∨ takenIn s r x = true)
      ∧ (((s.cycled r).dryer.bed x).state = .standby ↔ standsFree s r x = true ∧ takenIn s r x = false) := by
  obtain ⟨hads, hfree⟩ := State.minuteBed_states (s := s) (r := r) x
  rw [State.cycled_bed hd]
  split
  · next h => simp [serving, h]
  · next h => rw [hads, hfree]; simp [h]

theorem cycled_switches (hd : s.dryer.sound) (x : Bed) :
    (s.cycled r).switches x ↔ switchedOut s r (s.minuteBed r x).loading x = true := by
  have hload : ((s.cycled r).dryer.bed x).loading = (s.minuteBed r x).loading := by
    rw [State.cycled_bed hd]
    split <;> rfl
  unfold State.switches switchedOut
  rw [(cycled_state hd x).1, (cycled_state hd (otherBed x)).2, hload, (State.cycled_rest hd).1, State.cycled_frame.2]
  simp only [Bool.and_eq_true, Bool.or_eq_true, decide_eq_true_eq, and_assoc]
  exact and_congr_right fun h => by rw [takenIn_alone h]; simp

theorem dryerMinute_dryer : (dryerMinute r s).dryer = (dryerLimitStep r (dryerSwitch (s.cycled r))).dryer := by
  rw [dryerMinute_eq]
  simp only [handDryer_frame]

theorem dryerMinute_bed (x : Bed) : (dryerMinute r s).dryer.bed x = (dryerSwitch (s.cycled r)).dryer.bed x := by
  rw [dryerMinute_dryer, dryerLimitStep_dryer]
  cases x <;> rfl

/-- A bed is switched out in this minute. -/
def State.minuteOut (s : State) (r : Interval) (x : Bed) : Bool := switchedOut s r ((dryerMinute r s).dryer.bed x).loading x

section

variable (hd : s.dryer.sound)
include hd

/-- Of the record that the water, the fuel and the phase leave, the switch moves the state and the timer alone. -/
theorem minute_loading (x : Bed) : ((dryerMinute r s).dryer.bed x).loading = (s.minuteBed r x).loading := by
  have hload : ((s.cycled r).dryer.bed x).loading = (s.minuteBed r x).loading := by
    rw [State.cycled_bed hd]
    split <;> rfl
  rw [dryerMinute_bed, ← hload]
  by_cases hout : (s.cycled r).switches x
  · rw [dryerSwitch_out (s.cycled_sound hd) hout]
    rfl
  · by_cases hin : (s.cycled r).switches (otherBed x)
    · rw [dryerSwitch_in (s.cycled_sound hd) hin]
      rfl
    · rw [dryerSwitch_kept fun y => by obtain rfl | rfl := bed_eq_or_other x y; exacts [hout, hin]]

theorem minuteOut_iff (x : Bed) : s.minuteOut r x = true ↔ (s.cycled r).switches x := by
  rw [State.minuteOut, minute_loading hd, cycled_switches hd]

theorem minute_out (h : s.minuteOut r x = true) : (dryerMinute r s).dryer.bed x = enterHeating ((s.cycled r).dryer.bed x)
    ∧ (dryerMinute r s).dryer.bed (otherBed x) = serving ((s.cycled r).dryer.bed (otherBed x)) := by
  have hswitch := (minuteOut_iff hd x).mp h
  rw [dryerMinute_bed, dryerMinute_bed]
  exact ⟨dryerSwitch_out (s.cycled_sound hd) hswitch,
    dryerSwitch_in (s.cycled_sound hd) (by rwa [otherBed_otherBed])⟩

theorem minute_kept (h : s.minuteOut r x = false) (hother : s.minuteOut r (otherBed x) = false) :
    (dryerMinute r s).dryer.bed x = (s.cycled r).dryer.bed x := by
  rw [dryerMinute_bed, dryerSwitch_kept fun y => ?_]
  intro hy
  rw [← minuteOut_iff hd] at hy
  obtain rfl | rfl := bed_eq_or_other x y
  · rw [h] at hy
    cases hy
  · rw [hother] at hy
    cases hy

theorem minuteOut_states (h : s.minuteOut r x = true) :
    ((s.dryer.bed x).state = .adsorbing ∨ takenIn s r x = true) ∧ standsFree s r (otherBed x) = true := by
  have hswitch := (minuteOut_iff hd x).mp h
  exact ⟨((cycled_state hd x).1).mp hswitch.1, (((cycled_state hd _).2).mp hswitch.2.2).1⟩

/-- A bed that neither serves nor stands free keeps to its own phase. -/
theorem minute_busy (hads : (s.dryer.bed x).state ≠ .adsorbing) (hfree : standsFree s r x = false) :
    (dryerMinute r s).dryer.bed x = s.minuteBed r x ∧ s.minuteOut r x = false := by
  have htaken : takenIn s r x = false := by
    cases h : takenIn s r x
    · rfl
    · rw [takenIn_free h] at hfree
      cases hfree
  have hout : s.minuteOut r x = false := by
    cases h : s.minuteOut r x
    · rfl
    · rcases (minuteOut_states hd h).1 with h' | h'
      · exact absurd h' hads
      · rw [htaken] at h'
        cases h'
  have hin : s.minuteOut r (otherBed x) = false := by
    cases h : s.minuteOut r (otherBed x)
    · rfl
    · have := (minuteOut_states hd h).2
      rw [otherBed_otherBed, hfree] at this
      cases this
  rw [minute_kept hd hout hin, State.cycled_bed hd, if_neg (by rw [htaken]; decide)]
  exact ⟨rfl, hout⟩

/-- A bed in service, or taken in, serves on unless it is switched out. -/
theorem minute_serving (hout : s.minuteOut r x = false) (hserves : (s.dryer.bed x).state = .adsorbing ∨ takenIn s r x = true) :
    ((dryerMinute r s).dryer.bed x).state = .adsorbing := by
  have hstate := ((cycled_state hd x).1).mpr hserves
  have hin : s.minuteOut r (otherBed x) = false := by
    cases h : s.minuteOut r (otherBed x)
    · rfl
    · have hswitch := ((minuteOut_iff hd _).mp h).2.2
      rw [otherBed_otherBed, hstate] at hswitch
      cases hswitch
  rw [minute_kept hd hout hin, hstate]

/-- Of the record that the phases leave, the switch and the taking in move the state, and a switch out the timer. -/
theorem minute_record (x : Bed) : (dryerMinute r s).dryer.bed x = { s.minuteBed r x with
      state := ((dryerMinute r s).dryer.bed x).state, phaseTimer := ((dryerMinute r s).dryer.bed x).phaseTimer }
    ∧ (s.minuteOut r x = false → ((dryerMinute r s).dryer.bed x).phaseTimer = (s.minuteBed r x).phaseTimer) := by
  have hcycled : (s.cycled r).dryer.bed x = { s.minuteBed r x with state := ((s.cycled r).dryer.bed x).state } := by
    rw [State.cycled_bed hd]
    split <;> rfl
  by_cases hout : s.minuteOut r x = true
  · rw [(minute_out hd hout).1, hcycled]
    exact ⟨rfl, fun h => by rw [hout] at h; cases h⟩
  · by_cases hin : s.minuteOut r (otherBed x) = true
    · have := (minute_out hd hin).2
      rw [otherBed_otherBed] at this
      rw [this, hcycled]
      exact ⟨rfl, fun _ => rfl⟩
    · rw [minute_kept hd (by simpa using hout) (by simpa using hin), hcycled]
      exact ⟨rfl, fun _ => rfl⟩

end

/-! ### A bed's record by its state -/

theorem minuteBed_of_phase (hheat : heatingEnds s r x = false) (hcool : coolingEnds s r x = false) :
    s.minuteBed r x = heated r (watered s r (s.dryer.bed x)) := by
  rw [State.minuteBed, ended, if_neg (by rw [hheat]; decide), if_neg (by rw [hcool]; decide)]

theorem minuteBed_adsorbing (h : (s.dryer.bed x).state = .adsorbing) : s.minuteBed r x = watered s r (s.dryer.bed x) := by
  rw [minuteBed_of_phase (by simp [heatingEnds, h]) (by simp [coolingEnds, h]), heated, watered_state, h,
    if_neg (by decide)]

theorem minuteBed_heating (h : (s.dryer.bed x).state = .heating) : s.minuteBed r x = { s.dryer.bed x with
    accumulator := (s.dryer.bed x).accumulator + r.heaterWh, state := if heatingEnds s r x then .cooling else .heating
    phaseTimer := if heatingEnds s r x then some 0 else (s.dryer.bed x).phaseTimer } := by
  have hcool : coolingEnds s r x = false := by simp [coolingEnds, h]
  have hcore : heated r (watered s r (s.dryer.bed x))
      = { s.dryer.bed x with accumulator := (s.dryer.bed x).accumulator + r.heaterWh } := by
    simp [heated, watered, h]
  rw [State.minuteBed, hcore, ended, hcool]
  cases heatingEnds s r x
  · simp [h]
  · rfl

theorem minuteBed_cooled (hcool : coolingEnds s r x = true) : s.minuteBed r x = rested (s.dryer.bed x) := by
  rw [State.minuteBed, ended_of_cooled hcool, heated, watered_state, watered, coolingEnds_state hcool,
    if_neg (by decide), if_neg (by simp)]

theorem minuteBed_idle (hads : (s.dryer.bed x).state ≠ .adsorbing) (hheat : (s.dryer.bed x).state ≠ .heating)
    (hcool : coolingEnds s r x = false) : s.minuteBed r x = s.dryer.bed x := by
  rw [minuteBed_of_phase (by simp [heatingEnds, hheat]) hcool, heated, watered_state, if_neg hheat, watered,
    if_neg fun h => hads h.1]

/-! ### The fields handed (R132) -/

theorem handFields_spec (f : Setpoint → Setpoint) :
    (handFields f s).intake = s.intake.handing (handFields f s).intake
      ∧ ((handFields f s).intake.handed = s.intake.handed → (handFields f s).intake = s.intake)
      ∧ ((handFields f s).intake.handed ≠ s.intake.handed → s.train.mode ≠ .config →
        (s.intake.sending = none → (handFields f s).intake.sending = some (handFields f s).intake.handed)
        ∧ (s.intake.sending ≠ none → (handFields f s).intake.sendAgain = true)) := by
  rw [handFields_handed]
  unfold handFields
  by_cases hsame : f s.intake.handed = s.intake.handed
  · rw [if_pos hsame]
    exact ⟨rfl, fun _ => rfl, fun h => absurd hsame h⟩
  · rw [if_neg hsame]
    unfold requestSetpoint
    split
    · next hmode => exact ⟨rfl, fun h => absurd h hsame, fun _ h => absurd hmode h⟩
    · next hmode =>
      rcases hsend : s.intake.sending with - | x <;> simp [Intake.handing, hsend, hsame]

/-! ### The water content (R109) -/

theorem largestContent_le (table : List (Int × Nat)) (m : Nat) :
    m ≤ table.foldl (fun m p => max m p.2) m ∧ (∀ p ∈ table, p.2 ≤ table.foldl (fun m p => max m p.2) m)
      ∧ (table.foldl (fun m p => max m p.2) m = m ∨ ∃ p ∈ table, p.2 = table.foldl (fun m p => max m p.2) m) := by
  induction table generalizing m with
  | nil => exact ⟨le_rfl, by simp, .inl rfl⟩
  | cons q rest ih =>
    obtain ⟨hlow, hall, hreached⟩ := ih (max m q.2)
    rw [List.foldl_cons]
    refine ⟨by omega, fun p hp => ?_, ?_⟩
    · rcases List.mem_cons.mp hp with rfl | hp
      · omega
      · exact hall p hp
    · rcases hreached with hsame | ⟨p, hp, heq⟩
      · rcases Nat.le_total m q.2 with hle | hle
        · exact .inr ⟨q, List.mem_cons_self, by omega⟩
        · exact .inl (by omega)
      · exact .inr ⟨p, List.mem_cons_of_mem _ hp, heq⟩

theorem tableContent_none {table : List (Int × Nat)} (hne : table ≠ []) :
    (∀ p ∈ table, p.2 ≤ tableContent table none) ∧ ∃ p ∈ table, p.2 = tableContent table none := by
  obtain ⟨-, hall, hreached⟩ := largestContent_le table 0
  refine ⟨hall, ?_⟩
  rcases hreached with hzero | hreached
  · obtain ⟨p, hp⟩ := List.exists_mem_of_ne_nil table hne
    have hle := hall p hp
    exact ⟨p, hp, by change p.2 = table.foldl (fun m p => max m p.2) 0; omega⟩
  · exact hreached

/-! ### Behind the switch -/

/-- The state after the switch. -/
def State.switched (s : State) (r : Interval) : State := dryerSwitch (s.cycled r)

theorem State.switched_frame : (s.switched r).cfg = s.cfg ∧ (s.switched r).mon = (s.cycled r).mon
    ∧ (s.switched r).acct = (s.cycled r).acct := by
  refine ⟨?_, by simp [State.switched], by simp [State.switched]⟩
  rw [← (State.cycled_frame (s := s) (r := r)).2]
  simp [State.switched, State.cfg]

theorem dryerMinute_limited : (dryerMinute r s).dryer = (dryerLimitStep r (s.switched r)).dryer
    ∧ (dryerMinute r s).mon = (dryerLimitStep r (s.switched r)).mon
    ∧ (dryerMinute r s).acct = (s.cycled r).acct := by
  rw [dryerMinute_eq]
  exact ⟨by simp only [handDryer_frame, State.switched], by simp only [handDryer_frame, State.switched],
    by simp only [handDryer_frame, dryerLimitStep_frame, dryerSwitch_frame]⟩

theorem State.switched_water : intervalWater (s.switched r) r = intervalWater s r := by
  rw [intervalWater, intervalWater, State.switched_frame.1]

/-- The limit of the minute's end, by the beds as the minute leaves them. -/
theorem minute_limit : (dryerMinute r s).dryer.limit
    = (dryerLimit s.cfg.dryer (dryerMinute r s).dryer (intervalWater s r) r.cv).1
    ∧ (dryerMinute r s).dryer.dryBlock = decide ((dryerMinute r s).dryer.limit = some 0) := by
  rw [dryerMinute_limited.1, dryerLimitStep_dryer, State.switched_frame.1, State.switched_water]
  exact ⟨rfl, rfl⟩

theorem minute_dewHigh (hd : s.dryer.sound) :
    (dryerMinute r s).dryer.dewHigh = (dewAfter s r && !s.minuteOut r .a && !s.minuteOut r .b) := by
  have hhigh := (State.cycled_rest (r := r) hd).1
  have hsound := s.cycled_sound (r := r) hd
  have hsame : (dryerMinute r s).dryer.dewHigh = (s.switched r).dryer.dewHigh := by
    rw [dryerMinute_limited.1, dryerLimitStep_dryer]
  rw [hsame, State.switched]
  cases ha : s.minuteOut r .a with
  | true => rw [dryerSwitch_dewHigh hsound ((minuteOut_iff hd .a).mp ha)]; simp
  | false =>
    cases hb : s.minuteOut r .b with
    | true => rw [dryerSwitch_dewHigh hsound ((minuteOut_iff hd .b).mp hb)]; simp
    | false =>
      rw [dryerSwitch_kept fun x hx => ?_, hhigh]
      · simp
      · rw [← minuteOut_iff hd] at hx
        cases x
        · rw [ha] at hx; cases hx
        · rw [hb] at hx; cases hx

theorem minute_books (hd : s.dryer.sound) (hs : s.stocked) :
    (dryerMinute r s).inventories.sum = s.inventories.sum - (s.idleFuel r + s.phaseCharge r .a + s.phaseCharge r .b : Nat)
      ∧ (dryerMinute r s).mon.sumHeater = s.mon.sumHeater + (s.idleFuel r + s.phaseCharge r .a + s.phaseCharge r .b)
      ∧ (dryerMinute r s).dryer.idleCarry = (if s.dryer.heating = none then (r.heaterWh + s.dryer.idleCarry) % 1000
        else s.dryer.idleCarry) := by
  obtain ⟨hsum, hheater⟩ := State.cycled_books (r := r) hd hs
  obtain ⟨-, hcarry, -⟩ := State.cycled_rest (r := r) hd
  obtain ⟨hdryer, hmon, hacct⟩ := dryerMinute_limited (s := s) (r := r)
  refine ⟨?_, ?_, ?_⟩
  · rw [inventories_of_slots (s := s.cycled r) (by rw [hacct]), hsum]
  · rw [hmon, ← hheater, ← State.switched_frame.2.1]
    simp only [dryerLimitStep_frame]
  · rw [hdryer, dryerLimitStep_dryer, ← hcarry]
    exact dryerSwitch_rest.1

theorem minute_raises_dewHigh (hm : s.mon.sized) :
    (s.dryer.dewHigh = false ∧ dewAfter s r = true → raisedOnce .dewHigh s (dryerMinute r s))
      ∧ (¬ (s.dryer.dewHigh = false ∧ dewAfter s r = true) → notRaised .dewHigh s (dryerMinute r s)) := by
  obtain ⟨hraised, hquiet⟩ := State.cycled_dewHigh (r := r) hm
  have hdew : (dryerMinute r s).mon.reading .dewHigh = (s.cycled r).mon.reading .dewHigh := by
    rw [dryerMinute_limited.2.1, dryerLimitStep_reading (by decide) (by decide), State.switched_frame.2.1]
  exact ⟨fun h => raisedOnce_of_reading (hraised h) hdew, fun h => notRaised_iff.mpr (hdew.trans (hquiet h))⟩

theorem minute_raises_dryBlock (hd : s.dryer.sound) (hm : s.mon.sized) :
    (s.dryer.dryBlock = false ∧ (dryerMinute r s).dryer.dryBlock = true → raisedOnce .dryBlock s (dryerMinute r s))
      ∧ (¬ (s.dryer.dryBlock = false ∧ (dryerMinute r s).dryer.dryBlock = true) →
        notRaised .dryBlock s (dryerMinute r s)) := by
  obtain ⟨hdryer, hmon, -⟩ := dryerMinute_limited (s := s) (r := r)
  have hbefore : (s.switched r).dryer.dryBlock = s.dryer.dryBlock :=
    dryerSwitch_rest.2.trans (State.cycled_rest hd).2.2
  have hsized : (s.switched r).mon.sized := by
    rw [State.switched_frame.2.1]
    exact State.cycled_sized hm
  have hreading : (s.switched r).mon.reading .dryBlock = s.mon.reading .dryBlock := by
    rw [State.switched_frame.2.1, State.cycled_dryBlock]
  have hsame : (dryerMinute r s).mon.reading .dryBlock = (dryerLimitStep r (s.switched r)).mon.reading .dryBlock := by
    rw [hmon]
  rw [hdryer, ← hbefore]
  constructor
  · rintro ⟨hclear, hset⟩
    exact raisedOnce_of_reading (raisedOnce_of_before (dryerLimitStep_blocks hsized hclear hset) hreading) hsame
  · intro h
    rw [notRaised_iff, hsame, dryerLimitStep_keeps h, hreading]

/-- The valves and the heater are handed as the minute leaves them (R106, R132). -/
theorem minute_handing :
    (dryerMinute r s).intake = s.intake.handing (dryerMinute r s).intake
      ∧ (dryerMinute r s).intake.handed = { s.intake.handed with
          valveA := valveOf (dryerMinute r s).dryer.bedA.state, valveB := valveOf (dryerMinute r s).dryer.bedB.state
          heater := (dryerMinute r s).dryer.heater }
      ∧ ((dryerMinute r s).intake.handed = s.intake.handed → (dryerMinute r s).intake = s.intake)
      ∧ ((dryerMinute r s).intake.handed ≠ s.intake.handed → s.train.mode ≠ .config →
        (s.intake.sending = none → (dryerMinute r s).intake.sending = some (dryerMinute r s).intake.handed)
        ∧ (s.intake.sending ≠ none → (dryerMinute r s).intake.sendAgain = true)) := by
  have hintake : (dryerLimitStep r (s.switched r)).intake = s.intake := by
    simp [State.switched, State.cycled, State.fuelled, State.loaded]
  have htrain : (dryerLimitStep r (s.switched r)).train = s.train := by
    simp [State.switched, State.cycled, State.fuelled, State.loaded]
  have hminute : dryerMinute r s = handDryer (dryerLimitStep r (s.switched r)) := dryerMinute_eq
  obtain ⟨hhanding, hsame, hsent⟩ := handFields_spec (s := dryerLimitStep r (s.switched r)) (fun p => { p with
    valveA := valveOf (dryerLimitStep r (s.switched r)).dryer.bedA.state
    valveB := valveOf (dryerLimitStep r (s.switched r)).dryer.bedB.state
    heater := (dryerLimitStep r (s.switched r)).dryer.heater })
  rw [hintake] at hhanding hsame hsent
  rw [htrain] at hsent
  rw [dryerMinute_limited.1, hminute]
  refine ⟨hhanding, ?_, hsame, hsent⟩
  rw [← hintake]
  exact handFields_handed _ _

/-- Settles O8: the steps of the minute work one after the other, and the two beds behind them. -/
theorem dryerMinuteHolds : Obligations.DryerMinute := by
  unfold Obligations.DryerMinute
  refine ⟨fun s r hs hm hd => ?_, fun table hlen hclimbs => ?_⟩
  · have hstocked : s.stocked := ⟨hs.1, fun x => by cases x; exacts [hs.2.2.1, hs.2.2.2.1]⟩
    have hheat : s.dryer.heating = none ↔ s.dryer.bedA.state ≠ .heating ∧ s.dryer.bedB.state ≠ .heating := by
      rw [heating_eq_none]
      exact ⟨fun h => ⟨h .a, h .b⟩, fun h x => by cases x; exacts [h.1, h.2]⟩
    intro t g w out burnt charge noHeat idle
    have hidle : idle = s.idleFuel r := by simp only [idle, noHeat, State.idleFuel, hheat]
    have hcharge (x : Bed) : charge x = s.phaseCharge r x := rfl
    refine ⟨fun bed => ?_, ?_⟩
    · intro b b'
      obtain ⟨hrecord, htimer⟩ := minute_record (r := r) hd bed
      have hb' : b' = { s.minuteBed r bed with state := b'.state, phaseTimer := b'.phaseTimer } := hrecord
      refine ⟨fun hads => ?_, fun hst => ?_, fun hcool => ?_, fun hst hcool => ?_, fun hst => ?_, fun hst hout => ?_,
        fun hst hout => ?_, fun hout => ?_, fun hout => ⟨?_, ?_⟩⟩
      · have hcore : s.minuteBed r bed = watered s r b := minuteBed_adsorbing hads
        refine ⟨fun hw hv => ?_, fun hno => ?_⟩
        · rw [hb', hcore, watered, if_pos ⟨hads, hw, hv⟩]
          exact ⟨rfl, rfl⟩
        · rw [hb', hcore, watered, if_neg fun h => by
            rcases hno with hno | hno
            · rw [hno] at h; exact absurd h.2.1 (by decide)
            · omega]
          exact ⟨rfl, rfl⟩
      · have hfree : standsFree s r bed = false := by
          simp [standsFree, coolingEnds, show (s.dryer.bed bed).state = _ from hst]
        have hsame : b' = _ := (minute_busy hd (by rw [hst]; decide) hfree).1
        rw [hsame, minuteBed_heating hst]
      · rw [minuteBed_cooled hcool] at hb' htimer
        rw [hb']
        exact ⟨rfl, rfl, rfl, rfl, rfl, fun hout => htimer hout⟩
      · have hfree : standsFree s r bed = false := by simp [standsFree, hcool, show (s.dryer.bed bed).state = _ from hst]
        have hsame : b' = _ := (minute_busy hd (by rw [hst]; decide) hfree).1
        rw [hsame, minuteBed_idle (by rw [hst]; decide) (by rw [hst]; decide) hcool]
      · have hcool : coolingEnds s r bed = false := by simp [coolingEnds, show (s.dryer.bed bed).state = _ from hst]
        have hfree : standsFree s r bed = false := by simp [standsFree, hcool, show (s.dryer.bed bed).state = _ from hst]
        have hsame : b' = _ := (minute_busy hd (by rw [hst]; decide) hfree).1
        rw [hsame, minuteBed_idle (by rw [hst]; decide) (by rw [hst]; decide) hcool]
      · have hcool : coolingEnds s r bed = false := by simp [coolingEnds, show (s.dryer.bed bed).state = _ from hst]
        rw [minuteBed_idle (by rw [hst]; decide) (by rw [hst]; decide) hcool] at hb' htimer
        have ht : b'.phaseTimer = b.phaseTimer := htimer hout
        rw [ht] at hb'
        exact hb'
      · rw [minuteBed_adsorbing hst] at hb' htimer
        have ht : b'.phaseTimer = (watered s r b).phaseTimer := htimer hout
        have hstate : b'.state = b.state := (minute_serving hd hout (.inl hst)).trans hst.symm
        rw [ht, hstate] at hb'
        rw [hb']
        unfold watered
        split <;> rfl
      · obtain ⟨hself, hother⟩ := minute_out hd hout
        have hself' : b' = _ := hself
        rw [hself', hother]
        exact ⟨rfl, rfl, rfl⟩
      · exact minute_serving hd hout
      · intro hfree htaken hin
        have hsame : b' = _ := minute_kept hd hout hin
        rw [hsame]
        exact ((cycled_state hd bed).2).mpr ⟨hfree, htaken⟩
    · obtain ⟨hsum, hheater, hcarry⟩ := minute_books (r := r) hd hstocked
      obtain ⟨hlimit, hblock⟩ := minute_limit (s := s) (r := r)
      have hsound : t.dryer.sound := dryerMinute_sound hd
      rw [hidle, hcharge, hcharge]
      refine ⟨?_, hsum, hheater, minute_dewHigh hd, (minute_raises_dewHigh hm).1, (minute_raises_dewHigh hm).2, fun hno => ?_,
        fun bed hserves => ?_, hblock, (minute_raises_dryBlock hd hm).1, (minute_raises_dryBlock hd hm).2, ?_⟩
      · simp only [← hheat, noHeat]
        exact hcarry
      · refine hlimit.trans ?_
        unfold dryerLimit
        rw [inService_none hsound hno]
      · have hrows := dryerLimit_rows (g := g) (w := w) (cv := r.cv) hsound hserves
        dsimp only at hrows
        rw [← hlimit] at hrows
        exact hrows
      · obtain ⟨hhanding, hhanded, hsame, hsent⟩ := minute_handing (s := s) (r := r)
        exact ⟨by simp [t], by simp [t], by simp [t], by simp [t], by simp [t], hhanding, hhanded, hsame, hsent,
          by simp [t], by simp [t]⟩
  · have hne : table ≠ [] := List.ne_nil_of_length_pos hlen
    obtain ⟨hall, hreached⟩ := tableContent_none hne
    refine ⟨fun x => tableGives_value hclimbs hne, hall, hreached, fun temp pressure => ?_⟩
    cases pressure <;> rfl

end Sys2Proof.Machine
end


section
/-! PROOFS. The mode controller's minute work step by step (R58 to R64, R69, R70): what the direction, the entry, the demand
and its zero make of the train, case by case. -/

namespace Sys2Proof.Machine

open Sys2Proof (Bed Flow Mode)

variable {s u : State} {r : Interval} {f : Flow} {stays : Bool}

/-! ### Step 1: the direction and the dwell (R62, R64) -/

theorem dwellOver_congr (hdwell : u.train.dwell = s.train.dwell) (hcfg : u.cfg = s.cfg) (hclock : u.clock = s.clock) :
    dwellOver u = dwellOver s ∧ dwellLeft u = dwellLeft s := by
  have hover : dwellOver u = dwellOver s := by
    unfold dwellOver elapsed
    rw [hdwell, hcfg, hclock]
  exact ⟨hover, by simp only [dwellLeft, hover, hdwell]⟩

theorem endDwell_kept (h : ¬ (s.train.mode = .reversing ∧ s.train.phase = some .dwell)) :
    (endDwell s).train = { s.train with dwell := dwellLeft s } := by
  unfold endDwell dwellLeft dwellOver
  cases hd : s.train.dwell with
  | none => simp [← hd]
  | some start =>
    simp only [Option.any_some, decide_eq_true_eq]
    split
    · simp [h]
    · rw [← hd]

theorem endDwell_ended (h : s.train.mode = .reversing ∧ s.train.phase = some .dwell) (hover : dwellOver s = true) :
    (endDwell s).train = { s.train with dwell := none, mode := .idle, phase := none, lineup := .closed } := by
  unfold dwellOver at hover
  unfold endDwell
  cases hd : s.train.dwell with
  | none => simp [hd] at hover
  | some start =>
    rw [hd, Option.any_some, decide_eq_true_eq] at hover
    dsimp only
    rw [if_pos hover, State.onTrain_train, if_pos h]

theorem endDwell_running (hover : dwellOver s = false) : endDwell s = s := by
  unfold dwellOver at hover
  unfold endDwell
  cases hd : s.train.dwell with
  | none => rfl
  | some start =>
    rw [hd, Option.any_some, decide_eq_false_iff_not] at hover
    exact if_neg hover

/-- The train behind step 1, its dryer and the mark that the demand stays 0. -/
def State.directed (s : State) (t : Train) (d : Dryer) (stays : Bool) : Prop :=
  (directionStep s).1.train = t ∧ (directionStep s).1.dryer = d ∧ (directionStep s).2 = stays

theorem directionStep_of_moves {m : State × Bool} (hm : reversalMoves s = m)
    (h : ¬ (m.1.train.mode = .reversing ∧ m.1.train.phase = some .dwell)) (hdwell : m.1.train.dwell = s.train.dwell)
    (hcfg : m.1.cfg = s.cfg) (hclock : m.1.clock = s.clock) :
    s.directed { m.1.train with dwell := dwellLeft s } m.1.dryer m.2 := by
  unfold State.directed directionStep
  rw [hm]
  refine ⟨?_, by simp, rfl⟩
  rw [endDwell_kept h, (dwellOver_congr hdwell hcfg hclock).2]

/-- A flowing train against which the hour turns (R62). -/
theorem direction_turns (hm : s.train.mode = flowMode f) (hd : s.nom.hourDir = some (opposite f)) :
    s.directed { s.train with mode := .reversing, phase := some .ramp, dwell := dwellLeft s } s.dryer false := by
  have hmoves : reversalMoves s = (s.onTrain (fun t => { t with mode := .reversing, phase := some .ramp }), false) := by
    unfold reversalMoves
    rw [hm, modeFlow_flowMode]
    exact if_pos hd
  exact directionStep_of_moves hmoves (by simp) rfl rfl rfl

theorem direction_flows (hm : s.train.mode = flowMode f) (hd : s.nom.hourDir ≠ some (opposite f)) :
    s.directed { s.train with dwell := dwellLeft s } s.dryer false := by
  have hmoves : reversalMoves s = (s, false) := by
    unfold reversalMoves
    rw [hm, modeFlow_flowMode]
    exact if_neg hd
  exact directionStep_of_moves hmoves (by simp [hm, (flowMode_ne f).1]) rfl rfl rfl

theorem modeFlow_reversing (hm : s.train.mode = .reversing) : modeFlow s.train.mode = none := by rw [hm]; rfl

/-- The return during the ramp (R62). -/
theorem direction_returns_ramping (hm : s.train.mode = .reversing) (hp : s.train.phase = some .ramp)
    (hl : s.train.lastFlow = some f) (hd : s.nom.hourDir = some f) :
    s.directed { s.train with mode := flowMode f, phase := none, dwell := dwellLeft s }
      (s.dryer.served (decide (s.train.lineup = .withdraw))) false := by
  have hmoves : reversalMoves s = (takeBedIn (s.onTrain (fun t => { t with mode := flowMode f, phase := none })), false) := by
    unfold reversalMoves
    rw [modeFlow_reversing hm, hp, hl]
    exact if_pos ⟨hm, hd⟩
  have hdirected := directionStep_of_moves hmoves (by simp) (by simp) (by simp [State.cfg]) (by simp)
  simp only [takeBedIn_frame, takeBedIn_dryer] at hdirected
  exact hdirected

theorem direction_ramps (hm : s.train.mode = .reversing) (hp : s.train.phase = some .ramp)
    (hl : s.train.lastFlow = some f) (hd : s.nom.hourDir ≠ some f) :
    s.directed { s.train with dwell := dwellLeft s } s.dryer false := by
  have hmoves : reversalMoves s = (s, false) := by
    unfold reversalMoves
    rw [modeFlow_reversing hm, hp, hl]
    exact if_neg fun h => hd h.2
  exact directionStep_of_moves hmoves (by simp [hp]) rfl rfl rfl

/-- The return during the dwell (R64). -/
theorem direction_returns_dwelling (hm : s.train.mode = .reversing) (hp : s.train.phase = some .dwell)
    (hl : s.train.lastFlow = some f) (hd : s.nom.hourDir = some f) :
    s.directed { s.train with mode := flowMode f, phase := none, dwell := none, lineup := flowLineup f, demand := 0 }
      (s.dryer.served (decide (f = .withdraw))) true := by
  have hmoves : reversalMoves s = (takeBedIn (setDemand 0 (s.onTrain (fun t =>
      { t with mode := flowMode f, phase := none, dwell := none, lineup := flowLineup f }))), true) := by
    unfold reversalMoves
    rw [modeFlow_reversing hm, hp, hl]
    exact if_pos ⟨hm, hd⟩

  unfold State.directed directionStep
  rw [hmoves]
  refine ⟨?_, ?_, rfl⟩
  · dsimp only
    rw [endDwell_running (by simp [dwellOver, setDemand])]
    simp [setDemand]
  · simp only [endDwell_frame, takeBedIn_dryer, setDemand_frame, State.onTrain_dryer]
    cases f <;> rfl

theorem reversalMoves_dwelling (hm : s.train.mode = .reversing) (hp : s.train.phase = some .dwell)
    (hd : s.nom.hourDir ≠ s.train.lastFlow) (hl : s.train.lastFlow = some f) : reversalMoves s = (s, false) := by
  unfold reversalMoves
  rw [modeFlow_reversing hm, hp, hl]
  exact if_neg fun h => hd (h.2.trans hl.symm)

/-- The end of the dwell (R64). -/
theorem direction_ends (hm : s.train.mode = .reversing) (hp : s.train.phase = some .dwell)
    (hd : s.nom.hourDir ≠ s.train.lastFlow) (hl : s.train.lastFlow = some f) (hover : dwellOver s = true) :
    s.directed { s.train with dwell := none, mode := .idle, phase := none, lineup := .closed } s.dryer false := by
  unfold State.directed directionStep
  rw [reversalMoves_dwelling hm hp hd hl]
  exact ⟨endDwell_ended ⟨hm, hp⟩ hover, by simp, rfl⟩

theorem direction_dwells (hm : s.train.mode = .reversing) (hp : s.train.phase = some .dwell)
    (hd : s.nom.hourDir ≠ s.train.lastFlow) (hl : s.train.lastFlow = some f) (hover : dwellOver s = false) :
    s.directed s.train s.dryer false := by
  unfold State.directed directionStep
  rw [reversalMoves_dwelling hm hp hd hl]
  dsimp only
  rw [endDwell_running hover]
  exact ⟨rfl, rfl, rfl⟩

/-- A train that neither flows nor reverses. -/
theorem direction_calm (hm : modeFlow s.train.mode = none) (hr : s.train.mode ≠ .reversing) :
    s.directed { s.train with dwell := dwellLeft s } s.dryer false := by
  have hmoves : reversalMoves s = (s, false) := by
    unfold reversalMoves
    rw [hm]
    split
    · next h => cases h
    · exact if_neg fun h => hr h.1
    · exact if_neg fun h => hr h.1
    · rfl
  exact directionStep_of_moves hmoves (fun h => hr h.1) rfl rfl rfl

/-! ### Steps 4 and 5: the demand (R61, R63, R69, R70) -/

theorem demandStep_train : (demandStep stays u).train = { u.train with
    demand := if stays = true ∨ u.demandHeld = true then 0
      else clampDemand u.train.offer u.train.offerDir (rampStep u.cfg.rampRate u.train) } := rfl

theorem clampDemand_inject (offer : Nat) (x : Int) :
    clampDemand offer (some .inject) x = if (offer : Int) < x then (offer : Int) else x := rfl

theorem clampDemand_withdraw (offer : Nat) (x : Int) :
    clampDemand offer (some .withdraw) x = if (offer : Int) < -x then -(offer : Int) else x := rfl

theorem clampDemand_own (offer m : Nat) : clampDemand offer (some f) (signedRate (some f) m) = signedRate (some f) (min m offer) := by
  cases f
  · change clampDemand offer (some .inject) (m : Int) = ((min m offer : Nat) : Int)
    rw [clampDemand_inject]
    split <;> omega
  · change clampDemand offer (some .withdraw) (-(m : Int)) = -((min m offer : Nat) : Int)
    rw [clampDemand_withdraw]
    split <;> omega

theorem clampDemand_against (offer m : Nat) :
    clampDemand offer (some (opposite f)) (signedRate (some f) m) = signedRate (some f) m := by
  cases f
  · change clampDemand offer (some .withdraw) (m : Int) = m
    rw [clampDemand_withdraw]
    exact if_neg (by omega)
  · change clampDemand offer (some .inject) (-(m : Int)) = -(m : Int)
    rw [clampDemand_inject]
    exact if_neg (by omega)

theorem clampDemand_none (x : Int) : clampDemand 0 none x = 0 := by
  unfold clampDemand
  dsimp only
  split
  · rfl
  · omega

theorem signedRate_eq_zero (m : Nat) : signedRate (some f) m = 0 ↔ m = 0 := by cases f <;> simp [signedRate]

/-- The demand and its zero of a flowing train in the hour's direction. -/
theorem finish_flowing (hm : u.train.mode = flowMode f) (hd : u.train.offerDir = some f) (hn : u.nom.hourDir = some f) :
    let d := if stays = true ∨ u.demandHeld = true then 0
      else min (rampToward u.cfg.rampRate u.train.demand.natAbs u.train.share) u.train.offer
    (zeroStep (demandStep stays u)).train = if d = 0 ∧ u.train.share = 0
      then { u.train with demand := 0, mode := .idle, lineup := .closed }
      else { u.train with demand := signedRate (some f) d } := by
  intro d
  have hdemand : (demandStep stays u).train = { u.train with demand := signedRate (some f) d } := by
    rw [demandStep_train]
    simp only [d]
    split
    · cases f <;> rfl
    · rw [hd, rampStep, hm, modeFlow_flowMode]
      dsimp only
      rw [clampDemand_own]
      rfl
  have hnom : (demandStep stays u).nom.hourDir = some f := by rw [← hn]; simp
  unfold zeroStep
  rw [State.onTrain_train, hdemand, hnom]
  dsimp only
  by_cases hzero : d = 0
  · have hrate : signedRate (some f) d = 0 := (signedRate_eq_zero d).mpr hzero
    rw [if_neg (by rw [hrate]; simp), if_neg (by rw [hm]; exact fun h => (flowMode_ne f).1 h.1), hm, modeFlow_flowMode, hrate]
    by_cases hshare : u.train.share = 0
    · rw [if_pos (by simp [hshare]), if_pos ⟨hzero, hshare⟩]
    · rw [if_neg (by simp [hshare]), if_neg (fun h => hshare h.2)]
  · rw [if_pos (fun h => hzero ((signedRate_eq_zero d).mp h)), if_neg (fun h => hzero h.1)]

/-- A flowing train without a direction goes to IDLE (R61). -/
theorem finish_undirected (hm : u.train.mode = flowMode f) (hd : u.train.offerDir = none) (ho : u.train.offer = 0)
    (hn : u.nom.hourDir = none) : (zeroStep (demandStep stays u)).train
      = { u.train with demand := 0, mode := .idle, lineup := .closed } := by
  have hdemand : (demandStep stays u).train = { u.train with demand := 0 } := by
    rw [demandStep_train, hd, ho, clampDemand_none, ite_self]
  have hnom : (demandStep stays u).nom.hourDir = none := by rw [← hn]; simp
  unfold zeroStep
  rw [State.onTrain_train, hdemand, hnom]
  dsimp only
  rw [if_neg (by simp), if_neg (by rw [hm]; exact fun h => (flowMode_ne f).1 h.1), hm, modeFlow_flowMode]
  rfl

/-- A train that ramps down (R62, R63). -/
theorem finish_ramping (hm : u.train.mode = .reversing) (hp : u.train.phase = some .ramp) (hl : u.train.lastFlow = some f)
    (hd : u.train.offerDir = u.nom.hourDir) (hn : u.nom.hourDir ≠ some f) (ho : u.train.offer = 0) :
    let d := if u.demandHeld = true ∨ u.nom.hourDir = none then 0 else u.train.demand.natAbs - u.cfg.rampRate
    (zeroStep (demandStep false u)).train = if d = 0
      then { u.train with demand := 0, phase := some .dwell, lineup := .closed, dwell := some u.clock.index }
      else { u.train with demand := signedRate (some f) d } := by
  intro d
  have hdemand : (demandStep false u).train = { u.train with demand := signedRate (some f) d } := by
    rw [demandStep_train]
    simp only [d, Bool.false_eq_true, false_or]
    by_cases hheld : u.demandHeld = true
    · rw [if_pos hheld, if_pos (.inl hheld)]
      cases f <;> rfl
    · rw [if_neg hheld, rampStep, modeFlow_reversing hm]
      dsimp only
      rw [if_pos ⟨hm, hp⟩, hl, hd]
      cases hdir : u.nom.hourDir with
      | none =>
        rw [if_pos (.inr rfl), ho, clampDemand_none]
        cases f <;> rfl
      | some g =>
        have hg : g = opposite f := by
          rw [hdir] at hn
          cases f <;> cases g <;> simp [opposite] at hn ⊢
        rw [if_neg (by simp [hheld]), hg, clampDemand_against]
  have hclock : (demandStep false u).clock = u.clock := by simp
  unfold zeroStep
  rw [State.onTrain_train, hdemand, hclock]
  dsimp only
  by_cases hzero : d = 0
  · have hrate : signedRate (some f) d = 0 := (signedRate_eq_zero d).mpr hzero
    rw [if_neg (by rw [hrate]; simp), if_pos ⟨hm, hp⟩, if_pos hzero, hrate]
  · rw [if_pos (fun h => hzero ((signedRate_eq_zero d).mp h)), if_neg hzero]

/-- A train that neither flows nor ramps has a demand of 0. -/
theorem finish_calm (hm : modeFlow u.train.mode = none) (hr : ¬ (u.train.mode = .reversing ∧ u.train.phase = some .ramp)) :
    (zeroStep (demandStep stays u)).train = { u.train with demand := 0 } := by
  have hdemand : (demandStep stays u).train = { u.train with demand := 0 } := by
    rw [demandStep_train, rampStep_calm _ hm hr, clampDemand_zero, ite_self]
  unfold zeroStep
  rw [State.onTrain_train, hdemand]
  dsimp only
  rw [if_neg (by simp), if_neg hr, if_neg (by simp [hm])]

end Sys2Proof.Machine
end


section
/-! PROOFS. The offer and the share of a minute (R73 to R80): the least of the limits, what bars an offer, and the fresh
offers of the peers. -/

namespace Sys2Proof.Machine

open Sys2Proof (Bed Flow Mode)

variable {s u : State} {r : Interval} {f : Flow}

/-! ### What the direction's step keeps -/

theorem directionStep_keeps : (directionStep s).1.train.ring = s.train.ring
    ∧ (directionStep s).1.train.lastFlow = s.train.lastFlow ∧ (directionStep s).1.dryer.limit = s.dryer.limit := by
  have hdwell (v : State) : (endDwell v).train.ring = v.train.ring ∧ (endDwell v).train.lastFlow = v.train.lastFlow := by
    unfold endDwell
    split
    · exact ⟨rfl, rfl⟩
    · split
      · rw [State.onTrain_train]
        split <;> exact ⟨rfl, rfl⟩
      · exact ⟨rfl, rfl⟩
  have hmoves : (reversalMoves s).1.train.ring = s.train.ring ∧ (reversalMoves s).1.train.lastFlow = s.train.lastFlow
      ∧ (reversalMoves s).1.dryer.limit = s.dryer.limit := by
    have hserved (d : Dryer) (b : Bool) : (d.served b).limit = d.limit := by
      unfold Dryer.served
      split
      · split <;> simp
      · rfl
    unfold reversalMoves
    repeat' split
    all_goals simp [takeBedIn_dryer, hserved, setDemand]
  unfold directionStep
  dsimp only
  rw [(hdwell _).1, (hdwell _).2]
  simpa using hmoves

/-! ### The limits (R73) -/

theorem leastOf_spec (m : Nat) (limits : List (Option Nat)) : some (leastOf m limits) ∈ some m :: limits
    ∧ ∀ x, some x ∈ some m :: limits → leastOf m limits ≤ x := by
  induction limits generalizing m with
  | nil => exact ⟨List.mem_cons_self, fun x hx => by simp at hx; simp [leastOf, hx]⟩
  | cons l rest ih =>
    cases l with
    | none =>
      have hskip : leastOf m (none :: rest) = leastOf m rest := rfl
      obtain ⟨hmem, hle⟩ := ih m
      rw [hskip]
      refine ⟨?_, fun x hx => hle x ?_⟩
      · rcases List.mem_cons.mp hmem with h | h
        · exact h ▸ List.mem_cons_self
        · exact List.mem_cons_of_mem _ (List.mem_cons_of_mem _ h)
      · simpa using hx
    | some y =>
      have hstep : leastOf m (some y :: rest) = leastOf (min m y) rest := rfl
      obtain ⟨hmem, hle⟩ := ih (min m y)
      rw [hstep]
      have hbest := hle (min m y) List.mem_cons_self
      refine ⟨?_, fun x hx => ?_⟩
      · rcases List.mem_cons.mp hmem with h | h
        · rw [h]
          rcases Nat.le_total m y with hm | hm
          · rw [Nat.min_eq_left hm]
            exact List.mem_cons_self
          · rw [Nat.min_eq_right hm]
            exact List.mem_cons_of_mem _ List.mem_cons_self
        · exact List.mem_cons_of_mem _ (List.mem_cons_of_mem _ h)
      · rcases List.mem_cons.mp hx with h | h
        · cases h
          omega
        · rcases List.mem_cons.mp h with h | h
          · cases h
            omega
          · exact hle x (List.mem_cons_of_mem _ h)

/-! ### What bars an offer (R73) -/

/-- A train that gives no offer in a direction. -/
def Train.bars (t : Train) (f : Flow) : Prop := t.mode = .listen ∨ t.mode = .hold ∨ t.mode = .shutIn ∨ t.mode = .reversing
  ∨ t.dwell ≠ none ∧ t.lastFlow = some (opposite f)

theorem offerBarred_iff : u.offerBarred f = true ↔ u.train.bars f ∨ u.link.state = .silent ∨ u.link.state = .fault := by
  simp only [State.offerBarred, State.dwellAgainst, Train.bars, Bool.or_eq_true, Bool.and_eq_true, decide_eq_true_eq,
    Option.isSome_iff_ne_none, or_assoc]

/-- The train after the direction's step bars no offer in the hour's direction exactly where R73 lets one be. -/
theorem offersIn_iff (hc : s.train.mode ≠ .config) (hs : s.train.lineupSound) (hd : s.nom.hourDir = some f) :
    offersIn s f ↔ ¬ (directionStep s).1.train.bars f ∧ s.link.state ≠ .silent ∧ s.link.state ≠ .fault := by
  unfold offersIn
  rw [← and_assoc, and_congr_left_iff]
  intro _
  have hself : some f ≠ some (opposite f) := by cases f <;> decide
  by_cases hr : s.train.mode = .reversing
  · obtain ⟨g, hg, ⟨hp, -⟩ | ⟨hp, -, -⟩⟩ := (Train.lineupSound_reversing hr).mp hs
    · by_cases hfg : f = g
      · subst hfg
        rw [(direction_returns_ramping hr hp hg hd).1]
        simp [Train.bars, dwellBars, hr, hg, hself, flowMode_ne]
      · have hne : g ≠ f := Ne.symm hfg
        rw [(direction_ramps hr hp hg (by rw [hd]; simpa using hfg)).1]
        simp [Train.bars, hr, hp, hg, hne, (flowMode_ne f).1.symm]
    · by_cases hfg : f = g
      · subst hfg
        rw [(direction_returns_dwelling hr hp hg hd).1]
        simp [Train.bars, dwellBars, hr, hg, hself, flowMode_ne]
      · have hne : g ≠ f := Ne.symm hfg
        have hdir : s.nom.hourDir ≠ s.train.lastFlow := by rw [hd, hg]; simpa using hfg
        cases hover : dwellOver s with
        | true =>
          rw [(direction_ends hr hp hdir hg hover).1]
          simp [Train.bars, dwellBars, dwellLeft, hr, hp, hover]
        | false =>
          rw [(direction_dwells hr hp hdir hg hover).1]
          simp [Train.bars, hr, hg, hne, (flowMode_ne f).1.symm]
  · cases hflow : modeFlow s.train.mode with
    | some g =>
      have hm := modeFlow_eq_some.mp hflow
      by_cases hfg : f = g
      · subst hfg
        rw [(direction_flows hm (by rw [hd]; exact hself)).1]
        simp [Train.bars, dwellBars, hm, flowMode_ne]
      · have hturn : s.nom.hourDir = some (opposite g) := by
          rw [hd]
          cases f <;> cases g <;> simp [opposite] at hfg ⊢
        have hmode : flowMode g ≠ flowMode f := by cases f <;> cases g <;> simp [flowMode] at hfg ⊢
        rw [(direction_turns hm hturn).1]
        simp [Train.bars, hm, hmode, flowMode_ne]
    | none =>
      rw [(direction_calm hflow hr).1]
      have hne : s.train.mode ≠ flowMode f := fun h => by rw [modeFlow_eq_some.mpr h] at hflow; cases hflow
      by_cases hidle : s.train.mode = .idle
      · simp [Train.bars, dwellBars, hidle]
      · have hrest : s.train.mode = .listen ∨ s.train.mode = .hold ∨ s.train.mode = .shutIn := by
          cases hm : s.train.mode <;> simp_all [modeFlow]
        simp only [hidle, hne, hr, Train.bars, false_and, false_or, not_or, false_iff, not_and]
        exact fun hl hh hi => absurd hrest (by simp [hl, hh, hi])

/-! ### The offer of a minute -/

/-- The state behind the direction and the offer. -/
def State.offered (s : State) (r : Interval) : State := offerStep r (directionStep s).1

/-- The limits of R73 with the ring of the minute, before the direction is known to let an offer be. -/
def State.limits (s : State) (r : Interval) (f : Flow) : List (Option Nat) :=
  [envelopeLimit s.cfg f (freshNat r.held.wellhead),
    pressureRateLimit s.cfg f (s.train.ring.take (freshNat r.held.wellhead)) s.train.demand, pathLimit s.cfg s.comp,
    if f = .withdraw then s.dryer.limit else none]

theorem directionStep_demand (hs : s.train.lineupSound) : (directionStep s).1.train.demand = s.train.demand := by
  by_cases hr : s.train.mode = .reversing
  · obtain ⟨g, hg, ⟨hp, -⟩ | ⟨hp, -, hzero⟩⟩ := (Train.lineupSound_reversing hr).mp hs
    · by_cases hd : s.nom.hourDir = some g
      · rw [(direction_returns_ramping hr hp hg hd).1]
      · rw [(direction_ramps hr hp hg hd).1]
    · by_cases hd : s.nom.hourDir = some g
      · rw [(direction_returns_dwelling hr hp hg hd).1, hzero]
      · have hdir : s.nom.hourDir ≠ s.train.lastFlow := by rwa [hg]
        cases hover : dwellOver s with
        | true => rw [(direction_ends hr hp hdir hg hover).1]
        | false => rw [(direction_dwells hr hp hdir hg hover).1]
  · cases hflow : modeFlow s.train.mode with
    | some g =>
      have hm := modeFlow_eq_some.mp hflow
      by_cases hd : s.nom.hourDir = some (opposite g)
      · rw [(direction_turns hm hd).1]
      · rw [(direction_flows hm hd).1]
    | none => rw [(direction_calm hflow hr).1]

theorem pathLimit_congr {m : Image} {c d : Compressor} (hpath : c.path = d.path) (hunit : c.unit = d.unit)
    (hcap : c.capacity = d.capacity) (hstop : c.stopTimer = d.stopTimer) (hstarts : c.starts = d.starts) :
    pathLimit m c = pathLimit m d := by
  unfold pathLimit Compressor.youngStarts
  rw [hpath, hunit, hcap, hstop, hstarts]

theorem State.offered_train : (s.offered r).train = { (directionStep s).1.train with
      ring := s.train.ring.take (freshNat r.held.wellhead), offer := (s.offered r).train.offer
      offerDir := s.nom.hourDir, share := (s.offered r).train.share } := by
  obtain ⟨hring, -, -⟩ := directionStep_keeps (s := s)
  have hdir : (directionStep s).1.nom = s.nom := by simp [directionStep]
  unfold State.offered offerStep
  simp only [State.onTrain_train, State.onTrain_nom, hring, hdir]

/-- The state at the offer's computation. -/
def State.turned (s : State) (r : Interval) : State :=
  (directionStep s).1.onTrain (fun t => { t with ring := t.ring.take (freshNat r.held.wellhead) })

theorem State.turned_frame : (s.turned r).nom = s.nom ∧ (s.turned r).cfg = s.cfg ∧ (s.turned r).clock = s.clock
    ∧ (s.turned r).link = s.link ∧ (s.turned r).peers = s.peers ∧ pathLimit s.cfg (s.turned r).comp = pathLimit s.cfg s.comp := by
  unfold State.turned
  refine ⟨by simp [directionStep], by simp [directionStep, State.cfg], by simp [directionStep], by simp [directionStep],
    by simp [directionStep], ?_⟩
  apply pathLimit_congr <;> simp [directionStep]

/-- The fresh offers of the peers, summed (R80). -/
def State.freshSum (s : State) : Nat := (s.peers.offers.filterMap (freshOffer s)).sum

theorem freshSum_congr (hnom : u.nom = s.nom) (hclock : u.clock = s.clock) (hpeers : u.peers = s.peers) :
    u.freshSum = s.freshSum := by
  have hfresh : freshOffer u = freshOffer s := by
    funext e
    unfold freshOffer elapsed
    rw [hnom, hclock]
  rw [State.freshSum, State.freshSum, hpeers, hfresh]

theorem State.offered_own : (s.offered r).train.offer = offerOf (s.turned r) r
    ∧ (s.offered r).train.share = shareOf (s.offered r).train.offer ((s.offered r).train.offer + s.freshSum) s.nom.target := by
  obtain ⟨hnom, -, hclock, -, hpeers, -⟩ := State.turned_frame (s := s) (r := r)
  rw [← freshSum_congr hnom hclock hpeers, ← hnom]
  exact ⟨rfl, rfl⟩

theorem State.offered_barred (h : s.nom.hourDir = none ∨ ∃ f, s.nom.hourDir = some f
    ∧ ((directionStep s).1.train.bars f ∨ s.link.state = .silent ∨ s.link.state = .fault)) :
    (s.offered r).train.offer = 0 := by
  obtain ⟨hnom, -, -, hlink, -, -⟩ := State.turned_frame (s := s) (r := r)
  rw [State.offered_own.1, offerOf, hnom]
  rcases h with h | ⟨f, h, hbars⟩
  · rw [h]
  · rw [h]
    refine if_pos (offerBarred_iff.mpr ?_)
    rw [hlink]
    exact hbars

theorem State.offered_free (hs : s.train.lineupSound) (hd : s.nom.hourDir = some f)
    (h : ¬ (directionStep s).1.train.bars f) (hl : s.link.state ≠ .silent ∧ s.link.state ≠ .fault) :
    (s.offered r).train.offer = leastOf s.cfg.stationMax (s.limits r f) := by
  obtain ⟨hnom, hcfg, -, hlink, -, hpath⟩ := State.turned_frame (s := s) (r := r)
  have hfree : ¬ (s.turned r).offerBarred f = true := by
    rw [offerBarred_iff, hlink]
    exact fun hx => hx.elim h fun hx => hx.elim hl.1 hl.2
  have hring : (s.turned r).train.ring = s.train.ring.take (freshNat r.held.wellhead) := by
    rw [← (directionStep_keeps (s := s)).1]
    rfl
  have hdemand : (s.turned r).train.demand = s.train.demand := directionStep_demand hs
  have hdry : (s.turned r).dryer.limit = s.dryer.limit := directionStep_keeps.2.2
  rw [State.offered_own.1, offerOf, hnom, hd]
  dsimp only
  rw [if_neg hfree, hcfg, hring, hdemand, hpath, hdry, State.limits]
  cases f <;> rfl

theorem shareOf_spec (own rest target : Nat) :
    shareOf own (own + rest) target = (if own + rest ≤ target then own else target * own / (own + rest))
      ∧ shareOf own (own + rest) target ≤ own ∧ shareOf own (own + rest) target ≤ target := by
  have hshare : shareOf own (own + rest) target = if own + rest ≤ target then own else target * own / (own + rest) := by
    unfold shareOf
    split
    · next h => subst h; simp
    · rfl
  rw [hshare]
  refine ⟨rfl, ?_⟩
  split
  · exact ⟨le_rfl, by omega⟩
  · next h =>
    have hpos : 0 < own + rest := by omega
    constructor
    · exact Nat.div_le_of_le_mul (by nlinarith)
    · exact Nat.div_le_of_le_mul (by nlinarith)

theorem freshSum_eq : s.freshSum = (((s.peers.offers.filterMap (·.entry)).filter
    (fun o => decide (elapsed s o.heard ≤ 180 ∧ o.dir = s.nom.hourDir))).map (·.offer)).sum := by
  unfold State.freshSum
  induction s.peers.offers with
  | nil => rfl
  | cons e rest ih =>
    cases he : e.entry with
    | none => simpa [he, freshOffer] using ih
    | some o =>
      by_cases hf : elapsed s o.heard ≤ 180 ∧ o.dir = s.nom.hourDir
      · simpa [he, freshOffer, hf] using ih
      · simpa [he, freshOffer, hf] using ih

end Sys2Proof.Machine
end


section
/-! PROOFS. The mode controller's minute work as a whole (R58 to R64, R68 to R70, R73 to R80, R82): the train behind it, by
the mode and the hour direction that it starts from. -/

namespace Sys2Proof.Machine

open Sys2Proof (Bed Flow Mode)

variable {s u : State} {r : Interval} {f : Flow} {x : Train} {d : Dryer} {stays : Bool}

/-! ### The five steps put together -/

theorem modeMinute_eq : modeMinute r s = queueOffer (zeroStep (demandStep ((directionStep s).2 || (entryStep (s.offered r)).2)
    (entryStep (s.offered r)).1)) := rfl

theorem modeMinute_blocks : (modeMinute r s).train
      = (zeroStep (demandStep ((directionStep s).2 || (entryStep (s.offered r)).2) (entryStep (s.offered r)).1)).train
    ∧ (modeMinute r s).dryer = (entryStep (s.offered r)).1.dryer := by
  rw [modeMinute_eq]
  exact ⟨by simp only [queueOffer_frame], by simp only [queueOffer_frame, zeroStep_frame, demandStep_frame]⟩

/-- The offer, the share, the hour's direction and the ring are step 2's. -/
def Train.sameOffer (x y : Train) : Prop :=
  x.offer = y.offer ∧ x.share = y.share ∧ x.offerDir = y.offerDir ∧ x.ring = y.ring

theorem entryStep_offer (v : State) : (entryStep v).1.train.sameOffer v.train := by
  unfold entryStep
  split
  · exact ⟨rfl, rfl, rfl, rfl⟩
  · split
    · simp [setDemand, Train.sameOffer]
    · exact ⟨rfl, rfl, rfl, rfl⟩

theorem modeMinute_offer : (modeMinute r s).train.sameOffer (s.offered r).train := by
  have hzero (v : State) (b : Bool) : (zeroStep (demandStep b v)).train.sameOffer v.train := by
    unfold zeroStep
    rw [State.onTrain_train]
    split
    · exact ⟨rfl, rfl, rfl, rfl⟩
    · split
      · exact ⟨rfl, rfl, rfl, rfl⟩
      · split <;> exact ⟨rfl, rfl, rfl, rfl⟩
  rw [modeMinute_blocks.1]
  obtain ⟨ho, hs, hd, hr⟩ := hzero (entryStep (s.offered r)).1 ((directionStep s).2 || (entryStep (s.offered r)).2)
  obtain ⟨ho', hs', hd', hr'⟩ := entryStep_offer (s.offered r)
  exact ⟨ho.trans ho', hs.trans hs', hd.trans hd', hr.trans hr'⟩

theorem entryStep_unentered (h : u.train.mode ≠ .idle) : entryStep u = (u, false) := by
  unfold entryStep
  split
  · rfl
  · exact if_neg fun hmay => h (by
      simp only [State.mayEnter, Bool.and_eq_true, decide_eq_true_eq] at hmay
      exact hmay.1.1.1.1.1)

/-- The train of step 2: the one of step 1 with the minute's offer. -/
def State.withOffer (s : State) (r : Interval) (x : Train) : Train :=
  { x with ring := s.train.ring.take (freshNat r.held.wellhead), offer := (s.offered r).train.offer
           offerDir := s.nom.hourDir, share := (s.offered r).train.share }

theorem State.directed.offered (h : s.directed x d stays) :
    (s.offered r).train = s.withOffer r x ∧ (s.offered r).dryer = d ∧ (directionStep s).2 = stays := by
  obtain ⟨htrain, hdryer, hstays⟩ := h
  refine ⟨?_, ?_, hstays⟩
  · rw [State.offered_train, htrain]
    rfl
  · rw [← hdryer, State.offered]
    simp

theorem State.offered_frame : (s.offered r).nom = s.nom ∧ (s.offered r).cfg = s.cfg ∧ (s.offered r).clock = s.clock
    ∧ (s.offered r).link = s.link ∧ (s.offered r).intake = s.intake ∧ (s.offered r).comp.path = s.comp.path
    ∧ (s.offered r).comp.unit = s.comp.unit := by
  simp [State.offered, directionStep, State.cfg]

/-- A train that step 1 leaves out of IDLE goes on to its demand. -/
theorem State.directed.unentered (h : s.directed x d stays) (hx : x.mode ≠ .idle) :
    (modeMinute r s).train = (zeroStep (demandStep stays (s.offered r))).train ∧ (modeMinute r s).dryer = d := by
  obtain ⟨htrain, hdryer, hstays⟩ := h.offered (r := r)
  have hentry : entryStep (s.offered r) = (s.offered r, false) := entryStep_unentered (by rw [htrain]; exact hx)
  obtain ⟨hminute, hbeds⟩ := modeMinute_blocks (s := s) (r := r)
  rw [hminute, hbeds, hentry, hstays, Bool.or_false]
  exact ⟨rfl, hdryer⟩

/-! ### The demand held at 0 (R70) -/

theorem demandHeld_eq {t : State} (hflow : u.train.mode = flowMode f ∨ u.train.mode = .reversing ∧ u.train.phase = some .ramp)
    (hlineup : u.train.lineup = flowLineup f) (hpath : u.comp.path = s.comp.path) (hunit : u.comp.unit = s.comp.unit)
    (hintake : u.intake = s.intake) (hdryer : u.dryer = t.dryer) : u.demandHeld = heldAtZero s t f := by
  have hmoves : ((modeFlow u.train.mode).isSome
      || (decide (u.train.mode = .reversing) && decide (u.train.phase = some .ramp))) = true := by
    rcases hflow with h | ⟨hm, hp⟩
    · rw [h, modeFlow_flowMode]; rfl
    · simp [hm, hp]
  have hwith : (flowLineup f = .withdraw) ↔ f = .withdraw := by cases f <;> simp [flowLineup]
  have hbeds : t.dryer.adsorbing.isNone = true ↔ t.dryer.bedA.state ≠ .adsorbing ∧ t.dryer.bedB.state ≠ .adsorbing := by
    rw [Option.isNone_iff_eq_none, Dryer.adsorbing_eq_none]
    exact ⟨fun h => ⟨h .a, h .b⟩, fun h x => by cases x; exacts [h.1, h.2]⟩
  unfold State.demandHeld heldAtZero
  rw [hmoves, hlineup, hpath, hunit, hintake, hdryer, Bool.eq_iff_iff]
  simp only [Bool.true_and, Bool.or_eq_true, Bool.and_eq_true, decide_eq_true_eq, hwith, hbeds]

/-! ### The ramp down (R62, R63) -/

theorem minute_ramps (h : s.directed x d false) (hm : x.mode = .reversing) (hp : x.phase = some .ramp)
    (hl : x.lastFlow = some f) (hlineup : x.lineup = flowLineup f) (hlast : x.lastFlow = s.train.lastFlow)
    (hdemand : x.demand = s.train.demand) (hdwell : x.dwell = dwellLeft s) (hn : s.nom.hourDir ≠ some f) :
    rampsDown s (modeMinute r s) f := by
  obtain ⟨hoffered, hbeds, -⟩ := h.offered (r := r)
  obtain ⟨htrain, hdryer⟩ := h.unentered (r := r) (by rw [hm]; decide)
  obtain ⟨hnom, hcfg, hclock, -, hintake, hpath, hunit⟩ := State.offered_frame (s := s) (r := r)
  have hzero : (s.offered r).train.offer = 0 := by
    refine State.offered_barred ?_
    cases hd : s.nom.hourDir with
    | none => exact .inl rfl
    | some g => exact .inr ⟨g, rfl, .inl (by rw [h.1]; exact .inr (.inr (.inr (.inl hm))))⟩
  have hheld : (s.offered r).demandHeld = heldAtZero s (modeMinute r s) f :=
    demandHeld_eq (.inr (by rw [hoffered]; exact ⟨hm, hp⟩)) (by rw [hoffered]; exact hlineup) hpath hunit hintake
      (hbeds.trans hdryer.symm)
  have hfinish := finish_ramping (u := s.offered r) (f := f) (by rw [hoffered]; exact hm) (by rw [hoffered]; exact hp)
    (by rw [hoffered]; exact hl) (by rw [hoffered, hnom]; rfl) (by rw [hnom]; exact hn) hzero
  dsimp only at hfinish
  rw [← htrain, hheld, hnom, hcfg, hclock, hoffered] at hfinish
  simp only [State.withOffer, hdemand] at hfinish
  unfold rampsDown
  dsimp only
  generalize (if heldAtZero s (modeMinute r s) f = true ∨ s.nom.hourDir = none then 0
    else s.train.demand.natAbs - s.cfg.rampRate) = step at hfinish ⊢
  by_cases hstep : step = 0
  · rw [if_pos hstep] at hfinish
    rw [hfinish, hstep]
    exact ⟨hm, by cases f <;> rfl, hlast, fun _ => ⟨rfl, rfl, rfl⟩, fun hpos => absurd hpos (Nat.lt_irrefl 0)⟩
  · rw [if_neg hstep] at hfinish
    rw [hfinish]
    exact ⟨hm, rfl, hlast, fun hx => absurd hx hstep, fun _ => ⟨hp, hlineup, hdwell⟩⟩

/-! ### Flowing (R61, R69) -/

theorem minute_flows (h : s.directed x d stays) (hm : x.mode = flowMode f) (hp : x.phase = none)
    (hlineup : x.lineup = flowLineup f) (hlast : x.lastFlow = s.train.lastFlow)
    (hdemand : stays = false → x.demand = s.train.demand) (hdwell : x.dwell = if stays then none else dwellLeft s)
    (hn : s.nom.hourDir = some f) : flowsOn s (modeMinute r s) f stays := by
  obtain ⟨hoffered, hbeds, -⟩ := h.offered (r := r)
  obtain ⟨htrain, hdryer⟩ := h.unentered (r := r) (by rw [hm]; exact (flowMode_ne f).2.1)
  obtain ⟨hnom, hcfg, -, -, hintake, hpath, hunit⟩ := State.offered_frame (s := s) (r := r)
  obtain ⟨hoffer, hshare, -, -⟩ := modeMinute_offer (s := s) (r := r)
  have hheld : (s.offered r).demandHeld = heldAtZero s (modeMinute r s) f :=
    demandHeld_eq (.inl (by rw [hoffered]; exact hm)) (by rw [hoffered]; exact hlineup) hpath hunit hintake
      (hbeds.trans hdryer.symm)
  have hfinish := finish_flowing (u := s.offered r) (f := f) (stays := stays) (by rw [hoffered]; exact hm)
    (by rw [hoffered]; exact hn) (by rw [hnom]; exact hn)
  dsimp only at hfinish
  rw [← htrain, hheld, hcfg, ← hoffer, ← hshare, hoffered] at hfinish
  have hrate : (if stays = true ∨ heldAtZero s (modeMinute r s) f = true then 0
        else min (rampToward s.cfg.rampRate (s.withOffer r x).demand.natAbs (modeMinute r s).train.share)
          (modeMinute r s).train.offer)
      = if (stays || heldAtZero s (modeMinute r s) f) = true then 0
        else min (rampToward s.cfg.rampRate s.train.demand.natAbs (modeMinute r s).train.share)
          (modeMinute r s).train.offer := by
    cases hstays : stays with
    | true => simp
    | false =>
      rw [show (s.withOffer r x).demand = s.train.demand from hdemand hstays]
      simp
  rw [hrate] at hfinish
  unfold flowsOn
  dsimp only
  generalize (if (stays || heldAtZero s (modeMinute r s) f) = true then 0
        else min (rampToward s.cfg.rampRate s.train.demand.natAbs (modeMinute r s).train.share)
          (modeMinute r s).train.offer) = d at hfinish ⊢
  by_cases hrest : d = 0 ∧ (modeMinute r s).train.share = 0
  · rw [if_pos hrest] at hfinish
    refine ⟨?_, ?_, ?_, ?_, fun _ => ?_, fun hx => absurd hrest hx⟩
    · rw [hfinish, hrest.1]
      cases f <;> rfl
    · rw [hfinish]
      exact hp
    · rw [hfinish]
      exact hlast
    · rw [hfinish]
      exact hdwell
    · rw [hfinish]
      exact ⟨rfl, rfl⟩
  · rw [if_neg hrest] at hfinish
    refine ⟨?_, ?_, ?_, ?_, fun hx => absurd hx hrest, fun _ => ?_⟩
    · rw [hfinish]
    · rw [hfinish]
      exact hp
    · rw [hfinish]
      exact hlast
    · rw [hfinish]
      exact hdwell
    · rw [hfinish]
      exact ⟨hm, hlineup⟩

end Sys2Proof.Machine
end


section
/-! PROOFS. The minute of a train that rests, waits or starts to flow (R58 to R61, R64, R70). -/

namespace Sys2Proof.Machine

open Sys2Proof (Bed Flow Mode)

variable {s u : State} {r : Interval} {f : Flow} {x : Train} {d : Dryer} {stays : Bool}

/-! ### Rest -/

theorem rests_of_idle {y : Train} (h : (modeMinute r s).train = { s.withOffer r y with demand := 0, mode := .idle, lineup := .closed })
    (hp : y.phase = none) (hlast : y.lastFlow = s.train.lastFlow) (hdwell : y.dwell = dwellLeft s) :
    rests s (modeMinute r s) := by
  unfold rests
  rw [h]
  exact ⟨rfl, hp, rfl, rfl, hlast, hdwell⟩

/-- A flowing train without a direction (R61). -/
theorem minute_undirected (hm : s.train.mode = flowMode f) (hp : s.train.phase = none) (hn : s.nom.hourDir = none) :
    rests s (modeMinute r s) := by
  have h := direction_flows hm (by rw [hn]; simp)
  obtain ⟨hoffered, -, -⟩ := h.offered (r := r)
  obtain ⟨htrain, -⟩ := h.unentered (r := r) (fun hx => (flowMode_ne f).2.1 (hm.symm.trans hx))
  have hfinish := finish_undirected (u := s.offered r) (f := f) (stays := false) (by rw [hoffered]; exact hm)
    (by rw [hoffered]; exact hn) (State.offered_barred (.inl hn)) (by rw [State.offered_frame.1]; exact hn)
  rw [← htrain, hoffered] at hfinish
  exact rests_of_idle hfinish hp rfl rfl

/-- A train that step 1 leaves neither in IDLE, nor flowing, nor in its ramp, waits with a demand of 0. -/
theorem minute_waits (h : s.directed x d stays) (hidle : x.mode ≠ .idle) (hm : modeFlow x.mode = none)
    (hr : ¬ (x.mode = .reversing ∧ x.phase = some .ramp)) :
    (modeMinute r s).train = { s.withOffer r x with demand := 0 } := by
  obtain ⟨hoffered, -, -⟩ := h.offered (r := r)
  obtain ⟨htrain, -⟩ := h.unentered (r := r) hidle
  rw [htrain, finish_calm (by rw [hoffered]; exact hm) (by rw [hoffered]; exact hr), hoffered]

/-! ### Starting to flow (R60) -/

theorem Dryer.served_adsorbs (h : d.adsorbing.isSome || d.standbyBed.isSome) :
    (d.served true).bedA.state = .adsorbing ∨ (d.served true).bedB.state = .adsorbing := by
  have hbed (y : Bed) (e : Dryer) (hy : (e.bed y).state = .adsorbing) :
      e.bedA.state = .adsorbing ∨ e.bedB.state = .adsorbing := by
    cases y
    exacts [.inl hy, .inr hy]
  unfold Dryer.served
  cases hads : d.adsorbing with
  | some y => exact hbed y d (Dryer.adsorbing_eq_some hads)
  | none =>
    cases hstandby : d.standbyBed with
    | none => simp [hads, hstandby] at h
    | some y => exact hbed y _ (by simp)

theorem Dryer.ready_iff : (d.adsorbing.isSome || d.standbyBed.isSome) = true
    ↔ ∃ bed, (d.bed bed).state = .standby ∨ (d.bed bed).state = .adsorbing := by
  unfold Dryer.adsorbing Dryer.standbyBed
  constructor
  · intro h
    by_contra hnone
    have hbed (y : Bed) : (d.bed y).state ≠ .standby ∧ (d.bed y).state ≠ .adsorbing := not_or.mp (not_exists.mp hnone y)
    obtain ⟨ha, ha'⟩ : d.bedA.state ≠ .standby ∧ d.bedA.state ≠ .adsorbing := hbed .a
    obtain ⟨hb, hb'⟩ : d.bedB.state ≠ .standby ∧ d.bedB.state ≠ .adsorbing := hbed .b
    simp [ha, ha', hb, hb'] at h
  · rintro ⟨y, hy | hy⟩ <;> cases y <;> simp only [Dryer.bed] at hy <;> simp [hy] <;> split <;> simp

/-- The train in IDLE behind step 1, and the dryer of the minute's start. -/
structure State.idles (s : State) (x : Train) : Prop where
  directed : s.directed x s.dryer false
  mode : x.mode = .idle
  phase : x.phase = none
  lineup : x.lineup = .closed
  lastFlow : x.lastFlow = s.train.lastFlow
  dwell : x.dwell = dwellLeft s

theorem State.idles.mayEnter_iff (h : s.idles x) (hn : s.nom.hourDir = some f) :
    (s.offered r).mayEnter f = true ↔ mayEnterNow s (modeMinute r s) f := by
  obtain ⟨hoffered, hbeds, -⟩ := h.directed.offered (r := r)
  obtain ⟨hnom, -, -, hlink, -, -, -⟩ := State.offered_frame (s := s) (r := r)
  obtain ⟨-, hshare, -, -⟩ := modeMinute_offer (s := s) (r := r)
  have hagainst : (s.offered r).dwellAgainst f = true ↔ dwellBars s f := by
    unfold State.dwellAgainst dwellBars
    rw [hoffered, Bool.and_eq_true, decide_eq_true_eq, Option.isSome_iff_ne_none]
    simp only [State.withOffer, h.dwell, h.lastFlow]
  have hmode : (s.offered r).train.mode = .idle := by rw [hoffered]; exact h.mode
  unfold State.mayEnter mayEnterNow
  rw [hmode, hnom, hlink, hbeds, hshare, hn, ← hagainst, ← Dryer.ready_iff]
  cases f <;> simp [List.isEmpty_iff, and_assoc]

/-- A train that stays in IDLE. -/
theorem State.idles.rests (h : s.idles x) (hstay : entryStep (s.offered r) = (s.offered r, false)) :
    rests s (modeMinute r s) := by
  obtain ⟨hoffered, -, hstays⟩ := h.directed.offered (r := r)
  have hmode : (s.offered r).train.mode = .idle := by rw [hoffered]; exact h.mode
  obtain ⟨hminute, -⟩ := modeMinute_blocks (s := s) (r := r)
  rw [hstay, hstays, finish_calm (by rw [hmode]; rfl) (by rw [hmode]; exact fun hx => by cases hx.1), hoffered] at hminute
  unfold Machine.rests
  rw [hminute]
  exact ⟨h.mode, h.phase, h.lineup, rfl, h.lastFlow, h.dwell⟩

theorem State.idles.enters (h : s.idles x) (hn : s.nom.hourDir = some f) (hmay : (s.offered r).mayEnter f = true) :
    enters (modeMinute r s) f := by
  obtain ⟨hoffered, hbeds, hstays⟩ := h.directed.offered (r := r)
  obtain ⟨hnom, -⟩ := State.offered_frame (s := s) (r := r)
  obtain ⟨hshare, hready⟩ : 0 < (s.offered r).train.share
      ∧ (f = .inject ∨ ((s.offered r).dryer.adsorbing.isSome || (s.offered r).dryer.standbyBed.isSome) = true) := by
    simp only [State.mayEnter, Bool.and_eq_true, Bool.or_eq_true, decide_eq_true_eq] at hmay
    obtain ⟨⟨⟨⟨-, hshare⟩, -⟩, -⟩, hready⟩ := hmay
    exact ⟨hshare, by simpa [or_assoc] using hready⟩
  let v := takeBedIn (setDemand 0 ((s.offered r).onTrain (fun t =>
    { t with mode := flowMode f, lineup := flowLineup f, lastFlow := some f, dwell := none })))
  have hentry : entryStep (s.offered r) = (v, true) := by
    unfold entryStep
    rw [hnom, hn]
    exact if_pos hmay
  have hv : v.train = { (s.offered r).train with mode := flowMode f, lineup := flowLineup f, lastFlow := some f
                                                 dwell := none, demand := 0 } := by
    simp [v, setDemand]
  obtain ⟨hminute, hdryer⟩ := modeMinute_blocks (s := s) (r := r)
  have hfinish := finish_flowing (u := v) (f := f) (stays := true) (by rw [hv]) (by rw [hv, hoffered]; exact hn)
    (by simpa [v, hnom] using hn)
  rw [hentry, hstays, Bool.false_or] at hminute
  rw [hentry] at hdryer
  dsimp only at hfinish hminute hdryer
  have hflows (n : Nat) : ¬ (n = 0 ∧ v.train.share = 0) := fun hx =>
    Nat.ne_of_gt hshare (by rw [← hx.2, hv])
  rw [← hminute, if_neg (hflows _), if_pos (.inl rfl), hv] at hfinish
  unfold Machine.enters
  rw [hfinish, hdryer]
  refine ⟨rfl, by rw [hoffered]; exact h.phase, rfl, by cases f <;> rfl, rfl, rfl, fun hf => ?_⟩
  have hserved : v.dryer = (s.offered r).dryer.served true := by
    rw [takeBedIn_dryer, hf]
    rfl
  rw [hserved]
  exact Dryer.served_adsorbs (hready.resolve_left (by rw [hf]; decide))

/-- A train in IDLE behind step 1: it rests without a direction, and enters by the entry test with one. -/
theorem State.idles.minute (h : s.idles x) : (s.nom.hourDir = none → Machine.rests s (modeMinute r s))
    ∧ ∀ f, s.nom.hourDir = some f → (mayEnterNow s (modeMinute r s) f → Machine.enters (modeMinute r s) f)
      ∧ (¬ mayEnterNow s (modeMinute r s) f → Machine.rests s (modeMinute r s)) := by
  refine ⟨fun hn => h.rests ?_, fun f hn => ⟨fun hmay => h.enters hn ((h.mayEnter_iff hn).mpr hmay), fun hmay => h.rests ?_⟩⟩
  · unfold entryStep
    rw [State.offered_frame.1, hn]
  · unfold entryStep
    rw [State.offered_frame.1, hn]
    exact if_neg fun hx => hmay ((h.mayEnter_iff hn).mp hx)

end Sys2Proof.Machine
end


section
/-! PROOFS. The mode controller's minute work settled (R58 to R64, R68 to R70, R73 to R80, R82): what it says of every train,
of the demand and of the OFFER, and the tables of the limits. -/

namespace Sys2Proof.Machine

open Sys2Proof (Bed Flow Mode)

variable {s u : State} {r : Interval} {f : Flow} {stays : Bool}

/-! ### No minute leads back to CONFIG -/

theorem zeroStep_mode (h : u.train.mode ≠ .config) : (zeroStep u).train.mode ≠ .config := by
  unfold zeroStep
  rw [State.onTrain_train]
  split
  · exact h
  · split
    · exact h
    · split
      · simp
      · exact h

theorem entryStep_mode (h : u.train.mode ≠ .config) : (entryStep u).1.train.mode ≠ .config := by
  unfold entryStep
  split
  · exact h
  · next f _ =>
    split
    · simpa [setDemand] using (flowMode_ne f).2.2.1
    · exact h

theorem directionStep_mode (h : s.train.mode ≠ .config) : (directionStep s).1.train.mode ≠ .config := by
  have hmoves : (reversalMoves s).1.train.mode ≠ .config := by
    unfold reversalMoves
    split
    · split
      · simp
      · exact h
    · split <;> simp [h, (flowMode_ne _).2.2.1]
    · split <;> simp [setDemand, h, (flowMode_ne _).2.2.1]
    · exact h
  unfold directionStep endDwell
  dsimp only
  split
  · exact hmoves
  · split
    · rw [State.onTrain_train]
      split
      · simp
      · exact hmoves
    · exact hmoves

theorem modeMinute_mode (h : s.train.mode ≠ .config) : (modeMinute r s).train.mode ≠ .config := by
  rw [modeMinute_blocks.1]
  exact zeroStep_mode (entryStep_mode (u := s.offered r) (directionStep_mode h))

/-! ### The demand and the offer (R69, R73) -/

theorem clampDemand_le (offer : Nat) (x : Int) :
    (f = .inject → clampDemand offer (some f) x ≤ offer) ∧ (f = .withdraw → -clampDemand offer (some f) x ≤ offer) := by
  constructor
  · rintro rfl
    rw [clampDemand_inject]
    split <;> omega
  · rintro rfl
    rw [clampDemand_withdraw]
    split <;> omega

theorem zeroStep_demand : (zeroStep u).train.demand = u.train.demand := by
  unfold zeroStep
  rw [State.onTrain_train]
  split
  · rfl
  · split
    · rfl
    · split <;> rfl

/-- No demand reaches beyond the offer along the hour's direction. -/
theorem modeMinute_demand (hn : s.nom.hourDir = some f) :
    (f = .inject → (modeMinute r s).train.demand ≤ (modeMinute r s).train.offer)
      ∧ (f = .withdraw → -(modeMinute r s).train.demand ≤ (modeMinute r s).train.offer) := by
  obtain ⟨hoffer, -, -, -⟩ := modeMinute_offer (s := s) (r := r)
  obtain ⟨hentry, -, hdir', -⟩ := entryStep_offer (s.offered r)
  have hown : (s.offered r).train.offerDir = some f := by rw [← hn, State.offered_train]
  rw [hoffer, modeMinute_blocks.1, zeroStep_demand, demandStep_train, hentry, hdir', hown]
  dsimp only
  split
  · exact ⟨fun _ => by omega, fun _ => by omega⟩
  · exact clampDemand_le _ _

/-- No offer and no share without a direction, in LISTEN, HOLD and SHUT_IN, or with the link out of service. -/
theorem modeMinute_unoffered (h : s.nom.hourDir = none ∨ s.train.mode = .listen
    ∨ s.train.mode = .hold ∨ s.train.mode = .shutIn ∨ s.link.state = .fault ∨ s.link.state = .silent) :
    (modeMinute r s).train.offer = 0 := by
  rw [modeMinute_offer.1]
  apply State.offered_barred
  cases hn : s.nom.hourDir with
  | none => exact .inl rfl
  | some f =>
    refine .inr ⟨f, rfl, ?_⟩
    have hcalm (hm : s.train.mode = .listen ∨ s.train.mode = .hold ∨ s.train.mode = .shutIn) :
        (directionStep s).1.train.bars f := by
      rw [(direction_calm (by rcases hm with h | h | h <;> rw [h] <;> rfl) (by rcases hm with h | h | h <;> rw [h] <;> decide)).1]
      exact hm.imp id (Or.imp id .inl)
    rcases h with h | h | h | h | h | h
    · rw [hn] at h
      cases h
    · exact .inl (hcalm (.inl h))
    · exact .inl (hcalm (.inr (.inl h)))
    · exact .inl (hcalm (.inr (.inr h)))
    · exact .inr (.inr h)
    · exact .inr (.inl h)

theorem modeMinute_share : (modeMinute r s).train.share
      = (if (modeMinute r s).train.offer + s.freshSum ≤ s.nom.target then (modeMinute r s).train.offer
          else s.nom.target * (modeMinute r s).train.offer / ((modeMinute r s).train.offer + s.freshSum))
    ∧ (modeMinute r s).train.share ≤ (modeMinute r s).train.offer ∧ (modeMinute r s).train.share ≤ s.nom.target := by
  obtain ⟨hoffer, hshare, -, -⟩ := modeMinute_offer (s := s) (r := r)
  rw [hshare, hoffer, State.offered_own.2]
  exact shareOf_spec _ _ _

/-- The offer is the least of the limits exactly where R73 lets one be. -/
theorem modeMinute_limits (hc : s.train.mode ≠ .config) (hs : s.train.lineupSound) (hn : s.nom.hourDir = some f) :
    (offersIn s f → some (modeMinute r s).train.offer ∈ some s.cfg.stationMax :: s.limits r f
        ∧ ∀ x, some x ∈ some s.cfg.stationMax :: s.limits r f → (modeMinute r s).train.offer ≤ x)
      ∧ (¬ offersIn s f → (modeMinute r s).train.offer = 0) := by
  rw [modeMinute_offer.1, offersIn_iff hc hs hn]
  constructor
  · rintro ⟨hbars, hlink⟩
    rw [State.offered_free hs hn hbars hlink]
    exact leastOf_spec _ _
  · intro h
    refine State.offered_barred (.inr ⟨f, hn, ?_⟩)
    by_contra hx
    obtain ⟨hbars, hx⟩ := not_or.mp hx
    exact h ⟨hbars, not_or.mp hx⟩

theorem modeMinute_offer_le (hc : s.train.mode ≠ .config) (hs : s.train.lineupSound) :
    (modeMinute r s).train.offer ≤ s.cfg.stationMax := by
  cases hn : s.nom.hourDir with
  | none => rw [modeMinute_unoffered (.inl hn)]; exact Nat.zero_le _
  | some f =>
    obtain ⟨hin, hout⟩ := modeMinute_limits (r := r) hc hs hn
    by_cases h : offersIn s f
    · exact (hin h).2 _ List.mem_cons_self
    · rw [hout h]
      exact Nat.zero_le _

/-! ### The OFFER (R82) -/

theorem modeMinute_waits (hc : s.train.mode ≠ .config) (hr : s.roomy) : (modeMinute r s).waits
    (.offer (modeMinute r s).train.offerDir (modeMinute r s).train.offer (modeMinute r s).train.share s.nom.target
      (modeMinute r s).train.mode s.comp.unit) := by
  let v := zeroStep (demandStep ((directionStep s).2 || (entryStep (s.offered r)).2) (entryStep (s.offered r)).1)
  have hminute : modeMinute r s = queueOffer v := modeMinute_eq
  have htrain : (modeMinute r s).train = v.train := modeMinute_blocks.1
  obtain ⟨hnom, -, -, hlink, -, -, hunit⟩ := State.offered_frame (s := s) (r := r)
  have hv : v.nom = s.nom ∧ v.link = s.link ∧ v.comp.unit = s.comp.unit := by simp [v, hnom, hlink, hunit]
  have hwaits := enqueue_self_waits v (offerTelegram v) .other (by rw [← htrain]; exact modeMinute_mode hc) (n := 4)
    (by simpa [State.room, hv.2.1] using hr) (by omega)
  have htelegram : offerTelegram v = .offer v.train.offerDir v.train.offer v.train.share s.nom.target v.train.mode s.comp.unit := by
    rw [offerTelegram, hv.1, hv.2.2]
  rw [htrain, hminute, queueOffer, ← htelegram]
  exact hwaits

/-! ### The clauses of the modes -/

/-- A train that turns, or that ramps down already (R62, R63). -/
theorem minute_rampsDown (hs : s.train.lineupSound) (h : s.train.mode = flowMode f ∧ s.nom.hourDir = some (opposite f)
    ∨ s.train.mode = .reversing ∧ s.train.phase = some .ramp ∧ s.train.lastFlow = some f ∧ s.nom.hourDir ≠ some f) :
    rampsDown s (modeMinute r s) f := by
  rcases h with ⟨hm, hn⟩ | ⟨hm, hp, hl, hn⟩
  · obtain ⟨hlineup, -, hlast⟩ := (Train.lineupSound_flow hm).mp hs
    exact minute_ramps (direction_turns hm hn) rfl rfl hlast hlineup rfl rfl rfl (by rw [hn]; cases f <;> decide)
  · obtain ⟨g, hg, ⟨-, hlineup⟩ | ⟨hdwell, -⟩⟩ := (Train.lineupSound_reversing hm).mp hs
    · obtain rfl : f = g := Option.some.inj (hl.symm.trans hg)
      exact minute_ramps (direction_ramps hm hp hl hn) hm hp hl hlineup rfl rfl rfl hn
    · rw [hp] at hdwell
      cases hdwell

/-- A train that flows in the hour's direction, or returns to it during the ramp (R61, R62). -/
theorem minute_flowsOn (hs : s.train.lineupSound) (hn : s.nom.hourDir = some f) (h : s.train.mode = flowMode f
    ∨ s.train.mode = .reversing ∧ s.train.phase = some .ramp ∧ s.train.lastFlow = some f) :
    flowsOn s (modeMinute r s) f false := by
  rcases h with hm | ⟨hm, hp, hl⟩
  · obtain ⟨hlineup, hphase, -⟩ := (Train.lineupSound_flow hm).mp hs
    exact minute_flows (direction_flows hm (by rw [hn]; cases f <;> decide)) hm hphase hlineup rfl (fun _ => rfl) rfl hn
  · obtain ⟨g, hg, ⟨-, hlineup⟩ | ⟨hdwell, -⟩⟩ := (Train.lineupSound_reversing hm).mp hs
    · obtain rfl : f = g := Option.some.inj (hl.symm.trans hg)
      exact minute_flows (direction_returns_ramping hm hp hl hn) rfl rfl hlineup rfl (fun _ => rfl) rfl hn
    · rw [hp] at hdwell
      cases hdwell

/-- A train whose dwell goes on (R64). -/
theorem minute_dwells (hs : s.train.lineupSound) (hm : s.train.mode = .reversing) (hp : s.train.phase = some .dwell)
    (hn : s.nom.hourDir ≠ s.train.lastFlow) (hover : dwellOver s = false) :
    (modeMinute r s).train = { s.train with
      offer := (modeMinute r s).train.offer, share := (modeMinute r s).train.share
      offerDir := (modeMinute r s).train.offerDir, ring := (modeMinute r s).train.ring } := by
  obtain ⟨g, hg, ⟨hramp, -⟩ | ⟨-, -, hzero⟩⟩ := (Train.lineupSound_reversing hm).mp hs
  · rw [hp] at hramp
    cases hramp
  · have hwaits := minute_waits (r := r) (direction_dwells hm hp hn hg hover) (by rw [hm]; decide) (by rw [hm]; rfl)
      (by rw [hp]; exact fun hx => by cases hx.2)
    rw [hwaits, ← hzero]
    rfl

/-- A train in IDLE, or one whose dwell ends, is in IDLE behind step 1 (R64). -/
theorem idles_of (hs : s.train.lineupSound) (h : s.train.mode = .idle ∨ (s.train.mode = .reversing
      ∧ s.train.phase = some .dwell ∧ s.nom.hourDir ≠ s.train.lastFlow ∧ dwellOver s = true)) : ∃ x, s.idles x := by
  rcases h with hm | ⟨hm, hp, hn, hover⟩
  · have hflow : modeFlow s.train.mode = none := by rw [hm]; rfl
    have hrev : s.train.mode ≠ .reversing := by rw [hm]; decide
    obtain ⟨hlineup, -, hphase⟩ := (Train.lineupSound_calm hflow hrev).mp hs
    exact ⟨_, direction_calm hflow hrev, hm, hphase, hlineup, rfl, rfl⟩
  · obtain ⟨g, hg, ⟨hramp, -⟩ | -⟩ := (Train.lineupSound_reversing hm).mp hs
    · rw [hp] at hramp
      cases hramp
    · exact ⟨_, direction_ends hm hp hn hg hover, rfl, rfl, rfl, rfl, by simp [dwellLeft, hover]⟩

/-- A train in LISTEN, HOLD or SHUT_IN. -/
theorem minute_calm (hm : s.train.mode = .listen ∨ s.train.mode = .hold ∨ s.train.mode = .shutIn) :
    (modeMinute r s).train.mode = s.train.mode ∧ (modeMinute r s).train.dwell = dwellLeft s := by
  obtain ⟨hflow, hrev, hidle⟩ : modeFlow s.train.mode = none ∧ s.train.mode ≠ .reversing ∧ s.train.mode ≠ .idle := by
    rcases hm with h | h | h <;> rw [h] <;> decide
  rw [minute_waits (direction_calm hflow hrev) hidle hflow fun hx => hrev hx.1]
  exact ⟨rfl, rfl⟩

/-! ### The tables of the limits (R75, R76, R77) -/

theorem take_some {g : Ring} {n : Nat} (hl : g.places.length = 61) (hw : g.write < 61) :
    (g.take (some n)).places.getD g.write 0 = n
      ∧ (∀ i, i ≠ g.write → (g.take (some n)).places.getD i 0 = g.places.getD i 0)
      ∧ (g.take (some n)).write = (if g.write = 60 then 0 else g.write + 1)
      ∧ (g.take (some n)).count = min 61 (g.count + 1) := by
  refine ⟨?_, fun i hi => ?_, ?_, rfl⟩
  · exact updateAt_getD_self _ _ _ _ (by omega)
  · exact updateAt_getD_of_ne _ _ _ _ _ (Ne.symm hi)
  · change (g.write + 1) % 61 = _
    split <;> omega

theorem pressureRateLimit_eq (m : Image) (f : Flow) (demand : Int) (g : Ring) :
    let newest : Int := g.places.getD ((g.write + 60) % 61) 0
    let oldest : Int := g.places.getD (if g.count = 61 then g.write else 0) 0
    let change : Int := if f = .inject then newest - oldest else oldest - newest
    pressureRateLimit m f g demand = if g.count < 2 ∨ change < ((m.dpMax * (g.count - 1) / 60 : Nat) : Int) then none
      else some (demand.natAbs * 9 / 10) := by
  intro newest oldest change
  have hlimit : pressureRateLimit m f g demand = if g.count < 2 then none
      else if change ≥ ((m.dpMax * (g.count - 1) / 60 : Nat) : Int) then some (demand.natAbs * 9 / 10) else none := by
    cases f <;> rfl
  by_cases hcount : g.count < 2
  · rw [hlimit, if_pos hcount, if_pos (.inl hcount)]
  · rw [hlimit, if_neg hcount]
    by_cases hfast : change < ((m.dpMax * (g.count - 1) / 60 : Nat) : Int)
    · rw [if_neg (by omega), if_pos (.inr hfast)]
    · rw [if_pos (by omega), if_neg (not_or.mpr ⟨hcount, hfast⟩)]

theorem pathLimit_compressed {m : Image} {c : Compressor} (h : c.path = .compressed) :
    pathLimit m c = some (if c.unit = .running ∨ c.unit = .starting ∨ c.unit = .queued
          ∨ c.unit = .stopped ∧ m.minStop * 60 ≤ c.stopTimer ∧ (c.starts.filter (· < 3600)).length < 3
        then c.capacity else 0) := by
  unfold pathLimit
  rw [h]
  dsimp only
  cases hu : c.unit with
  | running | starting | queued | stopping | tripped | lockout => simp
  | stopped =>
    simp only [Image.minStopSeconds, Compressor.youngStarts, reduceCtorEq, false_or, true_and]
    exact (apply_ite some _ _ _).symm

/-- Settles O53: the minute's five steps one by one, and each train by the mode and the hour direction it starts from. -/
theorem minuteRates : Obligations.MinuteRates := by
  refine ⟨fun s r hc hs => ?minute, fun m p => ⟨rfl, rfl, fun f => rfl⟩, fun g => ⟨rfl, fun n hl hw => take_some hl hw⟩,
    pressureRateLimit_eq, fun m c => ⟨fun h => by unfold pathLimit; rw [h], pathLimit_compressed⟩⟩
  case minute =>
    obtain ⟨hshare, hown, htarget⟩ := modeMinute_share (s := s) (r := r)
    obtain ⟨-, -, hdir, hring⟩ := modeMinute_offer (s := s) (r := r)
    rw [State.offered_train] at hdir hring
    rw [freshSum_eq] at hshare
    refine ⟨hdir, modeMinute_offer_le hc hs, hown, htarget, fun h => ?none, fun f hn => ?demand, fun h => (minute_calm h).1,
      modeMinute_lined r hs, by simp, by simp, by simp, fun f => minute_rampsDown hs, fun f => minute_flowsOn hs,
      fun f hn hm hp hl => ?returns, fun f hm hn => ?undirected, fun hm hp hn hover => minute_dwells hs hm hp hn hover,
      fun h => ?idle, fun h => (minute_calm h).2, hring, fun f hn => ?limits, hshare, modeMinute_waits hc, by simp, by simp⟩
    case none =>
      have hzero := modeMinute_unoffered (r := r) h
      exact ⟨hzero, by omega⟩
    case demand =>
      obtain ⟨hi, hw⟩ := modeMinute_demand (r := r) hn
      cases f
      exacts [hi rfl, hw rfl]
    case returns =>
      exact minute_flows (direction_returns_dwelling hm hp hl hn) rfl rfl rfl rfl (fun hx => by cases hx) rfl hn
    case undirected => exact minute_undirected hm ((Train.lineupSound_flow hm).mp hs).2.1 hn
    case idle =>
      obtain ⟨x, hx⟩ := idles_of hs h
      exact hx.minute
    case limits =>
      rw [hring]
      exact modeMinute_limits hc hs hn

end Sys2Proof.Machine
end


section
/-! PROOFS. What the SETPOINT fields last handed and a pending restart mean to the part's work: nothing. Every function that
neither hands fields nor ends an event commutes with putting others in their place. The monitor, the queue, the accounts. -/

namespace Sys2Proof.Machine

open Sys2Proof (Bed Flow Mode)

/-- The state with another intake's handing of SETPOINT fields and another mark of the pending restart. -/
def State.overlaid (s : State) (i : Intake) (b : Bool) : State :=
  { s with intake := s.intake.handing i, link := { s.link with restartPending := b } }

variable {s : State} {i : Intake} {b : Bool}

@[simp] theorem overlaid_frame : (s.overlaid i b).powered = s.powered ∧ (s.overlaid i b).straps = s.straps
    ∧ (s.overlaid i b).station = s.station ∧ (s.overlaid i b).clock = s.clock ∧ (s.overlaid i b).acct = s.acct
    ∧ (s.overlaid i b).nom = s.nom ∧ (s.overlaid i b).peers = s.peers ∧ (s.overlaid i b).train = s.train
    ∧ (s.overlaid i b).comp = s.comp ∧ (s.overlaid i b).dryer = s.dryer ∧ (s.overlaid i b).mon = s.mon
    ∧ (s.overlaid i b).freeDraws = s.freeDraws ∧ (s.overlaid i b).port = s.port ∧ (s.overlaid i b).ext = s.ext ∧ (s.overlaid i b).cfg = s.cfg
    ∧ (s.overlaid i b).link = { s.link with restartPending := b } ∧ (s.overlaid i b).intake = s.intake.handing i := by
  simp [State.overlaid, State.cfg]

@[simp] theorem onBlock_overlaid (f : Clock → Clock) : (s.overlaid i b).onClock f = (s.onClock f).overlaid i b := rfl
@[simp] theorem onAcct_overlaid (f : Accounts → Accounts) : (s.overlaid i b).onAcct f = (s.onAcct f).overlaid i b := rfl
@[simp] theorem onNom_overlaid (f : Nominations → Nominations) : (s.overlaid i b).onNom f = (s.onNom f).overlaid i b := rfl
@[simp] theorem onPeers_overlaid (f : Peers → Peers) : (s.overlaid i b).onPeers f = (s.onPeers f).overlaid i b := rfl
@[simp] theorem onTrain_overlaid (f : Train → Train) : (s.overlaid i b).onTrain f = (s.onTrain f).overlaid i b := rfl
@[simp] theorem onComp_overlaid (f : Compressor → Compressor) : (s.overlaid i b).onComp f = (s.onComp f).overlaid i b := rfl
@[simp] theorem onDryer_overlaid (f : Dryer → Dryer) : (s.overlaid i b).onDryer f = (s.onDryer f).overlaid i b := rfl
@[simp] theorem onMon_overlaid (f : Monitor → Monitor) : (s.overlaid i b).onMon f = (s.onMon f).overlaid i b := rfl
@[simp] theorem onPort_overlaid (f : MemoryPort → MemoryPort) : (s.overlaid i b).onPort f = (s.onPort f).overlaid i b := rfl
@[simp] theorem onExt_overlaid (f : ExternalMemory → ExternalMemory) : (s.overlaid i b).onExt f = (s.onExt f).overlaid i b := rfl

theorem onLink_overlaid (g : Link → Link) (h : ∀ l : Link, g { l with restartPending := b } = { g l with restartPending := b }) :
    (s.overlaid i b).onLink g = (s.onLink g).overlaid i b := by
  unfold State.overlaid State.onLink
  rw [h]

theorem onIntake_overlaid (g : Intake → Intake) (h : ∀ j : Intake, g (j.handing i) = (g j).handing i) :
    (s.overlaid i b).onIntake g = (s.onIntake g).overlaid i b := by
  unfold State.overlaid State.onIntake
  rw [h]

theorem ite_overlaid {p : Prop} [Decidable p] {u v : State} :
    (if p then u else v).overlaid i b = if p then u.overlaid i b else v.overlaid i b := apply_ite (·.overlaid i b) p u v

/-! ### Conditions -/

@[simp] theorem escalated_overlaid (c : Cond) : (s.overlaid i b).escalated c = s.escalated c := rfl
@[simp] theorem fateOf_overlaid (t : Telegram) : fateOf (s.overlaid i b).link t = fateOf s.link t := rfl

@[simp] theorem raiseQuiet_overlaid (c : Cond) (slot : Nat) (v : Int) :
    raiseQuiet c slot v (s.overlaid i b) = (raiseQuiet c slot v s).overlaid i b := by
  unfold raiseQuiet
  rw [ite_overlaid]
  rfl

@[simp] theorem queueConditionReport_overlaid (r : ConditionReport) :
    queueConditionReport r (s.overlaid i b) = (queueConditionReport r s).overlaid i b := by
  unfold queueConditionReport
  rw [fateOf_overlaid]
  cases fateOf s.link (.condition r) with
  | replaced | entered => rfl
  | evicting | refused | dropped => exact raiseQuiet_overlaid _ _ _

@[simp] theorem raise_overlaid (c : Cond) (slot : Nat) (v : Int) :
    raise c slot v (s.overlaid i b) = (raise c slot v s).overlaid i b := by
  unfold raise
  simp only [raiseQuiet_overlaid, escalated_overlaid, overlaid_frame, ite_overlaid, ← queueConditionReport_overlaid]
  rfl

@[simp] theorem tellUnsent_overlaid (o : Owner) (t : Telegram) :
    tellUnsent o t (s.overlaid i b) = (tellUnsent o t s).overlaid i b := by
  unfold tellUnsent
  split <;> rfl

@[simp] theorem raiseDrop_overlaid (t : Telegram) : raiseDrop t (s.overlaid i b) = (raiseDrop t s).overlaid i b := by
  unfold raiseDrop
  rw [ite_overlaid, raiseQuiet_overlaid, raise_overlaid]

@[simp] theorem enqueue_overlaid (t : Telegram) (o : Owner) : enqueue t o (s.overlaid i b) = (enqueue t o s).overlaid i b := by
  have hremove (e : Entry) : (s.overlaid i b).onLink (·.remove e) = (s.onLink (·.remove e)).overlaid i b := rfl
  have henter (u : State) : (u.overlaid i b).onLink (·.enter t o) = (u.onLink (·.enter t o)).overlaid i b := rfl
  unfold enqueue
  rw [ite_overlaid, fateOf_overlaid, overlaid_frame.2.2.2.2.2.2.2.1]
  congr 1
  cases fateOf s.link t with
  | replaced | entered => rfl
  | evicting e => simp only [hremove, tellUnsent_overlaid, raiseDrop_overlaid, henter]
  | refused | dropped => simp only [tellUnsent_overlaid, raiseDrop_overlaid]

end Sys2Proof.Machine
end


section
/-! PROOFS. The accounts, the dryer, the sequencer and the mode controller do not see the SETPOINT fields last handed nor a
pending restart. -/

namespace Sys2Proof.Machine

open Sys2Proof (Bed Flow Mode)

variable {s : State} {i : Intake} {b : Bool}

/-! ### The accounts -/

@[simp] theorem compareSpace_overlaid (n : Nat) : compareSpace (s.overlaid i b) n = (compareSpace s n).overlaid i b := by
  unfold compareSpace
  rw [ite_overlaid, ← raise_overlaid]
  rfl

@[simp] theorem compareSpaces_overlaid (l : List Nat) : compareSpaces l (s.overlaid i b) = (compareSpaces l s).overlaid i b := by
  unfold compareSpaces
  generalize (List.range 17).filter _ = ix
  induction ix generalizing s with
  | nil => rfl
  | cons n rest ih => rw [List.foldl_cons, List.foldl_cons, compareSpace_overlaid, ih]

@[simp] theorem bookEnergy_overlaid (f : Flow) (v h : Nat) (w : List Nat) (x : Option Bed) :
    bookEnergy f v h w x (s.overlaid i b)
      = ((bookEnergy f v h w x s).1, (bookEnergy f v h w x s).2.1, (bookEnergy f v h w x s).2.2.overlaid i b) := by
  cases f <;> simp [bookEnergy, State.inventories, ← ite_overlaid]

@[simp] theorem bookFuel_overlaid (k : FuelKind) (n : Nat) (w : List Nat) :
    bookFuel k n w (s.overlaid i b) = (bookFuel k n w s).overlaid i b := by
  simp [bookFuel, ite_overlaid]

@[simp] theorem bookRegeneration_overlaid (x : Option Bed) (g : Nat) :
    bookRegeneration x g (s.overlaid i b) = (bookRegeneration x g s).overlaid i b := by
  cases x <;> simp [bookRegeneration]

@[simp] theorem bookInterval_overlaid (v h n : Nat) :
    bookInterval v h n (s.overlaid i b) = (bookInterval v h n s).overlaid i b := by
  unfold bookInterval
  simp only [overlaid_frame]
  split
  · simp
  · next stray _ => cases stray <;> simp

@[simp] theorem abandonReports_overlaid : abandonReports (s.overlaid i b) = (abandonReports s).overlaid i b := by
  unfold abandonReports
  dsimp only
  rw [onLink_overlaid _ fun _ => rfl]
  simp only [overlaid_frame]
  split
  · rfl
  · exact raise_overlaid _ _ _

@[simp] theorem closeDay_overlaid (day : Nat) : closeDay day (s.overlaid i b) = (closeDay day s).overlaid i b := by
  unfold closeDay
  rw [abandonReports_overlaid]
  rfl

/-! ### Nominations -/

@[simp] theorem takeNomination_overlaid (slot day hour : Nat) (rate : Int) :
    takeNomination slot day hour rate (s.overlaid i b) = (takeNomination slot day hour rate s).overlaid i b := by
  have hreason : nomReason (s.overlaid i b) slot day hour rate = nomReason s slot day hour rate := rfl
  unfold takeNomination
  rw [hreason]
  cases nomReason s slot day hour rate with
  | none => rfl
  | some reason => exact raise_overlaid _ _ _

@[simp] theorem nominationHour_overlaid : nominationHour (s.overlaid i b) = (nominationHour s).overlaid i b := rfl

/-! ### The dryer -/

@[simp] theorem takeBedIn_overlaid : takeBedIn (s.overlaid i b) = (takeBedIn s).overlaid i b := by
  unfold takeBedIn
  simp only [overlaid_frame]
  split
  · rw [ite_overlaid]
    rfl
  · rfl

@[simp] theorem chargeBed_overlaid (x : Bed) : chargeBed x (s.overlaid i b) = (chargeBed x s).overlaid i b := by
  simp [chargeBed]

@[simp] theorem takeBedOut_overlaid (x : Bed) : takeBedOut x (s.overlaid i b) = (takeBedOut x s).overlaid i b := by
  unfold takeBedOut
  simp only [overlaid_frame, onDryer_overlaid]
  split <;> simp

@[simp] theorem bedFault_overlaid (x : Bed) : bedFault x (s.overlaid i b) = (bedFault x s).overlaid i b := by
  simp [bedFault]

@[simp] theorem dryerWater_overlaid (w : Bool) (r : Interval) :
    dryerWater w r (s.overlaid i b) = (dryerWater w r s).overlaid i b := by
  unfold dryerWater
  simp only [overlaid_frame]
  split
  · rw [ite_overlaid]
    rfl
  · rfl

@[simp] theorem dryerFuel_overlaid (r : Interval) : dryerFuel r (s.overlaid i b) = (dryerFuel r s).overlaid i b := by
  unfold dryerFuel
  simp only [overlaid_frame]
  split
  · rfl
  · simp [ite_overlaid]

@[simp] theorem dryerDew_overlaid (w : Bool) (r : Interval) :
    dryerDew w r (s.overlaid i b) = (dryerDew w r s).overlaid i b := by
  simp [dryerDew, ite_overlaid]

@[simp] theorem dryerPhase_overlaid (x : Bed) (before : BedState) (r : Interval) :
    dryerPhase x before r (s.overlaid i b) = (dryerPhase x before r s).overlaid i b := by
  unfold dryerPhase
  split
  · rfl
  · split <;> simp [ite_overlaid]

@[simp] theorem dryerSwitch_overlaid : dryerSwitch (s.overlaid i b) = (dryerSwitch s).overlaid i b := by
  unfold dryerSwitch
  simp only [overlaid_frame]
  split
  · rfl
  · rw [ite_overlaid]
    rfl

@[simp] theorem dryerLimitStep_overlaid (r : Interval) : dryerLimitStep r (s.overlaid i b) = (dryerLimitStep r s).overlaid i b := by
  have hwater : intervalWater (s.overlaid i b) r = intervalWater s r := rfl
  simp [dryerLimitStep, hwater, ite_overlaid]

/-! ### The sequencer -/

@[simp] theorem wantConditions_overlaid : (s.overlaid i b).wantConditions = s.wantConditions
    ∧ (s.overlaid i b).startWanted = s.startWanted ∧ (s.overlaid i b).stopCalled = s.stopCalled
    ∧ (s.overlaid i b).heldBack = s.heldBack ∧ (s.overlaid i b).demandHeld = s.demandHeld := ⟨rfl, rfl, rfl, rfl, rfl⟩

@[simp] theorem queueCede_overlaid : queueCede (s.overlaid i b) = (queueCede s).overlaid i b := by
  simp [queueCede, ite_overlaid]

@[simp] theorem queueClaim_overlaid : queueClaim (s.overlaid i b) = (queueClaim s).overlaid i b := by
  simp [queueClaim]

@[simp] theorem withdrawClaim_overlaid : withdrawClaim (s.overlaid i b) = (withdrawClaim s).overlaid i b := by
  unfold withdrawClaim
  rw [ite_overlaid]
  rfl

@[simp] theorem cancelTests_overlaid : cancelTests (s.overlaid i b) = (cancelTests s).overlaid i b := by
  simp [cancelTests, ite_overlaid]

@[simp] theorem stopTests_overlaid : stopTests (s.overlaid i b) = (stopTests s).overlaid i b := by
  unfold stopTests
  simp only [overlaid_frame]
  split <;> simp [ite_overlaid]

@[simp] theorem sequencerReact_overlaid : sequencerReact (s.overlaid i b) = (sequencerReact s).overlaid i b := by
  simp [sequencerReact, claimTest, ite_overlaid]

@[simp] theorem countDiscard_overlaid : countDiscard (s.overlaid i b) = (countDiscard s).overlaid i b := rfl

@[simp] theorem addToCopy_overlaid (n : Nat) : addToCopy n (s.overlaid i b) = (addToCopy n s).overlaid i b := rfl

@[simp] theorem takeClaim_overlaid (n : Nat) : takeClaim n (s.overlaid i b) = (takeClaim n s).overlaid i b := by
  simp [takeClaim, ite_overlaid]

@[simp] theorem timeOutStart_overlaid : timeOutStart (s.overlaid i b) = (timeOutStart s).overlaid i b := by
  simp [timeOutStart, ite_overlaid]

@[simp] theorem takeTrip_overlaid : takeTrip (s.overlaid i b) = (takeTrip s).overlaid i b := by
  unfold takeTrip
  simp only [overlaid_frame, onComp_overlaid, raise_overlaid, ← ite_overlaid]
  split <;> simp

@[simp] theorem autoRestart_overlaid : autoRestart (s.overlaid i b) = (autoRestart s).overlaid i b := by
  simp [autoRestart, ite_overlaid]

@[simp] theorem settleAfterReset_overlaid (f : Sys2Proof.Feedback) :
    settleAfterReset f (s.overlaid i b) = (settleAfterReset f s).overlaid i b := by
  cases f <;> rfl

@[simp] theorem startLimitTest_overlaid : startLimitTest (s.overlaid i b) = (startLimitTest s).overlaid i b := by
  simp [startLimitTest, ite_overlaid]

@[simp] theorem sequencerMinute_overlaid (r : Interval) :
    sequencerMinute r (s.overlaid i b) = (sequencerMinute r s).overlaid i b := by
  have hdir : pathDirection (s.overlaid i b) = pathDirection s := rfl
  simp [sequencerMinute, hdir]

/-! ### The mode controller -/

@[simp] theorem setDemand_overlaid (d : Int) : setDemand d (s.overlaid i b) = (setDemand d s).overlaid i b := rfl

@[simp] theorem queueOffer_overlaid : queueOffer (s.overlaid i b) = (queueOffer s).overlaid i b := enqueue_overlaid _ _

@[simp] theorem lowerOffer_overlaid : lowerOffer (s.overlaid i b) = (lowerOffer s).overlaid i b := rfl

@[simp] theorem stopTrain_overlaid (m : Mode) : stopTrain m (s.overlaid i b) = (stopTrain m s).overlaid i b := rfl

@[simp] theorem enterHold_overlaid : enterHold (s.overlaid i b) = (enterHold s).overlaid i b := by simp [enterHold]

@[simp] theorem enterShutIn_overlaid : enterShutIn (s.overlaid i b) = (enterShutIn s).overlaid i b := by simp [enterShutIn]

@[simp] theorem listenTest_overlaid : listenTest (s.overlaid i b) = (listenTest s).overlaid i b := by
  have hsince : (s.overlaid i b).sinceJoin = s.sinceJoin := rfl
  unfold listenTest
  rw [hsince]
  split
  · rfl
  · rw [ite_overlaid]
    rfl

@[simp] theorem enterListen_overlaid : enterListen (s.overlaid i b) = (enterListen s).overlaid i b := by
  unfold enterListen
  simp only [onTrain_overlaid, enterShutIn_overlaid, enterHold_overlaid, listenTest_overlaid, ← ite_overlaid]
  rfl

@[simp] theorem fieldLostMode_overlaid : fieldLostMode (s.overlaid i b) = (fieldLostMode s).overlaid i b := by
  unfold fieldLostMode
  simp only [overlaid_frame]
  split <;> simp

@[simp] theorem endHold_overlaid : endHold (s.overlaid i b) = (endHold s).overlaid i b := by simp [endHold, ite_overlaid]

@[simp] theorem release_overlaid : release (s.overlaid i b) = (release s).overlaid i b := by
  simp [release, ite_overlaid, Intake.handing]

@[simp] theorem applyHold_overlaid : applyHold (s.overlaid i b) = (applyHold s).overlaid i b := by
  simp [applyHold, ite_overlaid]

@[simp] theorem reversalMoves_overlaid : reversalMoves (s.overlaid i b)
    = ((reversalMoves s).1.overlaid i b, (reversalMoves s).2) := by
  unfold reversalMoves
  simp only [overlaid_frame]
  split <;> (try split) <;> simp

@[simp] theorem endDwell_overlaid : endDwell (s.overlaid i b) = (endDwell s).overlaid i b := by
  unfold endDwell
  simp only [overlaid_frame]
  split
  · rfl
  · rw [ite_overlaid]
    rfl

@[simp] theorem offerStep_overlaid (r : Interval) : offerStep r (s.overlaid i b) = (offerStep r s).overlaid i b := rfl

@[simp] theorem entryStep_overlaid : entryStep (s.overlaid i b) = ((entryStep s).1.overlaid i b, (entryStep s).2) := by
  have hmay (f : Flow) : (s.overlaid i b).mayEnter f = s.mayEnter f := rfl
  unfold entryStep
  simp only [overlaid_frame, hmay]
  split
  · rfl
  · split <;> simp

@[simp] theorem demandStep_overlaid (x : Bool) : demandStep x (s.overlaid i b) = (demandStep x s).overlaid i b := rfl

@[simp] theorem zeroStep_overlaid : zeroStep (s.overlaid i b) = (zeroStep s).overlaid i b := rfl

@[simp] theorem modeMinute_overlaid (r : Interval) : modeMinute r (s.overlaid i b) = (modeMinute r s).overlaid i b := by
  simp [modeMinute, directionStep]

end Sys2Proof.Machine
end


section
/-! PROOFS. The intake, the memory port, the reports, the clock and the link do not see the SETPOINT fields last handed nor a
pending restart; those that hand fields themselves hand them from what they find. -/

namespace Sys2Proof.Machine

open Sys2Proof (Bed Flow Mode)

variable {s : State} {i : Intake} {b : Bool}

/-! ### The intake -/

@[simp] theorem suspense_handing (j : Intake) (f : Flow) : (j.handing i).suspense f = j.suspense f := by cases f <;> rfl

@[simp] theorem setSuspense_handing (f : Flow) (r : Option Suspense) :
    (s.overlaid i b).onIntake (fun j => j.setSuspense f r) = (s.onIntake (fun j => j.setSuspense f r)).overlaid i b := by
  cases f <;> rfl

@[simp] theorem raiseCv_overlaid (r : Interval) : raiseCv r (s.overlaid i b) = (raiseCv r s).overlaid i b := by
  unfold raiseCv
  split
  · rfl
  · split <;> simp

@[simp] theorem closeInterval_overlaid : closeInterval (s.overlaid i b) = ((closeInterval s).1, (closeInterval s).2.overlaid i b) := by
  have hself : intervalRecord (s.overlaid i b) = intervalRecord s := rfl
  unfold closeInterval
  dsimp only
  rw [hself, onIntake_overlaid _ fun _ => rfl, raiseCv_overlaid]

@[simp] theorem replyTo_overlaid (o : Owner) (c k a l : Nat) (r : OrderOutcome) :
    replyTo o c k a l r (s.overlaid i b) = (replyTo o c k a l r s).overlaid i b := enqueue_overlaid _ _

@[simp] theorem replyDue_overlaid (d : Due) (r : OrderOutcome) :
    replyDue d r (s.overlaid i b) = (replyDue d r s).overlaid i b := enqueue_overlaid _ _

@[simp] theorem toSuspense_overlaid (n : Nat) (v : Option Nat) :
    toSuspense n v (s.overlaid i b) = (toSuspense n v s).overlaid i b := by
  have hcv : cvInForce (s.overlaid i b) = cvInForce s := rfl
  unfold toSuspense
  simp only [overlaid_frame, suspense_handing, hcv, setSuspense_handing]
  split
  · rfl
  · split <;> simp

@[simp] theorem suspenseOldTest_overlaid (f : Flow) : suspenseOldTest f (s.overlaid i b) = (suspenseOldTest f s).overlaid i b := by
  unfold suspenseOldTest
  simp only [overlaid_frame, suspense_handing, setSuspense_handing]
  split <;> simp [ite_overlaid]

@[simp] theorem bookSuspense_overlaid (f : Flow) (x : Option Bed) :
    bookSuspense f x (s.overlaid i b) = (bookSuspense f x s).overlaid i b := by
  unfold bookSuspense
  simp only [overlaid_frame, suspense_handing, bookEnergy_overlaid]
  split
  · rfl
  · split <;> simp

@[simp] theorem takeDifference_overlaid (dv span : Nat) (restored : Bool) :
    takeDifference dv span restored (s.overlaid i b) = (takeDifference dv span restored s).overlaid i b := by
  have hvolume : (s.overlaid i b).onIntake (fun j => { j with volume := j.volume + dv })
      = (s.onIntake (fun j => { j with volume := j.volume + dv })).overlaid i b := rfl
  simp [takeDifference, hvolume, ite_overlaid]

@[simp] theorem takeMeter_overlaid (p : Sample) : takeMeter p (s.overlaid i b) = (takeMeter p s).overlaid i b := by
  have hset (x : Nat) (u : State) : (u.overlaid i b).onIntake (fun j =>
        { j with meter := { reading := some x, restoreMark := false }, meterSpan := 0 })
      = (u.onIntake (fun j => { j with meter := { reading := some x, restoreMark := false }, meterSpan := 0 })).overlaid i b := rfl
  have hclear (u : State) : (u.overlaid i b).onIntake (fun j => { j with meter := {} })
      = (u.onIntake (fun j => { j with meter := {} })).overlaid i b := rfl
  unfold takeMeter
  cases p.totalizerReset <;> cases p.meter <;> cases hr : s.intake.meter.reading <;>
    simp [hr, hset, hclear]

@[simp] theorem takeFuels_overlaid (p : Sample) : takeFuels p (s.overlaid i b) = (takeFuels p s).overlaid i b := rfl

@[simp] theorem fieldLateTest_overlaid : fieldLateTest (s.overlaid i b) = (fieldLateTest s).overlaid i b := by
  unfold fieldLateTest
  rw [ite_overlaid, ← raise_overlaid]
  rfl

@[simp] theorem fieldLostTest_overlaid : fieldLostTest (s.overlaid i b) = (fieldLostTest s).overlaid i b := by
  unfold fieldLostTest
  rw [ite_overlaid, ← fieldLostMode_overlaid, ← raise_overlaid]
  rfl

/-! ### The memory port and the reports -/

@[simp] theorem beginWrite_overlaid : beginWrite (s.overlaid i b) = (beginWrite s).overlaid i b := by
  simp [beginWrite, ite_overlaid]

@[simp] theorem takeCheckpoint_overlaid : takeCheckpoint (s.overlaid i b) = (takeCheckpoint s).overlaid i b := by
  have hself : checkpointOf (s.overlaid i b) = checkpointOf s := rfl
  unfold takeCheckpoint
  simp only [overlaid_frame, hself]
  split <;> simp

@[simp] theorem completeWrite_overlaid : completeWrite (s.overlaid i b) = (completeWrite s).overlaid i b := by
  unfold completeWrite
  simp only [overlaid_frame]
  split <;> simp

theorem abandonWrite_spoils (u : State) : abandonWrite u = { u.onExt (·.spoil (slotOfSeq u.port.nextSeq) (partialBytes u.freeDraws)) with
    freeDraws := u.freeDraws + 1 } := rfl

theorem spoilt_overlaid (k n : Nat) (bs : List Sys2Proof.Byte) :
    { (s.overlaid i b).onExt (·.spoil k bs) with freeDraws := n }
      = State.overlaid { s.onExt (·.spoil k bs) with freeDraws := n } i b := rfl

@[simp] theorem failWrite_overlaid : failWrite (s.overlaid i b) = (failWrite s).overlaid i b := by
  have habandon : abandonWrite (s.overlaid i b) = (abandonWrite s).overlaid i b := by
    rw [abandonWrite_spoils, abandonWrite_spoils s, ← spoilt_overlaid]
    rfl
  unfold failWrite
  rw [habandon, onPort_overlaid, beginWrite_overlaid, raise_overlaid, overlaid_frame.2.2.2.2.2.2.2.2.2.2.2.2.1]
  cases s.port.writing <;> rfl

@[simp] theorem queueInvts_overlaid : queueInvts (s.overlaid i b) = (queueInvts s).overlaid i b := by
  have hinvt (n : Nat) (u : State) : queueInvt n (u.overlaid i b) = (queueInvt n u).overlaid i b := enqueue_overlaid _ _
  simp [queueInvts, hinvt]

@[simp] theorem reportHour_overlaid : reportHour (s.overlaid i b) = (reportHour s).overlaid i b := by
  have hself (u : State) : hourlyReport (u.overlaid i b) = (hourlyReport u).overlaid i b := by
    have hsame : hourlyOf (u.overlaid i b) = hourlyOf u := rfl
    unfold hourlyReport
    rw [hsame, enqueue_overlaid]
    rfl
  simp [reportHour, hself]

@[simp] theorem queueDayReport_overlaid (n : Nat) : queueDayReport n (s.overlaid i b) = (queueDayReport n s).overlaid i b := by
  have hself (u : State) : dayReportOf (u.overlaid i b) n = dayReportOf u n := rfl
  unfold queueDayReport
  simp only [onAcct_overlaid, hself, fateOf_overlaid]
  split <;> simp

@[simp] theorem dayReportStep_overlaid : dayReportStep (s.overlaid i b) = (dayReportStep s).overlaid i b := by
  have hlength : (s.overlaid i b).link.occupancy = s.link.occupancy := rfl
  unfold dayReportStep
  rw [ite_overlaid, hlength]
  simp only [overlaid_frame]
  congr 1
  split <;> simp

/-! ### The minute -/

@[simp] theorem trainMinute_overlaid (r : Interval) : trainMinute r (s.overlaid i b) = (trainMinute r s).overlaid i b := by
  simp [trainMinute]

@[simp] theorem applyClock_overlaid (d : Int) : stepClock d (s.overlaid i b) = (stepClock d s).overlaid i b := rfl

@[simp] theorem countAdvanced_overlaid : countAdvanced (s.overlaid i b) = (countAdvanced s).overlaid i b := rfl

@[simp] theorem refuseStep_overlaid (d : Int) (r : Nat × Int) :
    refuseStep d r (s.overlaid i b) = (refuseStep d r s).overlaid i b := by simp [refuseStep]

/-! ### The link -/

@[simp] theorem countReceiveError_overlaid : countReceiveError (s.overlaid i b) = (countReceiveError s).overlaid i b := rfl

@[simp] theorem countBrokenEcho_overlaid : countBrokenEcho (s.overlaid i b) = (countBrokenEcho s).overlaid i b := by
  simp [countBrokenEcho, ite_overlaid]

@[simp] theorem enterFault_overlaid (v : Int) : enterFault v (s.overlaid i b) = (enterFault v s).overlaid i b := by
  unfold enterFault
  rw [onLink_overlaid _ fun _ => rfl]
  simp

@[simp] theorem takeDuplicate_overlaid (k : Nat) : takeDuplicate k (s.overlaid i b) = (takeDuplicate k s).overlaid i b := by
  unfold takeDuplicate
  rw [onLink_overlaid _ fun _ => rfl]
  simp [ite_overlaid]

@[simp] theorem takeOffer_overlaid (src dir offer target : Nat) :
    takeOffer src dir offer target (s.overlaid i b) = (takeOffer src dir offer target s).overlaid i b := by
  have hself (x : Bool) : divergeAfter (s.overlaid i b) target x = divergeAfter s target x := rfl
  unfold takeOffer
  split
  · rfl
  · simp [hself, ite_overlaid]

@[simp] theorem takeInvt_overlaid (src half : Nat) (l : List Int) :
    takeInvt src half l (s.overlaid i b) = (takeInvt src half l s).overlaid i b := by
  simp [takeInvt, ite_overlaid]

@[simp] theorem shutIn_overlaid : shutIn (s.overlaid i b) = (shutIn s).overlaid i b := by simp [shutIn, ite_overlaid]

@[simp] theorem takeHalt_overlaid (n : Nat) : takeHalt n (s.overlaid i b) = (takeHalt n s).overlaid i b := by
  unfold takeHalt
  rw [onLink_overlaid _ fun _ => rfl]
  simp [ite_overlaid]

@[simp] theorem takeResume_overlaid (n : Nat) : takeResume n (s.overlaid i b) = (takeResume n s).overlaid i b := rfl

theorem start_overlaid : (s.overlaid i b).onLink Link.start = (s.onLink Link.start).overlaid i b :=
  onLink_overlaid _ fun l => by
    have hsending : ({ l with restartPending := b } : Link).sending = l.sending := rfl
    unfold Link.start
    rw [hsending]
    by_cases hs : l.sending = true
    · rw [if_pos hs, if_pos hs]
    · rw [if_neg hs, if_neg hs]
      rcases l with ⟨_ | _ | _ | _⟩
      all_goals dsimp only
      all_goals split <;> rfl

theorem lose_overlaid : (s.overlaid i b).onLink Link.lose = (s.onLink Link.lose).overlaid i b := rfl

theorem recover_overlaid : (s.overlaid i b).onLink Link.recover = (s.onLink Link.recover).overlaid i b :=
  onLink_overlaid _ fun l => by
    unfold Link.recover
    split_ifs <;> rfl

@[simp] theorem joinDone_overlaid : joinDone (s.overlaid i b) = (joinDone s).overlaid i b := by
  unfold joinDone
  rw [onLink_overlaid _ fun _ => rfl]
  simp

@[simp] theorem joinMismatch_overlaid : joinMismatch (s.overlaid i b) = (joinMismatch s).overlaid i b := by
  unfold joinMismatch
  rw [onLink_overlaid _ fun _ => rfl, onLink_overlaid _ fun _ => rfl]
  simp only [overlaid_frame]
  split
  · simp [ite_overlaid]
  · rfl
  · rfl
  · rfl

@[simp] theorem failEntry_overlaid (e : Entry) : failEntry e (s.overlaid i b) = (failEntry e s).overlaid i b := by
  unfold failEntry
  rw [onLink_overlaid _ fun _ => rfl]
  simp [ite_overlaid]

@[simp] theorem echoMismatch_overlaid : echoMismatch (s.overlaid i b) = (echoMismatch s).overlaid i b := by
  have hmismatch (e : Entry) (u : State) : (u.overlaid i b).onLink (·.mismatch e) = (u.onLink (·.mismatch e)).overlaid i b := rfl
  have hline : (s.overlaid i b).link.onLineEntry = s.link.onLineEntry := rfl
  unfold echoMismatch
  rw [hline, ite_overlaid]
  cases s.link.onLineEntry <;> simp [hmismatch, ite_overlaid]

@[simp] theorem lineHeld_overlaid : lineHeld (s.overlaid i b) = (lineHeld s).overlaid i b := by
  unfold lineHeld
  rw [ite_overlaid]
  simp only [overlaid_frame]
  congr 1
  split <;> simp

end Sys2Proof.Machine
end


section
/-! PROOFS. The functions that hand SETPOINT fields: what they do besides does not depend on the fields last handed, and what
they hand depends on nothing else of what is overlaid. -/

namespace Sys2Proof.Machine

open Sys2Proof (Bed Flow Mode)

/-- From a state with other fields last handed and another pending restart, the function comes to the same state with yet
others. -/
def Overlays (f : State → State) (s : State) : Prop :=
  ∃ h : Intake → Intake, ∀ i b, f (s.overlaid i b) = (f s).overlaid (h i) b

variable {s : State} {f g : State → State}

theorem Overlays.of (h : ∀ i b, f (s.overlaid i b) = (f s).overlaid i b) : Overlays f s := ⟨id, h⟩

theorem Overlays.then (hf : Overlays f s) (hg : Overlays g (f s)) : Overlays (fun u => g (f u)) s := by
  obtain ⟨hi, hf⟩ := hf
  obtain ⟨hj, hg⟩ := hg
  exact ⟨fun i => hj (hi i), fun i b => (congrArg g (hf i b)).trans (hg (hi i) b)⟩

/-- A function that does from one state what another does from another. -/
theorem Overlays.after {x : State} (hg : Overlays g x) (h : ∀ i b, f (s.overlaid i b) = g (x.overlaid i b)) (hs : f s = g x) :
    Overlays f s := by
  obtain ⟨hi, hg⟩ := hg
  exact ⟨hi, fun i b => by rw [h, hg, hs]⟩

/-- A function that is another one for every overlay of a state. -/
theorem Overlays.congr (h : ∀ i b, f (s.overlaid i b) = g (s.overlaid i b)) (hs : f s = g s) (hg : Overlays g s) :
    Overlays f s := hg.after h hs

/-- Only the mark of the pending restart is another: then nothing else of the result is. -/
theorem Overlays.pending (h : Overlays f s) (b : Bool) :
    f (s.overlaid s.intake b) = (f s).overlaid (f s).intake b ∧ (f s).link.restartPending = s.link.restartPending := by
  obtain ⟨hi, h⟩ := h
  have hself : f s = (f s).overlaid (hi s.intake) s.link.restartPending := h s.intake s.link.restartPending
  have hintake : (f s).intake = (f s).intake.handing (hi s.intake) := congrArg State.intake hself
  have hmark : (f s).link.restartPending = ((f s).overlaid (hi s.intake) s.link.restartPending).link.restartPending :=
    congrArg (fun u : State => u.link.restartPending) hself
  refine ⟨?_, hmark⟩
  rw [h]
  unfold State.overlaid
  rw [← hintake, Intake.handing_self]

/-- Other fields handed before lead to other fields handed behind, and to nothing else. -/
theorem Overlays.handing (h : Overlays f s) (i : Intake) : ∃ j : Intake,
    f { s with intake := s.intake.handing i } = { f s with intake := (f s).intake.handing j } := by
  have hpending := (h.pending true).2
  obtain ⟨hi, h⟩ := h
  refine ⟨hi i, (h i s.link.restartPending).trans ?_⟩
  rw [← hpending]
  rfl

/-! ### Handing fields -/

/-- The handing behind a SETPOINT's request (R132). -/
def Intake.requested (i : Intake) : Intake :=
  match i.sending with
  | none => { i with sending := some i.handed }
  | some _ => { i with sendAgain := true }

/-- The handing behind a completed send (R132). -/
def Intake.sent (i : Intake) : Intake :=
  match i.sending with
  | none => i
  | some _ => if i.sendAgain then { i with sending := some i.handed, sendAgain := false } else { i with sending := none }

/-- A function of the intake that changes the handing alone, and reads nothing else. -/
theorem onIntake_handing {k : Intake → Intake} (hk : ∀ i j : Intake, (k i).handing j = i.handing j)
    (hread : ∀ i j : Intake, k (i.handing j) = i.handing (k j)) (i : Intake) (b : Bool) :
    (s.overlaid i b).onIntake k = (s.onIntake k).overlaid (k i) b := by
  unfold State.overlaid State.onIntake
  rw [hk, hread]

theorem requested_handing (i j : Intake) : i.requested.handing j = i.handing j ∧ (i.handing j).requested = i.handing j.requested := by
  unfold Intake.requested
  constructor
  · split <;> rfl
  · cases j with
    | mk => dsimp only [Intake.handing]; split <;> rfl

theorem sent_handing (i j : Intake) : i.sent.handing j = i.handing j ∧ (i.handing j).sent = i.handing j.sent := by
  unfold Intake.sent
  constructor
  · split
    · rfl
    · split <;> rfl
  · cases hs : j.sending <;> cases ha : j.sendAgain <;> simp [Intake.handing, hs, ha]

theorem requestSetpoint_eq : requestSetpoint s = if s.train.mode = .config then s else s.onIntake Intake.requested := rfl

theorem requestSetpoint_overlaid (i : Intake) (b : Bool) :
    requestSetpoint (s.overlaid i b) = s.overlaid (if s.train.mode = .config then i else i.requested) b := by
  rw [requestSetpoint_eq, overlaid_frame.2.2.2.2.2.2.2.1, apply_ite (s.overlaid · b),
    onIntake_handing (fun i j => (requested_handing i j).1) (fun i j => (requested_handing i j).2)]
  unfold State.overlaid State.onIntake
  rw [(requested_handing _ _).1]

theorem requestSetpoint_wiped (j : Intake) (b : Bool) : (requestSetpoint s).overlaid j b = s.overlaid j b := by
  rw [requestSetpoint_eq]
  split
  · rfl
  · unfold State.overlaid State.onIntake
    rw [(requested_handing _ _).1]

theorem handFields_wiped (k : Setpoint → Setpoint) (j : Intake) (b : Bool) : (handFields k s).overlaid j b = s.overlaid j b := by
  unfold handFields
  split
  · rfl
  · rw [requestSetpoint_wiped]
    rfl

theorem requestSetpoint_overlays : Overlays requestSetpoint s :=
  ⟨_, fun i b => by rw [requestSetpoint_wiped, requestSetpoint_overlaid]⟩

theorem handFields_overlays (k : Setpoint → Setpoint) : Overlays (handFields k) s := by
  refine ⟨fun i => if k i.handed = i.handed then i
    else if s.train.mode = .config then { i with handed := k i.handed } else Intake.requested { i with handed := k i.handed },
    fun i b => ?_⟩
  have hset : (s.overlaid i b).onIntake (fun j => { j with handed := k j.handed }) = s.overlaid { i with handed := k i.handed } b :=
    rfl
  rw [handFields_wiped]
  unfold handFields
  rw [hset, requestSetpoint_overlaid]
  exact (apply_ite (s.overlaid · b) _ _ _).symm

theorem handDryer_overlays : Overlays handDryer s :=
  .congr (fun _ _ => rfl) rfl (handFields_overlays fun p => { p with
    valveA := valveOf s.dryer.bedA.state, valveB := valveOf s.dryer.bedB.state, heater := s.dryer.heater })

theorem handCommand_overlays : Overlays handCommand s :=
  .congr (fun _ _ => rfl) rfl (handFields_overlays fun p => { p with command := s.comp.command })

theorem handMode_overlays : Overlays handMode s :=
  .congr (fun _ _ => rfl) rfl (handFields_overlays fun p => { p with
    demand := s.train.demand, lineup := s.train.lineup, mode := s.train.mode })

theorem handAll_overlays : Overlays handAll s :=
  (handDryer_overlays.then handCommand_overlays).then handMode_overlays

theorem setpointDone_overlays : Overlays setpointDone s :=
  ⟨Intake.sent, onIntake_handing (fun i j => (sent_handing i j).1) fun i j => (sent_handing i j).2⟩

end Sys2Proof.Machine
end


section
/-! PROOFS. One instant's work, the clock, the sequencer's own commands and the work of each command, from a state with other
SETPOINT fields last handed and another pending restart. -/

namespace Sys2Proof.Machine

open Sys2Proof (Bed Flow Mode)

variable {s : State}

/-! ### One instant's work -/

theorem dryerMinute_overlays (r : Interval) : Overlays (dryerMinute r) s := by
  obtain ⟨body, hminute, hbody⟩ : ∃ body : State → State, dryerMinute r = (fun u => handDryer (body u))
      ∧ ∀ i b, body (s.overlaid i b) = (body s).overlaid i b := ⟨_, rfl, fun i b => by simp⟩
  rw [hminute]
  exact (Overlays.of hbody).then handDryer_overlays

theorem meterMinute_overlays : (∀ i b, (meterMinute (s.overlaid i b)).1 = (meterMinute s).1)
    ∧ Overlays (fun u => (meterMinute u).2) s := by
  let c := closeInterval s
  let fuel := formFuel c.1.compWh c.2.comp.fuelCarry
  let booked := bookInterval c.1.volume c.1.cv fuel.1 (c.2.onComp (fun x => { x with fuelCarry := fuel.2 }))
  let due := bookSuspense .withdraw c.2.dryer.adsorbing (bookSuspense .inject c.2.dryer.adsorbing booked)
  obtain ⟨h, hdryer⟩ := dryerMinute_overlays (s := due) c.1
  have hminute (i : Intake) (b : Bool) : meterMinute (s.overlaid i b) = (c.1, dryerMinute c.1 (due.overlaid i b)) := by
    unfold meterMinute
    simp only [closeInterval_overlaid, overlaid_frame, onComp_overlaid, bookInterval_overlaid, bookSuspense_overlaid]
    rfl
  refine ⟨fun i b => by rw [hminute]; rfl, h, fun i b => ?_⟩
  dsimp only
  rw [hminute, hdryer]
  rfl

theorem instantWork_overlays (hour : Bool) (day : Option Nat) : Overlays (instantWork hour day) s := by
  have hclose (i : Intake) (b : Bool) (u : State) : day.elim (u.overlaid i b) (closeDay · (u.overlaid i b))
      = (day.elim u (closeDay · u)).overlaid i b := by
    cases day with
    | none => rfl
    | some d => exact closeDay_overlaid d
  have hnominate (i : Intake) (b : Bool) (u : State) : (if hour then nominationHour (u.overlaid i b) else u.overlaid i b)
      = (if hour then nominationHour u else u).overlaid i b := by
    rw [nominationHour_overlaid, ite_overlaid]
  have hreport (i : Intake) (b : Bool) (u : State) : (if hour then reportHour (u.overlaid i b) else u.overlaid i b)
      = (if hour then reportHour u else u).overlaid i b := by
    rw [reportHour_overlaid, ite_overlaid]
  obtain ⟨hrecord, h, hmeter⟩ := meterMinute_overlays (s := s)
  by_cases hm : s.train.mode = .config
  · refine .of fun i b => ?_
    unfold instantWork
    dsimp only
    rw [if_pos hm, if_pos (by simpa using hm), hclose, hnominate]
  · refine ⟨h, fun i b => ?_⟩
    unfold instantWork
    dsimp only at hmeter ⊢
    rw [if_neg hm, if_neg (by simpa using hm), hrecord, hmeter, hclose, hnominate, trainMinute_overlaid, hreport]

theorem boundary_overlays (hour : Bool) (day : Option Nat) : Overlays (boundary hour day) s :=
  .congr (fun _ _ => boundary_eq_instantWork _ _ _) (boundary_eq_instantWork _ _ _) (instantWork_overlays hour day)

end Sys2Proof.Machine
end


section
/-! PROOFS. A TIME adopted by an unsynchronized clock, with the catch-up that a restored stamp makes pending (R57, R78, R137,
R164, R167). -/

namespace Sys2Proof.Machine

open Sys2Proof (Bed Flow Mode)

variable {s u : State} {day second : Nat}

/-! ### What the test of LISTEN and the catch-up leave -/

/-- The test of LISTEN changes at most the mode and the mark that LISTEN is done. -/
theorem listenTest_eq : ∃ m d, listenTest s = { s with train := { s.train with mode := m, listenDone := d } } := by
  unfold listenTest
  split
  · exact ⟨_, _, rfl⟩
  · split
    · exact ⟨.idle, true, rfl⟩
    · exact ⟨_, _, rfl⟩

theorem handMode_handing : ∃ j, handMode s = { s with intake := s.intake.handing j } := by
  refine ⟨(handMode s).intake, ?_⟩
  have hwiped := handFields_wiped (s := s) (fun p => { p with
    demand := s.train.demand, lineup := s.train.lineup, mode := s.train.mode }) (handMode s).intake s.link.restartPending
  rw [show s.link.restartPending = (handMode s).link.restartPending by simp] at hwiped
  refine hwiped.trans ?_
  rw [show (handMode s).link.restartPending = s.link.restartPending by simp]
  rfl

theorem instantWork_catchUp (hour : Bool) (ending : Option Nat) (h : s.port.catchUp = false) :
    (instantWork hour ending s).port.catchUp = false := by
  rw [← boundary_eq_instantWork]
  refine KeptByInstant.boundary (P := fun s => s.port.catchUp = false) ⟨?_, ?_, ?_, ?_, ?_⟩ hour ending h
  · intro s h
    simpa using h
  · intro day s h
    simpa using h
  · intro s h
    exact h
  · intro r s h
    simpa using h
  · intro s h
    have htake : (takeCheckpoint s).port.catchUp = s.port.catchUp := by
      unfold takeCheckpoint
      dsimp only
      split <;> simp
    simpa [reportHour, htake] using h

/-! ### The adoption -/

theorem takeTime_refused (h : 86399 < second) : takeTime day second s = s := if_pos h

theorem takeTime_adopts (hs : s.clock.synced = false) (h : second ≤ 86399) :
    takeTime day second s = catchUp (handMode (listenTest (adoptedTime day second s))) := by
  unfold takeTime
  rw [if_neg (by omega), if_pos hs]
  rfl

/-- The state that the claim of the catch-up speaks of: the adopted time behind the test of LISTEN, no catch-up pending. -/
def State.caught (s : State) (day second : Nat) : State :=
  listenTest ((adoptedTime day second s).onPort (fun p => { p with catchUp := false }))

theorem ite_onPort {p : Prop} [Decidable p] {v : State} (f : MemoryPort → MemoryPort) :
    (if p then u else v).onPort f = if p then u.onPort f else v.onPort f := apply_ite (State.onPort · f) p u v

theorem handMode_caught : ∃ j, (handMode (listenTest (adoptedTime day second s))).onPort (fun p => { p with catchUp := false })
    = { s.caught day second with intake := s.intake.handing j } := by
  obtain ⟨j, hj⟩ := handMode_handing (s := listenTest (adoptedTime day second s))
  have hport (v : State) : listenTest (v.onPort (fun p => { p with catchUp := false }))
      = (listenTest v).onPort (fun p => { p with catchUp := false }) := by
    have hsince : (v.onPort (fun p => { p with catchUp := false })).sinceJoin = v.sinceJoin := rfl
    unfold listenTest
    rw [hsince]
    split
    · rfl
    · rw [ite_onPort]
      rfl
  have hintake : (listenTest (adoptedTime day second s)).intake = s.intake := by simp [adoptedTime]
  refine ⟨j, ?_⟩
  rw [hj, hintake, State.caught, hport]
  rfl

theorem catchUp_pending {sd sh : Nat} (hc : s.port.catchUp = true) (hstamp : s.port.stamp = some (sd, sh)) (hs : s.clock.synced = false)
    (h : second ≤ 86399) : ∃ j, takeTime day second s
      = let w := if 0 < hourDistance (hourIndex sd sh) (hourIndex day (second / 3600))
          then instantWork true (if day = sd then none else some sd) (s.caught day second) else s.caught day second
        { w with intake := w.intake.handing j } := by
  obtain ⟨j, hj⟩ := handMode_caught (s := s) (day := day) (second := second)
  let v := handMode (listenTest (adoptedTime day second s))
  have hv : v.port = s.port ∧ v.clock.hourIndex = hourIndex day (second / 3600) ∧ v.clock.day = day := by
    simp [v, adoptedTime, Clock.hourIndex, Clock.hour]
  have hcaught : (s.caught day second).intake = s.intake := by simp [State.caught, adoptedTime]
  have htake : takeTime day second s = if 0 < hourDistance (hourIndex sd sh) (hourIndex day (second / 3600))
      then instantWork true (if day = sd then none else some sd) { s.caught day second with intake := s.intake.handing j }
      else { s.caught day second with intake := s.intake.handing j } := by
    rw [takeTime_adopts hs h, ← hj]
    change catchUp v = _
    unfold catchUp
    rw [if_pos (by rw [hv.1]; exact hc), hv.1, hstamp]
    dsimp only
    rw [hv.2.1, hv.2.2, boundary_eq_instantWork]
  rw [htake]
  dsimp only
  split
  · rw [← hcaught]
    exact (instantWork_overlays _ _).handing j
  · exact ⟨j, by rw [hcaught]⟩

/-- Settles O14: the adoption, the test of LISTEN, and one instant's work for a catch-up that is pending. -/
theorem timeAdopted : Obligations.TimeAdopted := by
  intro s src dst day second hears hsrc hs
  have hexec := time_exec hears hsrc day second
  refine ⟨fun hsecond hc => ?adopted, fun sd sh hsecond hc hstamp => ?caught, fun hsecond => ?refused⟩
  case adopted =>
    intro d
    have htake : takeTime day second s = handMode (listenTest (adoptedTime day second s)) := by
      rw [takeTime_adopts hs hsecond]
      exact if_neg (by simp [adoptedTime, hc])
    rw [htake] at hexec
    refine ⟨_, hexec, by simp [adoptedTime], ?_, by simp only [handAll_frame, handMode_frame, listenTest_frame]; rfl, by simp [adoptedTime], by simp [adoptedTime],
      by simp [adoptedTime], by simp [adoptedTime], by simp [adoptedTime], by simp [adoptedTime], by simp [adoptedTime], ?_⟩
    · obtain ⟨m, x, hlisten⟩ := listenTest_eq (s := adoptedTime day second s)
      simp only [handAll_frame, handMode_frame, hlisten]
      rfl
    · obtain ⟨j, hj⟩ := handMode_handing (s := listenTest (adoptedTime day second s))
      have hintake : (listenTest (adoptedTime day second s)).intake = s.intake := by simp [adoptedTime]
      rw [handAll_eq_handing, hj, hintake]
      simp
  case caught =>
    intro d v u w
    obtain ⟨j, hj⟩ := catchUp_pending (day := day) hc hstamp hs hsecond
    have hu : u = s.caught day second := rfl
    have htake : takeTime day second s = { w with intake := w.intake.handing j } := hj
    have hport : w.port.catchUp = false := by
      have hcaught : (s.caught day second).port.catchUp = false := by simp [State.caught]
      simp only [w, hu]
      split
      · exact instantWork_catchUp _ _ hcaught
      · exact hcaught
    rw [htake] at hexec
    refine ⟨_, hexec, by simpa using hport, ?_⟩
    exact (handAll_eq_handing { w with intake := w.intake.handing j }).trans rfl
  case refused =>
    rw [takeTime_refused hsecond] at hexec
    exact ⟨_, hexec, handAll_eq_handing s⟩

end Sys2Proof.Machine
end


section
/-! PROOFS. The work of every command, from a state with other SETPOINT fields last handed and another pending restart. -/

namespace Sys2Proof.Machine

open Sys2Proof (Bed Flow Mode Feedback)

variable {s : State}

/-! ### The start queue copy and the feedback -/

theorem ownHead_overlays : Overlays ownHead s := by
  by_cases hq : s.comp.unit = .queued
  · exact .after (x := s.onComp (fun c => { c.setUnit .starting with
        startTimer := some 0
        starts := (if c.starts.length ≥ 3 then c.starts.drop 1 else c.starts) ++ [0] })) handCommand_overlays
      (fun _ _ => if_pos hq) (if_pos hq)
  · exact .of fun i b => by rw [ownHead, ownHead, if_neg hq, if_neg (by simpa using hq)]

/-- The copy without a station, its own unit no longer QUEUED, before the next head starts (R92). -/
def leftCopy (n : Nat) (s : State) : State :=
  let rest := s.peers.startQueue.filter (· != n)
  let t := s.onPeers (fun p => { p with
    startQueue := rest, headAge := if s.peers.startQueue.head? == some n then 0 else p.headAge })
  if n = s.station ∧ t.comp.unit = .queued then t.onComp (·.setUnit .stopped) else t

/-- The own station becomes head when another leaves. -/
def becomesHead (n : Nat) (s : State) : Bool :=
  (s.peers.startQueue.head? == some n) && ((s.peers.startQueue.filter (· != n)).head? == some s.station)

theorem removeFromCopy_leaves (n : Nat) (s : State) : removeFromCopy n s = if s.peers.startQueue.contains n then
    if becomesHead n s then ownHead (leftCopy n s) else leftCopy n s else s := rfl

theorem leftCopy_overlaid (n : Nat) (i : Intake) (b : Bool) : leftCopy n (s.overlaid i b) = (leftCopy n s).overlaid i b := by
  unfold leftCopy
  dsimp only
  rw [ite_overlaid]
  rfl

theorem removeFromCopy_overlays (n : Nat) : Overlays (removeFromCopy n) s := by
  have hhead (i : Intake) (b : Bool) : becomesHead n (s.overlaid i b) = becomesHead n s := rfl
  by_cases hc : s.peers.startQueue.contains n = true
  · by_cases hh : becomesHead n s = true
    · refine .after (x := leftCopy n s) ownHead_overlays (fun i b => ?_) ?_
      · rw [removeFromCopy_leaves, hhead, if_pos hh, leftCopy_overlaid]
        exact if_pos hc
      · rw [removeFromCopy_leaves, if_pos hc, if_pos hh]
    · refine .of fun i b => ?_
      rw [removeFromCopy_leaves, removeFromCopy_leaves, hhead, if_neg hh, if_neg hh, leftCopy_overlaid, if_pos hc]
      exact if_pos hc
  · refine .of fun i b => ?_
    rw [removeFromCopy_leaves, removeFromCopy_leaves, if_neg hc]
    exact if_neg hc

/-- The part's CLAIM entered in the copy: a STOPPED unit that still wants a start is QUEUED, any other cedes (R91). -/
def claimed (s : State) : State :=
  let t := addToCopy s.station s
  if t.comp.unit = .stopped ∧ t.wantConditions then t.onComp (·.setUnit .queued) else queueCede t

theorem claimed_overlaid (i : Intake) (b : Bool) : claimed (s.overlaid i b) = (claimed s).overlaid i b := by
  unfold claimed
  dsimp only
  rw [ite_overlaid, ← queueCede_overlaid]
  rfl

theorem ownClaimEcho_overlays : Overlays ownClaimEcho s := by
  let t := s.onComp (fun c => { c with claimInFlight := false })
  by_cases hin : s.peers.startQueue.contains s.station = true
  · exact .after (x := t) (g := id) (.of fun _ _ => rfl) (fun _ _ => if_pos hin) (if_pos hin)
  · by_cases hfull : s.peers.startQueue.length ≥ 8
    · refine .after (x := countDiscard t) (.of fun _ _ => queueCede_overlaid) (fun i b => ?_) ?_
      · exact (if_neg hin).trans (if_pos hfull)
      · exact (if_neg hin).trans (if_pos hfull)
    · by_cases hempty : s.peers.startQueue.isEmpty = true
      · refine .after (x := claimed t) ownHead_overlays (fun i b => ?_) ?_
        · rw [← claimed_overlaid]
          exact (if_neg hin).trans ((if_neg hfull).trans (if_pos hempty))
        · exact (if_neg hin).trans ((if_neg hfull).trans (if_pos hempty))
      · refine .after (x := t) (g := claimed) (.of claimed_overlaid) (fun i b => ?_) ?_
        · exact (if_neg hin).trans ((if_neg hfull).trans (if_neg hempty))
        · exact (if_neg hin).trans ((if_neg hfull).trans (if_neg hempty))

theorem ownCedeEcho_overlays : Overlays ownCedeEcho s :=
  .after (x := s.onComp (fun c => { c with cedePending := false })) (removeFromCopy_overlays s.station) (fun _ _ => rfl) rfl

theorem expireHead_overlays : Overlays expireHead s := by
  cases hq : s.peers.startQueue with
  | nil => exact .of fun i b => by simp [expireHead, hq]
  | cons head rest =>
    by_cases h : 210 ≤ s.peers.headAge
    · exact .congr (fun i b => by simp [expireHead, hq, h]) (by simp [expireHead, hq, h]) (removeFromCopy_overlays head)
    · exact .of fun i b => by simp [expireHead, hq, h]

theorem feedbackTable_overlays (before : Option Feedback) (f : Feedback) : Overlays (feedbackTable before f) s := by
  by_cases hstart : s.comp.unit = .starting ∧ f = .running
  · obtain ⟨hu, rfl⟩ := hstart
    have hstarted (u : State) (h : u.comp.unit = .starting) : feedbackTable before .running u = queueCede (handCommand
        (u.onComp (fun c => { c.setUnit .running with runTimer := 0, startTimer := none }))) := by
      unfold feedbackTable
      rw [h]
    refine .after (g := fun u => queueCede (handCommand u)) (handCommand_overlays.then (.of fun _ _ => queueCede_overlaid))
      (fun i b => ?_) (hstarted s hu)
    rw [hstarted (s.overlaid i b) hu, onComp_overlaid]
  · refine .of fun i b => ?_
    unfold feedbackTable
    simp only [overlaid_frame, onComp_overlaid, autoRestart_overlaid, takeTrip_overlaid]
    split <;> simp_all [ite_overlaid]


theorem takeFeedback_overlays (f : Option Feedback) : Overlays (takeFeedback f) s := by
  cases f with
  | none => exact .of fun _ _ => rfl
  | some f =>
    by_cases h : s.comp.awaiting ∧ s.comp.unit = .stopping
    · exact .of fun i b => by simp [takeFeedback, h]
    · exact .after (x := s.onComp (fun c => { c with feedback := some f, awaiting := false }))
        (feedbackTable_overlays s.comp.feedback f) (fun _ _ => if_neg h) (if_neg h)

theorem acceptSample_overlays (p : Sys2Proof.Sample) : Overlays (acceptSample p) s := by
  have htaken : Overlays (fun u => takeFeedback p.feedback (endHold (u.onIntake (·.accept p)))) s :=
    .after (x := endHold (s.onIntake (·.accept p))) (takeFeedback_overlays p.feedback)
      (fun i b => by rw [onIntake_overlaid _ fun _ => rfl, endHold_overlaid]) rfl
  exact htaken.then (g := fun t => if t.train.mode = .config then t else takeFuels p (takeMeter p t))
    (.of fun i b => by simp [ite_overlaid])

theorem takeSample_overlays (p : Option Sys2Proof.Sample) : (∀ i b, (takeSample p (s.overlaid i b)).2 = (takeSample p s).2)
    ∧ Overlays (fun u => (takeSample p u).1) s := by
  cases p with
  | none => exact ⟨fun _ _ => rfl, .of fun _ _ => rfl⟩
  | some p =>
    by_cases h : s.intake.lastSequence = some p.sequence
    · exact ⟨fun i b => by simp [takeSample, h], .of fun i b => by simp [takeSample, h]⟩
    · refine ⟨fun i b => by simp [takeSample, h], .congr (fun i b => ?_) ?_ (acceptSample_overlays p)⟩
      · simp [takeSample, h]
      · simp [takeSample, h]

theorem tellSent_overlays (e : Entry) : Overlays (tellSent e) s := by
  unfold tellSent
  split
  · exact .of fun _ _ => rfl
  · exact ownClaimEcho_overlays
  · exact ownCedeEcho_overlays
  · exact .of fun _ _ => rfl

theorem sequencerReact_overlays : Overlays sequencerReact s := .of fun _ _ => sequencerReact_overlaid

theorem echoIntact_overlays : Overlays echoIntact s := by
  by_cases hj : s.link.join = .onLine
  · exact .of fun i b => by simp [echoIntact, hj]
  · cases he : s.link.onLineEntry with
    | none =>
      refine .of fun i b => ?_
      have hidle (u : State) (hu : u.link.join = s.link.join) (hl : u.link.onLineEntry = none) : echoIntact u = u := by
        rw [echoIntact, if_neg (by rw [hu]; exact hj), hl]
      rw [hidle (s.overlaid i b) rfl he, hidle s rfl he]
    | some e =>
      have hecho (u : State) (hu : u.link.join = s.link.join) (hl : u.link.onLineEntry = some e) :
          echoIntact u = sequencerReact (tellSent e (u.onLink (·.remove e))) := by
        rw [echoIntact, if_neg (by rw [hu]; exact hj), hl]
      refine .after ((tellSent_overlays e).then sequencerReact_overlays) (fun i b => ?_) (hecho s rfl he)
      rw [hecho (s.overlaid i b) rfl he, onLink_overlaid _ fun _ => rfl]

theorem takeJoin_overlays (n : Nat) : Overlays (takeJoin n) s :=
  (removeFromCopy_overlays n).then (g := fun u => sequencerReact (queueOffer (queueInvts (u.onPeers (·.setOffer n none)))))
    (.of fun i b => by simp)

/-! ### The clock -/

theorem applyDifference_overlays (d : Int) : Overlays (applyDifference d) s := by
  by_cases hwithin : (0 ≤ d ∧ ((s.clock.second % 60 : Nat) : Int) + d < 60) ∨ (d < 0 ∧ -d ≤ ((s.clock.second % 60 : Nat) : Int))
  · refine .of fun i b => ?_
    rw [applyDifference_within hwithin, applyDifference_within (s := s.overlaid i b) hwithin]
    rfl
  · by_cases hpos : 0 ≤ d
    · have hcross : 60 ≤ ((s.clock.second % 60 : Nat) : Int) + d := by omega
      exact .after (x := (stepClock d s).onClock (fun c => { c with holdBack := 0, refused := none })) (instantWork_overlays _ _)
        (fun i b => applyDifference_forward (s := s.overlaid i b) hpos hcross) (applyDifference_forward hpos hcross)
    · have hneg : d < 0 := by omega
      have hpast : ((s.clock.second % 60 : Nat) : Int) < -d := by omega
      refine .of fun i b => ?_
      rw [applyDifference_held hneg hpast, applyDifference_held (s := s.overlaid i b) hneg hpast]
      rfl

theorem largeStep_overlays (d : Int) : Overlays (largeStep d) s := by
  have hrefuse (r : Nat × Int) (h : ∀ u, u.clock = s.clock → largeStep d u = refuseStep d r u) : Overlays (largeStep d) s :=
    .after (x := s) (g := refuseStep d r) (.of fun _ _ => refuseStep_overlaid d r) (fun i b => h (s.overlaid i b) rfl) (h s rfl)
  unfold largeStep at hrefuse ⊢
  cases hr : s.clock.refused with
  | none => exact hrefuse (1, d) fun u hu => by rw [hu, hr]
  | some record =>
    obtain ⟨n, e⟩ := record
    by_cases hagree : (d - e).natAbs ≤ 2
    · by_cases hn : n = 1
      · exact hrefuse (2, e) fun u hu => by rw [hu, hr]; dsimp only; rw [if_pos hagree, if_pos hn]
      · have htaken (u : State) (hu : u.clock = s.clock) : largeStep d u = applyDifference d u := by
          unfold largeStep
          rw [hu, hr]
          dsimp only
          rw [if_pos hagree, if_neg hn]
        exact .after (applyDifference_overlays d) (fun i b => htaken (s.overlaid i b) rfl) (htaken s rfl)
    · exact hrefuse (1, d) fun u hu => by rw [hu, hr]; dsimp only; rw [if_neg hagree]

theorem catchUp_overlays : Overlays catchUp s := by
  let t := s.onPort (fun p => { p with catchUp := false })
  by_cases hc : s.port.catchUp = true
  · cases hs : s.port.stamp with
    | none =>
      exact .after (x := t) (g := id) (.of fun _ _ => rfl) (fun i b => by simp [catchUp, hc, hs, t])
        (by simp [catchUp, hc, hs, t])
    | some stamp =>
      obtain ⟨day, hour⟩ := stamp
      by_cases hd : 0 < hourDistance (hourIndex day hour) s.clock.hourIndex
      · exact .after (x := t) (boundary_overlays true (if s.clock.day = day then none else some day))
          (fun i b => by simp [catchUp, hc, hs, hd, t]) (by simp [catchUp, hc, hs, hd, t])
      · exact .after (x := t) (g := id) (.of fun _ _ => rfl) (fun i b => by simp [catchUp, hc, hs, hd, t])
          (by simp [catchUp, hc, hs, hd, t])
  · exact .of fun i b => by simp [catchUp, hc]

theorem takeTime_overlays (day second : Nat) : Overlays (takeTime day second) s := by
  by_cases hsecond : 86399 < second
  · exact .of fun i b => by rw [takeTime_refused hsecond, takeTime_refused hsecond]
  · cases hs : s.clock.synced with
    | false =>
      have hadopt : Overlays (fun u => handMode (listenTest (adoptedTime day second u))) s :=
        .after (x := listenTest (adoptedTime day second s)) handMode_overlays
          (fun i b => by rw [← listenTest_overlaid]; rfl) rfl
      exact .congr (fun i b => takeTime_adopts (s := s.overlaid i b) hs (by omega)) (takeTime_adopts hs (by omega))
        (hadopt.then catchUp_overlays)
    | true =>
      by_cases hd : (secondDifference s.clock.index (day * 86400 + second)).natAbs ≤ 3600
      · exact .congr (fun i b => takeTime_small (s := s.overlaid i b) hs (by omega) hd) (takeTime_small hs (by omega) hd)
          (applyDifference_overlays _)
      · exact .congr (fun i b => takeTime_large (s := s.overlaid i b) hs (by omega) (by rw [overlaid_frame.2.2.2.1]; omega))
          (takeTime_large hs (by omega) (by omega)) (largeStep_overlays _)

theorem takeSecond_overlays : Overlays takeSecond s := by
  by_cases hhold : 0 < s.clock.holdBack
  · refine .of fun i b => ?_
    rw [takeSecond_of_hold hhold, takeSecond_of_hold (s := s.overlaid i b) hhold]
    rfl
  · have hrun : s.clock.holdBack = 0 := by omega
    have hraise : Overlays (raiseAdvance s.clock.day) s.afterSecond := by
      by_cases hat : s.afterSecond.clock.synced ∧ s.afterSecond.clock.second % 60 = 0
      · exact .congr (g := boundary (decide (s.afterSecond.clock.second % 3600 = 0))
          (if s.afterSecond.clock.second = 0 then some s.clock.day else none)) (fun i b => if_pos hat) (if_pos hat)
          (boundary_overlays _ _)
      · exact .after (x := s.afterSecond) (g := id) (.of fun _ _ => rfl) (fun i b => if_neg hat) (if_neg hat)
    exact .after hraise (fun i b => takeSecond_of_no_hold (s := s.overlaid i b) hrun) (takeSecond_of_no_hold hrun)

/-! ### The orders -/

/-- The answers to the orders, which hand nothing. -/
theorem takeOrder_overlays {answer : State → State × Option OrderOutcome} (src k arg n : Nat)
    (h : ∀ i b, answer (s.overlaid i b) = ((answer s).1.overlaid i b, (answer s).2)) :
    Overlays (takeOrder src k arg n answer) s :=
  .of fun i b => by
    unfold takeOrder
    rw [h]
    dsimp only
    split <;> simp

theorem answerRelease_overlaid (i : Intake) (b : Bool) : answerRelease (s.overlaid i b)
    = ((answerRelease s).1.overlaid i b, (answerRelease s).2) := by
  unfold answerRelease
  simp only [overlaid_frame]
  split_ifs <;> simp

theorem answerUnlock_overlaid (i : Intake) (b : Bool) : answerUnlock (s.overlaid i b)
    = ((answerUnlock s).1.overlaid i b, (answerUnlock s).2) := by
  unfold answerUnlock
  simp only [overlaid_frame]
  split_ifs <;> simp

theorem answerBedOut_overlaid (arg : Nat) (i : Intake) (b : Bool) : answerBedOut arg (s.overlaid i b)
    = ((answerBedOut arg s).1.overlaid i b, (answerBedOut arg s).2) := by
  unfold answerBedOut
  split
  · rfl
  · simp [ite_overlaid]

theorem answerBedIn_overlaid (arg : Nat) (i : Intake) (b : Bool) : answerBedIn arg (s.overlaid i b)
    = ((answerBedIn arg s).1.overlaid i b, (answerBedIn arg s).2) := by
  unfold answerBedIn
  simp only [overlaid_frame]
  split
  · rfl
  · split_ifs <;> rfl

theorem answerSuspense_overlaid (accept : Bool) (src k arg n : Nat) (i : Intake) (b : Bool) :
    answerSuspense accept src k arg n (s.overlaid i b)
      = ((answerSuspense accept src k arg n s).1.overlaid i b, (answerSuspense accept src k arg n s).2) := by
  unfold answerSuspense
  simp only [overlaid_frame, suspense_handing, setSuspense_handing]
  split
  · rfl
  · split
    · rfl
    · split_ifs
      · rfl
      · split <;> rfl

/-- Every command but those that start the part anew, lose its supply or ask for a restart. -/
def goesOn : Instr → Bool
  | .powerOnReset .. | .powerLoss | .lineReset _ | .orderRestart .. => false
  | _ => true

theorem work_overlays {c : Instr} (h : goesOn c = true) : Overlays (work c) s := by
  cases c with
  | powerOnReset | powerLoss | lineReset | orderRestart => cases h
  | clockSecond => exact takeSecond_overlays
  | dayReportQueue => exact .of fun _ _ => dayReportStep_overlaid
  | time src dst day second => exact takeTime_overlays day second
  | noms src dst slot day hour rate => exact .of fun _ _ => takeNomination_overlaid slot day hour rate
  | offer src dst dir offer share target mode unit => exact .of fun _ _ => takeOffer_overlaid src dir offer target
  | invt src dst half day hour l => exact .of fun _ _ => takeInvt_overlaid src half l
  | claim src dst => exact .of fun _ _ => takeClaim_overlaid src
  | cede src dst => exact (removeFromCopy_overlays src).then sequencerReact_overlays
  | join src dst => exact takeJoin_overlays src
  | halt src dst reason => exact .of fun _ _ => takeHalt_overlaid src
  | resume src dst => exact .of fun _ _ => takeResume_overlaid src
  | orderShut src dst arg n => exact takeOrder_overlays (answer := answerShut) src 1 arg n fun i b => by simp [answerShut]
  | orderRelease src dst arg n => exact takeOrder_overlays src 2 arg n answerRelease_overlaid
  | orderUnlock src dst arg n => exact takeOrder_overlays src 3 arg n answerUnlock_overlaid
  | orderBedOut src dst arg n => exact takeOrder_overlays src 4 arg n (answerBedOut_overlaid arg)
  | orderBedIn src dst arg n => exact takeOrder_overlays src 5 arg n (answerBedIn_overlaid arg)
  | orderAccept src dst arg n => exact takeOrder_overlays src 6 arg n (answerSuspense_overlaid true src 6 arg n)
  | orderCorrect src dst arg n => exact takeOrder_overlays src 7 arg n (answerSuspense_overlaid false src 7 arg n)
  | orderClear src dst arg n => exact takeOrder_overlays (answer := answerClear) src 8 arg n fun i b => rfl
  | orderUnknownCommand src dst k arg n => exact takeOrder_overlays (answer := fun s => (s, some .refusedArg)) src k arg n fun i b => rfl
  | dupStation kind => exact .of fun _ _ => takeDuplicate_overlaid kind
  | sendStart => exact .of fun _ _ => start_overlaid
  | arbitrationLost => exact .of fun _ _ => lose_overlaid
  | echoIntact => exact echoIntact_overlays
  | echoMismatch => exact .of fun _ _ => echoMismatch_overlaid
  | lineHeld => exact .of fun _ _ => lineHeld_overlaid
  | faultIdleWait => exact .of fun _ _ => recover_overlaid
  | sample record => exact (takeSample_overlays record).2
  | setpointSendDone => exact setpointDone_overlays
  | fieldLate => exact .of fun _ _ => fieldLateTest_overlaid
  | fieldLost => exact .of fun _ _ => fieldLostTest_overlaid
  | suspenseOld f => exact .of fun _ _ => suspenseOldTest_overlaid f
  | listen30sMark | listen120sMark => exact .of fun _ _ => listenTest_overlaid
  | startTimeout => exact .of fun _ _ => timeOutStart_overlaid
  | minStopElapsed => exact .of fun _ _ => autoRestart_overlaid
  | tripHistoryAgeOut => exact .of fun _ _ => rfl
  | headHoldExpiry => exact expireHead_overlays
  | heatMaximum bed => exact .of fun i b => by simp [work, phaseExpiry, ite_overlaid]
  | coolMaximum bed => exact .of fun i b => by simp [work, phaseExpiry, ite_overlaid]
  | checkpointWriteDone => exact .of fun _ _ => completeWrite_overlaid
  | ckptFail => exact .of fun _ _ => failWrite_overlaid
  | holdBackRunOut | report | unknownKind | receiveError | minRunElapsed | zeroDemand300s | startHistoryAgeOut =>
    exact .of fun _ _ => rfl

end Sys2Proof.Machine
end


section
/-! PROOFS. No command but ORDER RESTART puts the reply of a restart into the transmit queue (R148, R161). -/

namespace Sys2Proof.Machine

open Sys2Proof (Bed Flow Mode Feedback)

variable {s : State}

/-- No telegram that waits is the reply of a restart. -/
def State.unasked (s : State) : Prop := ∀ x ∈ s.link.queue, x.owner ≠ .restart

theorem unasked_iff : s.unasked ↔ s.entries (fun x => x.owner ≠ .restart) 0 := ⟨fun h => ⟨Nat.zero_le _, h⟩, (·.2)⟩

theorem State.unasked_of_queue {t : State} (h : s.unasked) (hl : ∀ x ∈ t.link.queue, ∃ y ∈ s.link.queue, x.owner = y.owner) :
    t.unasked := fun x hx hr => by
  obtain ⟨y, hy, ho⟩ := hl x hx
  exact h y hy (ho ▸ hr)

theorem State.unasked_of_link {t : State} (h : s.unasked) (hl : t.link = s.link) : t.unasked := by
  unfold State.unasked
  rwa [hl]

@[simp] theorem onBlock_unasked : (∀ f, (s.onClock f).unasked ↔ s.unasked) ∧ (∀ f, (s.onAcct f).unasked ↔ s.unasked)
    ∧ (∀ f, (s.onNom f).unasked ↔ s.unasked) ∧ (∀ f, (s.onPeers f).unasked ↔ s.unasked)
    ∧ (∀ f, (s.onTrain f).unasked ↔ s.unasked) ∧ (∀ f, (s.onComp f).unasked ↔ s.unasked)
    ∧ (∀ f, (s.onDryer f).unasked ↔ s.unasked) ∧ (∀ f, (s.onIntake f).unasked ↔ s.unasked)
    ∧ (∀ f, (s.onMon f).unasked ↔ s.unasked) ∧ (∀ f, (s.onPort f).unasked ↔ s.unasked)
    ∧ (∀ f, (s.onExt f).unasked ↔ s.unasked) := by
  simp [State.unasked]

/-! ### The queue's own operations -/

theorem onLink_unasked (h : s.unasked) (f : Link → Link)
    (hf : ∀ x ∈ (f s.link).queue, ∃ y ∈ s.link.queue, x.owner = y.owner) : (s.onLink f).unasked :=
  State.unasked_of_queue h hf

theorem withdraw_unasked (h : s.unasked) (p : Entry → Bool) : (s.onLink (·.withdraw p)).unasked :=
  onLink_unasked h _ fun x hx => ⟨x, (List.mem_filter.mp hx).1, rfl⟩

theorem remove_unasked (h : s.unasked) (e : Entry) : (s.onLink (·.remove e)).unasked :=
  onLink_unasked h _ fun x hx => ⟨x, (List.mem_filter.mp hx).1, rfl⟩

theorem map_unasked (h : s.unasked) {g : Entry → Entry} (hg : ∀ x, (g x).owner = x.owner) {f : Link → Link}
    (hf : (f s.link).queue = s.link.queue.map g) : (s.onLink f).unasked :=
  onLink_unasked h f fun x hx => by
    rw [hf] at hx
    obtain ⟨y, hy, rfl⟩ := List.mem_map.mp hx
    exact ⟨y, hy, hg y⟩

@[simp] theorem raise_unasked (c : Cond) (slot : Nat) (v : Int) (h : s.unasked) : (raise c slot v s).unasked :=
  unasked_iff.mpr (raise_entries entryLaw_owner (unasked_iff.mp h) c slot v)

theorem enqueue_unasked (t : Telegram) {o : Owner} (ho : o ≠ .restart) (h : s.unasked) : (enqueue t o s).unasked :=
  unasked_iff.mpr (enqueue_entries entryLaw_owner (unasked_iff.mp h) t ho)

@[simp] theorem tellUnsent_unasked (o : Owner) (t : Telegram) : (tellUnsent o t s).unasked ↔ s.unasked := by
  simp [State.unasked]

/-! ### The operations of the blocks -/

@[simp] theorem handFields_unasked (f : Setpoint → Setpoint) : (handFields f s).unasked ↔ s.unasked := by simp [State.unasked]
@[simp] theorem handAll_unasked : (handAll s).unasked ↔ s.unasked := by simp [State.unasked]
@[simp] theorem handDryer_unasked : (handDryer s).unasked ↔ s.unasked := by simp [State.unasked]
@[simp] theorem handMode_unasked : (handMode s).unasked ↔ s.unasked := by simp [State.unasked]
@[simp] theorem handCommand_unasked : (handCommand s).unasked ↔ s.unasked := by simp [State.unasked]
@[simp] theorem requestSetpoint_unasked : (requestSetpoint s).unasked ↔ s.unasked := by simp [State.unasked]
@[simp] theorem setDemand_unasked (d : Int) : (setDemand d s).unasked ↔ s.unasked := by simp [State.unasked]
@[simp] theorem takeBedIn_unasked : (takeBedIn s).unasked ↔ s.unasked := by simp [State.unasked]
@[simp] theorem listenTest_unasked : (listenTest s).unasked ↔ s.unasked := by simp [State.unasked]
@[simp] theorem applyHold_unasked : (applyHold s).unasked ↔ s.unasked := by simp [State.unasked]
@[simp] theorem lowerOffer_unasked : (lowerOffer s).unasked ↔ s.unasked := by simp [State.unasked]
@[simp] theorem stopTrain_unasked (m : Mode) : (stopTrain m s).unasked ↔ s.unasked := by simp [State.unasked]

@[simp] theorem queueCede_unasked (h : s.unasked) : (queueCede s).unasked :=
  unasked_iff.mpr (queueCede_entries entryLaw_owner (unasked_iff.mp h))

@[simp] theorem withdrawClaim_unasked (h : s.unasked) : (withdrawClaim s).unasked :=
  unasked_iff.mpr (withdrawClaim_entries (unasked_iff.mp h))

@[simp] theorem sequencerReact_unasked (h : s.unasked) : (sequencerReact s).unasked :=
  unasked_iff.mpr (sequencerReact_entries entryLaw_owner (unasked_iff.mp h))

@[simp] theorem settle_unasked (h : s.unasked) : (settle s).unasked := by simp [settle, h]

@[simp] theorem replyTo_unasked (c k a n : Nat) (r : OrderOutcome) (h : s.unasked) :
    (replyTo .other c k a n r s).unasked := enqueue_unasked _ (by decide) h

@[simp] theorem replyDue_unasked (d : Due) (r : OrderOutcome) (h : s.unasked) : (replyDue d r s).unasked :=
  enqueue_unasked _ (by decide) h

@[simp] theorem queueOffer_unasked (h : s.unasked) : (queueOffer s).unasked := enqueue_unasked _ (by decide) h
@[simp] theorem enterHold_unasked (h : s.unasked) : (enterHold s).unasked := by simp [enterHold, h]
@[simp] theorem enterShutIn_unasked (h : s.unasked) : (enterShutIn s).unasked := by simp [enterShutIn, h]

@[simp] theorem enterListen_unasked (h : s.unasked) : (enterListen s).unasked := by
  unfold enterListen; dsimp only; split <;> (try split) <;> simp [h]

@[simp] theorem release_unasked (h : s.unasked) : (release s).unasked := by
  unfold release; split <;> (try split) <;> simp [h]

@[simp] theorem endHold_unasked (h : s.unasked) : (endHold s).unasked := by
  unfold endHold; split <;> (try split) <;> simp [h]

@[simp] theorem fieldLostMode_unasked (h : s.unasked) : (fieldLostMode s).unasked := by
  unfold fieldLostMode; split <;> simp [h]

/-! ### Booking and charges -/

@[simp] theorem compareSpaces_unasked (shares : List Nat) (h : s.unasked) : (compareSpaces shares s).unasked := by
  unfold compareSpaces
  generalize List.filter _ (List.range 17) = slots
  induction slots generalizing s with
  | nil => exact h
  | cons slot rest ih =>
    refine ih ?_
    unfold compareSpace
    split <;> simp [h]

@[simp] theorem bookEnergy_unasked (f : Flow) (v hh : Nat) (w : List Nat) (bed : Option Bed) (h : s.unasked) :
    (bookEnergy f v hh w bed s).2.2.unasked := by
  unfold bookEnergy; cases f <;> dsimp only <;> split <;> simp [h]

@[simp] theorem bookFuel_unasked (k : FuelKind) (n : Nat) (w : List Nat) (h : s.unasked) : (bookFuel k n w s).unasked := by
  unfold bookFuel; dsimp only; split <;> simp [h]

@[simp] theorem bookRegeneration_unasked (bed : Option Bed) (g : Nat) (h : s.unasked) :
    (bookRegeneration bed g s).unasked := by
  unfold bookRegeneration; cases bed <;> simp [h]

@[simp] theorem bookInterval_unasked (v hh n : Nat) (h : s.unasked) : (bookInterval v hh n s).unasked := by
  unfold bookInterval
  dsimp only
  rw [onBlock_unasked.2.2.2.2.2.2.2.2.1]
  refine bookFuel_unasked _ _ _ ?_
  split
  · exact h
  · split
    · exact raise_unasked _ _ _ (bookEnergy_unasked _ _ _ _ _ h)
    · exact bookEnergy_unasked _ _ _ _ _ h

@[simp] theorem chargeBed_unasked (bed : Bed) (h : s.unasked) : (chargeBed bed s).unasked := by simp [chargeBed, h]

@[simp] theorem takeBedOut_unasked (bed : Bed) (h : s.unasked) : (takeBedOut bed s).unasked := by
  unfold takeBedOut; dsimp only; split <;> simp [h]

@[simp] theorem bedFault_unasked (bed : Bed) (h : s.unasked) : (bedFault bed s).unasked := by simp [bedFault, h]

@[simp] theorem dryerMinute_unasked (r : Interval) (h : s.unasked) : (dryerMinute r s).unasked := by
  have hfuel {u : State} (hu : u.unasked) : (dryerFuel r u).unasked := by
    unfold dryerFuel; dsimp only; split
    · simp [hu]
    · split <;> simp [hu]
  have hdew {u : State} (w : Bool) (hu : u.unasked) : (dryerDew w r u).unasked := by
    unfold dryerDew; dsimp only; repeat' split
    all_goals simp [hu]
  have hphase {u : State} (bed : Bed) (b : BedState) (hu : u.unasked) : (dryerPhase bed b r u).unasked := by
    unfold dryerPhase; repeat' split
    all_goals simp [hu]
  have hlimit {u : State} (hu : u.unasked) : (dryerLimitStep r u).unasked := by
    unfold dryerLimitStep; dsimp only; split <;> simp [hu]
  unfold dryerMinute
  refine handDryer_unasked.mpr (hlimit (State.unasked_of_link ?_ (dryerSwitch_frame _).2.2.2.2.2.2.2))
  exact hphase _ _ (hphase _ _ (hdew _ (hfuel (State.unasked_of_link h (dryerWater_frame _ _ _).2.2.2.2.2.2.2))))

/-! ### The accounts, the intake and the clock -/

theorem abandonReports_unasked (h : s.unasked) : (abandonReports s).unasked := by
  have hmap : (s.onLink (fun l => { l.withdraw Entry.isDay with
      queue := (l.withdraw Entry.isDay).queue.map (fun e => if e.isDay then { e with owner := .pastClose } else e) })).unasked := by
    intro x hx
    obtain ⟨y, hy, rfl⟩ := List.mem_map.mp hx
    split
    · simp
    · exact withdraw_unasked h Entry.isDay y hy
  unfold abandonReports
  dsimp only
  split
  · exact hmap
  · exact raise_unasked _ _ _ hmap

@[simp] theorem closeDay_unasked (day : Nat) (h : s.unasked) : (closeDay day s).unasked := by
  simp [closeDay, abandonReports_unasked h]

@[simp] theorem toSuspense_unasked (span : Nat) (v : Option Nat) (h : s.unasked) : (toSuspense span v s).unasked := by
  unfold toSuspense; dsimp only; split
  · simp [h]
  · split <;> simp [h]

@[simp] theorem bookSuspense_unasked (f : Flow) (bed : Option Bed) (h : s.unasked) : (bookSuspense f bed s).unasked := by
  unfold bookSuspense; split
  · exact h
  · split <;> simp [h]

theorem takeMeter_unasked (p : Sample) (h : s.unasked) : (takeMeter p s).unasked := by
  have hdiff (dv span : Nat) (b : Bool) : (takeDifference dv span b s).unasked := by
    unfold takeDifference; dsimp only; repeat' split
    all_goals simp [h]
  unfold takeMeter; dsimp only; repeat' split
  all_goals simp [h, hdiff]

theorem closeInterval_unasked (h : s.unasked) : (closeInterval s).2.unasked := by
  unfold closeInterval raiseCv; dsimp only; split
  · simp [h]
  · split <;> simp [h]

theorem meterMinute_unasked (h : s.unasked) : (meterMinute s).2.unasked := by
  have hcarry {u : State} (f : Compressor → Compressor) (hu : u.unasked) : (u.onComp f).unasked := hu
  exact dryerMinute_unasked _ (bookSuspense_unasked _ _ (bookSuspense_unasked _ _ (bookInterval_unasked _ _ _
    (hcarry _ (closeInterval_unasked h)))))

theorem trainMinute_unasked (r : Interval) (h : s.unasked) : (trainMinute r s).unasked := by
  have hseq : (sequencerMinute r s).unasked := by
    unfold sequencerMinute startLimitTest; split <;> (try split) <;> simp [h]
  have hmode {u : State} (hu : u.unasked) : (modeMinute r u).unasked := by
    unfold modeMinute
    refine queueOffer_unasked (State.unasked_of_link hu ?_)
    simp [directionStep]
  exact sequencerReact_unasked (hmode (sequencerReact_unasked hseq))

theorem hourlyReport_unasked (h : s.unasked) : (hourlyReport s).unasked := by
  have hq : (enqueue (.hourly (hourlyOf s)) .other s).unasked := enqueue_unasked _ (by decide) h
  exact hq

theorem reportHour_unasked (h : s.unasked) : (reportHour s).unasked := by
  refine hourlyReport_unasked ?_
  simp only [queueInvts, queueInvt]
  exact enqueue_unasked _ (by decide) (enqueue_unasked _ (by decide) (State.unasked_of_link h (takeCheckpoint_frame s).2.2.1))

theorem keptByClock_unasked : KeptByClock State.unasked where
  meter _ h := meterMinute_unasked h
  close _ _ h := closeDay_unasked _ h
  nominate _ h := h
  train r _ h := trainMinute_unasked r h
  report _ h := reportHour_unasked h
  clock _ _ h := h
  tick _ h := h
  advance _ h := h
  stepClock _ _ h := h
  adopted _ _ _ h := h
  listen _ h := by simpa using h
  port _ _ h := h
  refuse _ _ _ h := raise_unasked _ _ _ h

/-! ### The compressor, the link and the orders -/

theorem ownHead_unasked (h : s.unasked) : (ownHead s).unasked := State.unasked_of_link h (by simp)
theorem removeFromCopy_unasked (n : Nat) (h : s.unasked) : (removeFromCopy n s).unasked := State.unasked_of_link h (by simp)

theorem takeTrip_unasked (h : s.unasked) : (takeTrip s).unasked := by
  have hraised {u : State} (n : Nat) (hu : u.unasked) : (if n ≥ 3 then raise .compLockout 0 3 u else u).unasked := by
    split
    · exact raise_unasked _ _ _ hu
    · exact hu
  unfold takeTrip
  dsimp only
  split
  · exact queueCede_unasked (hraised _ (raise_unasked _ _ _ h))
  · exact queueCede_unasked (hraised _ (raise_unasked _ _ _ h))
  · exact withdrawClaim_unasked (hraised _ (raise_unasked _ _ _ h))
  all_goals exact hraised _ (raise_unasked _ _ _ h)

theorem takeFeedback_unasked (fb : Option Feedback) (h : s.unasked) : (takeFeedback fb s).unasked := by
  have htable (before : Option Feedback) (f : Feedback) {u : State} (hu : u.unasked) :
      (feedbackTable before f u).unasked := by
    unfold feedbackTable; split <;> (try split) <;>
      simp [hu, takeTrip_unasked, State.unasked_of_link (s := u) (t := autoRestart u) hu (by simp)]
  unfold takeFeedback
  split
  · exact h
  · dsimp only
    split
    · exact State.unasked_of_link h (by simp)
    · exact htable _ _ h

theorem takeSample_unasked (r : Option Sample) (h : s.unasked) : (takeSample r s).1.unasked := by
  unfold takeSample; split
  · exact h
  · next p =>
    split
    · exact h
    · unfold acceptSample
      have hfb : (takeFeedback p.feedback (endHold (s.onIntake (·.accept p)))).unasked :=
        takeFeedback_unasked _ (endHold_unasked h)
      dsimp only
      split
      · exact hfb
      · exact State.unasked_of_link (takeMeter_unasked p hfb) (by simp)

theorem quit_unasked (h : s.unasked) (st : LinkState) : (s.onLink (·.quit st)).unasked :=
  map_unasked h (g := Entry.halted) (fun _ => rfl) rfl

theorem enterFault_unasked (v : Int) (h : s.unasked) : (enterFault v s).unasked :=
  sequencerReact_unasked (raise_unasked _ _ _ (lowerOffer_unasked.mpr (quit_unasked h .fault)))

theorem takeDuplicate_unasked (k : Nat) (h : s.unasked) : (takeDuplicate k s).unasked := by
  unfold takeDuplicate
  split
  · exact h
  · exact sequencerReact_unasked (raise_unasked _ _ _ (lowerOffer_unasked.mpr (quit_unasked h .silent)))

theorem ownClaimEcho_unasked (h : s.unasked) : (ownClaimEcho s).unasked := by
  unfold ownClaimEcho
  dsimp only
  split
  · exact h
  · split
    · exact queueCede_unasked h
    · split
      · refine ownHead_unasked ?_
        split
        · exact h
        · exact queueCede_unasked h
      · split
        · exact h
        · exact queueCede_unasked h

theorem echoIntact_unasked (h : s.unasked) : (echoIntact s).unasked := by
  unfold echoIntact
  split
  · exact sequencerReact_unasked (State.unasked_of_link (s := s.onLink (fun l => { l with
      state := .active, join := .absent, joinFailures := 0 })) h (by simp [joinDone]))
  · split
    · exact h
    · next e _ =>
      refine sequencerReact_unasked ?_
      have hr : (s.onLink (·.remove e)).unasked := remove_unasked h e
      unfold tellSent
      split
      · exact hr
      · exact ownClaimEcho_unasked hr
      · exact removeFromCopy_unasked _ hr
      · exact hr

theorem countBrokenEcho_unasked (h : s.unasked) : (countBrokenEcho s).unasked := by
  unfold countBrokenEcho; split
  · exact h
  · exact h

theorem failEntry_unasked (e : Entry) (h : s.unasked) : (failEntry e s).unasked := by
  have hr : (s.onLink (·.remove e)).unasked := remove_unasked h e
  unfold failEntry
  dsimp only
  split
  · exact queueCede_unasked (raise_unasked _ _ _ (by simpa using hr))
  · exact raise_unasked _ _ _ (by simpa using hr)

theorem echoMismatch_unasked (h : s.unasked) : (echoMismatch s).unasked := by
  have hb := countBrokenEcho_unasked h
  unfold echoMismatch
  split
  · unfold joinMismatch
    split
    · dsimp only
      split
      · exact enterFault_unasked _ hb
      · exact hb
    all_goals exact hb
  · split
    · exact h
    · dsimp only
      split
      · exact sequencerReact_unasked (failEntry_unasked _ hb)
      · exact map_unasked hb (g := fun x => if x.ticket = _ then { x with onLine := false, mismatches := x.mismatches + 1 } else x)
          (fun x => by split <;> rfl) rfl

theorem start_unasked (h : s.unasked) : (s.onLink Link.start).unasked := by
  refine onLink_unasked h _ fun x hx => ?_
  have hfirst (hx : x ∈ startFirst s.link.queue) : ∃ y ∈ s.link.queue, x.owner = y.owner := by
    cases hq : s.link.queue with
    | nil => rw [hq] at hx; cases hx
    | cons e rest =>
      rw [hq] at hx
      rcases List.mem_cons.mp hx with rfl | hrest
      · exact ⟨e, List.mem_cons_self, rfl⟩
      · exact ⟨x, List.mem_cons_of_mem _ hrest, rfl⟩
  unfold Link.start at hx
  split at hx
  · exact ⟨x, hx, rfl⟩
  · split at hx
    · exact hfirst hx
    · split at hx <;> exact ⟨x, hx, rfl⟩
    · split at hx <;> exact ⟨x, hx, rfl⟩
    · exact ⟨x, hx, rfl⟩

theorem dayReportStep_unasked (h : s.unasked) : (dayReportStep s).unasked := by
  have hqueue (n : Nat) : (queueDayReport n s).unasked := by
    have hentered (u : State) (hu : u.unasked) (t : Telegram) : (enqueue t .dayCursor u).unasked :=
      enqueue_unasked t (by decide) hu
    unfold queueDayReport
    dsimp only
    split <;> simp [hentered, h]
  unfold dayReportStep
  split
  · split
    · exact h
    · exact hqueue _
  · exact h

theorem shutIn_unasked (h : s.unasked) : (shutIn s).unasked := by
  unfold shutIn; split <;> simp [h]

theorem leaveConfig_unasked (b : Bool) (h : s.unasked) : (leaveConfig b s).unasked := by
  have hrestore {u : State} (hu : u.unasked) : (raiseRestore u).unasked := by
    unfold raiseRestore; dsimp only; split <;> simp [hu]
  have hfirst {u : State} (hu : u.unasked) : (firstSetpoint (u.onLink (fun l =>
      { l with state := .joining, join := .waiting }))).unasked := by
    rw [firstSetpoint, requestSetpoint_unasked]
    exact hu
  have htrain (m : Mode) : (s.onTrain (fun c => { c with mode := m })).unasked := h
  unfold leaveConfig
  split
  · cases b with
    | true => exact hfirst (hrestore (htrain _))
    | false => exact enterListen_unasked (hfirst (hrestore (htrain _)))
  · exact h

theorem lineReset_unasked : (lineReset s).unasked := by
  refine handAll_unasked.mpr (leaveConfig_unasked _ ?_)
  simp [State.unasked, lineResetBlocks, Link.lineReset]

theorem unasked_of_reset {t : State} (h : t.link = {}) : t.unasked := by
  unfold State.unasked
  simp [h]

theorem powerOn_unasked (n : Nat) (u : Bool) (sl : List Nat) : (powerOn n u sl s).unasked := by
  have hring (m : Image) {t : State} (ht : t.unasked) : (restoreRing m sl t).unasked := by
    unfold restoreRing; split <;> exact ht
  unfold powerOn
  dsimp only
  split
  · exact unasked_of_reset rfl
  · exact handAll_unasked.mpr (leaveConfig_unasked _ (hring _ (unasked_of_reset rfl)))

theorem takeOrder_unasked (src k arg n : Nat) (answer : State → State × Option OrderOutcome) (h : (answer s).1.unasked) :
    (takeOrder src k arg n answer s).unasked := by
  rcases takeOrder_cases s src k arg n answer with ho | ⟨o, ho⟩ <;> simp [ho, h]

theorem answerBedOut_unasked (arg : Nat) (h : s.unasked) : (answerBedOut arg s).1.unasked := by
  unfold answerBedOut
  split
  · exact h
  · dsimp only; split <;> simp [h]

theorem answerUnlock_unasked (h : s.unasked) : (answerUnlock s).1.unasked := by
  unfold answerUnlock; split <;> simp [h]

theorem takeHalt_unasked (src : Nat) (h : s.unasked) : (takeHalt src s).unasked := by
  unfold takeHalt
  dsimp only
  split
  · exact h
  · split
    · exact shutIn_unasked h
    · exact h

theorem takeOffer_unasked (src dir o target : Nat) (h : s.unasked) : (takeOffer src dir o target s).unasked := by
  unfold takeOffer; dsimp only; split <;> (try split) <;> simp [h]

theorem phaseExpiry_unasked (bed : Bed) (p : BedState) (m : Nat) (h : s.unasked) : (phaseExpiry bed p m s).unasked := by
  unfold phaseExpiry; split <;> simp [h]

theorem timeOutStart_unasked (h : s.unasked) : (timeOutStart s).unasked := by
  unfold timeOutStart; split <;> simp [h]

theorem failWrite_unasked (h : s.unasked) : (failWrite s).unasked := by
  obtain ⟨e, n, ha⟩ := abandonWrite_eq s
  unfold failWrite
  rw [ha]
  split
  · exact h
  · exact raise_unasked _ _ _ (State.unasked_of_link h (by simp))

theorem takeNomination_unasked (slot day hour : Nat) (rate : Int) (h : s.unasked) :
    (takeNomination slot day hour rate s).unasked := by
  unfold takeNomination; split <;> simp [h]

theorem takeJoin_unasked (src : Nat) (h : s.unasked) : (takeJoin src s).unasked := by
  have hleft : ((removeFromCopy src s).onPeers (·.setOffer src none)).unasked := removeFromCopy_unasked src h
  exact sequencerReact_unasked (queueOffer_unasked (enqueue_unasked _ (by decide) (enqueue_unasked _ (by decide) hleft)))

theorem takeInvt_unasked (src half : Nat) (inv : List Int) (h : s.unasked) : (takeInvt src half inv s).unasked := by
  unfold takeInvt; split <;> simp [h]

theorem timerTests_unasked (h : s.unasked) : (fieldLateTest s).unasked ∧ (fieldLostTest s).unasked
    ∧ ∀ f, (suspenseOldTest f s).unasked := by
  refine ⟨?_, ?_, fun f => ?_⟩
  · unfold fieldLateTest; split <;> simp [h]
  · unfold fieldLostTest; split <;> simp [h]
  · unfold suspenseOldTest; split <;> (try split) <;> simp [h]

theorem takeClaim_unasked (n : Nat) (h : s.unasked) : (takeClaim n s).unasked := by
  unfold takeClaim; repeat' split
  all_goals exact h

theorem lineHeld_unasked (h : s.unasked) : (lineHeld s).unasked := by
  unfold lineHeld
  split
  · exact h
  · split
    · exact enterFault_unasked _ h
    · exact enterFault_unasked _ h
    all_goals exact h

theorem recover_unasked (h : s.unasked) : (s.onLink Link.recover).unasked := by
  refine onLink_unasked h _ fun x hx => ⟨x, ?_, rfl⟩
  unfold Link.recover at hx
  split at hx <;> exact hx

/-- Every command's block but that of ORDER RESTART. -/
theorem work_unasked (c : Instr) (hres : ∀ src dst arg litres, c ≠ .orderRestart src dst arg litres) (h : s.unasked) : (work c s).unasked := by
  cases c with
  | powerOnReset n u l => exact powerOn_unasked n u l
  | powerLoss => exact unasked_of_reset rfl
  | lineReset n => exact lineReset_unasked
  | clockSecond => exact keptByClock_unasked.takeSecond h
  | time => exact keptByClock_unasked.takeTime _ _ h
  | noms => exact takeNomination_unasked _ _ _ _ h
  | offer => exact takeOffer_unasked _ _ _ _ h
  | invt => exact takeInvt_unasked _ _ _ h
  | claim => exact takeClaim_unasked _ h
  | cede => exact sequencerReact_unasked (removeFromCopy_unasked _ h)
  | join => exact takeJoin_unasked _ h
  | halt => exact takeHalt_unasked _ h
  | orderShut => exact takeOrder_unasked _ _ _ _ _ (shutIn_unasked h)
  | orderRelease =>
    refine takeOrder_unasked _ _ _ _ _ ?_
    rcases answerRelease_cases (s := s) with hr | ⟨-, hr⟩ <;> simp [hr, h]
  | orderUnlock => exact takeOrder_unasked _ _ _ _ _ (answerUnlock_unasked h)
  | orderBedOut => exact takeOrder_unasked _ _ _ _ _ (answerBedOut_unasked _ h)
  | orderBedIn => exact takeOrder_unasked _ _ _ _ _ (State.unasked_of_link h (by simp))
  | orderAccept | orderCorrect => exact takeOrder_unasked _ _ _ _ _ (State.unasked_of_link h (by simp))
  | orderClear | orderUnknownCommand => exact takeOrder_unasked _ _ _ _ _ h
  | orderRestart src dst arg n => exact absurd rfl (hres src dst arg n)
  | dupStation => exact takeDuplicate_unasked _ h
  | sendStart => exact start_unasked h
  | arbitrationLost => exact map_unasked h (g := Entry.halted) (fun _ => rfl) rfl
  | echoIntact => exact echoIntact_unasked h
  | echoMismatch => exact echoMismatch_unasked h
  | lineHeld => exact lineHeld_unasked h
  | faultIdleWait => exact recover_unasked h
  | dayReportQueue => exact dayReportStep_unasked h
  | sample => exact takeSample_unasked _ h
  | fieldLate => exact (timerTests_unasked h).1
  | fieldLost => exact (timerTests_unasked h).2.1
  | suspenseOld f => exact (timerTests_unasked h).2.2 f
  | startTimeout => exact timeOutStart_unasked h
  | heatMaximum | coolMaximum => exact phaseExpiry_unasked _ _ _ h
  | ckptFail => exact failWrite_unasked h
  | checkpointWriteDone => exact State.unasked_of_link h (completeWrite_frame s).2.2.1
  | setpointSendDone | minStopElapsed | headHoldExpiry => exact State.unasked_of_link h (by simp [work])
  | listen30sMark | listen120sMark => exact State.unasked_of_link h (by simp [work])
  | resume | report | unknownKind | receiveError | holdBackRunOut | minRunElapsed | zeroDemand300s | startHistoryAgeOut
  | tripHistoryAgeOut => exact h

end Sys2Proof.Machine
end


section
/-! PROOFS. A pending restart (R161): what settles it, that no event leaves it without its reply, and that every other event is
what it is without it. -/

namespace Sys2Proof.Machine

open Sys2Proof (Bed Flow Mode Feedback)

variable {s t v : State} {c : Instr}

/-! ### The end of an event -/

theorem settleRestart_of_sound (h : s.restartSound) : settleRestart s = s := by
  obtain ⟨hreply, hactive⟩ := h
  unfold settleRestart
  refine if_neg fun ⟨hp, hdue⟩ => ?_
  obtain ⟨e, he, ho⟩ := hreply.mp hp
  rcases hdue with hstate | hnone
  · exact hstate (hactive hp)
  · exact absurd (decide_eq_true ho) (List.any_eq_false.mp hnone e he)

theorem settleRestart_due (hp : s.link.restartPending = true) (h : s.link.state ≠ .active ∨ s.unasked) :
    settleRestart s = lineReset s := by
  unfold settleRestart
  refine if_pos ⟨hp, h.imp id fun hu => ?_⟩
  rw [List.any_eq_false]
  exact fun x hx => by simpa using hu x hx

theorem due_of_unsound (hp : s.link.restartPending = true) (h : ¬ s.restartSound) : s.link.state ≠ .active ∨ s.unasked := by
  by_contra hx
  obtain ⟨hactive, hasked⟩ := not_or.mp hx
  refine h ⟨iff_of_true hp ?_, fun _ => not_not.mp hactive⟩
  by_contra hnone
  exact hasked fun x hx hr => hnone ⟨x, hx, hr⟩

/-- A restart that is not pending has no reply that waits. -/
def State.answered (s : State) : Prop := s.link.restartPending = false → s.unasked

theorem answered_of_sound (h : s.restartSound) : s.answered := fun hp x hx hr => by
  have hpending := h.1.mpr ⟨x, hx, hr⟩
  rw [hp] at hpending
  cases hpending

theorem sound_of_unasked (hp : s.link.restartPending = false) (h : s.unasked) : s.restartSound :=
  ⟨iff_of_false (by simp [hp]) fun ⟨x, hx, hr⟩ => h x hx hr, fun hx => by rw [hp] at hx; cases hx⟩

theorem lineReset_sound : (lineReset s).restartSound := sound_of_unasked (by simp) lineReset_unasked

/-- An event ends with a restart that waits for its reply on an ACTIVE link, or with none. -/
theorem settleRestart_sound (h : s.answered) : (settleRestart s).restartSound := by
  by_cases hsound : s.restartSound
  · rwa [settleRestart_of_sound hsound]
  · cases hp : s.link.restartPending with
    | false => exact absurd (sound_of_unasked hp (h hp)) hsound
    | true =>
      rw [settleRestart_due hp (due_of_unsound hp hsound)]
      exact lineReset_sound

/-- What moves on the line, or of the counts, without an entry coming or going. -/
theorem sound_of_owners (h : s.restartSound) (hp : t.link.restartPending = s.link.restartPending)
    (hst : s.link.state = .active → t.link.state = .active)
    (hq : t.link.queue.map (·.owner) = s.link.queue.map (·.owner)) : t.restartSound := by
  have hreply : (∃ e ∈ t.link.queue, e.owner = .restart) ↔ ∃ e ∈ s.link.queue, e.owner = .restart := by
    rw [← List.mem_map (f := fun e : Entry => e.owner), ← List.mem_map (f := fun e : Entry => e.owner), hq]
  rw [State.restartSound, hp, hreply]
  exact ⟨h.1, fun hx => hst (h.2 hx)⟩

theorem sound_of_link (h : s.restartSound) (hl : t.link = s.link) : t.restartSound :=
  sound_of_owners h (by rw [hl]) (by rw [hl]; exact id) (by rw [hl])

theorem start_sound (h : s.restartSound) : (s.onLink Link.start).restartSound := by
  have hstart (l : Link) : l.start.restartPending = l.restartPending ∧ l.start.state = l.state
      ∧ l.start.queue.map (·.owner) = l.queue.map (·.owner) := by
    unfold Link.start
    split
    · exact ⟨rfl, rfl, rfl⟩
    · split
      · exact ⟨rfl, rfl, by cases l.queue <;> rfl⟩
      · split <;> exact ⟨rfl, rfl, rfl⟩
      · split <;> exact ⟨rfl, rfl, rfl⟩
      · exact ⟨rfl, rfl, rfl⟩
  obtain ⟨hp, hst, hq⟩ := hstart s.link
  exact sound_of_owners h hp (fun hx => hst.trans hx) hq

theorem lose_sound (h : s.restartSound) : (s.onLink Link.lose).restartSound :=
  sound_of_owners h rfl id (by simp [Link.lose, Entry.halted])

theorem recover_sound (h : s.restartSound) : (s.onLink Link.recover).restartSound := by
  refine sound_of_owners h ?_ (fun hx => ?_) ?_
  · simp only [State.onLink_link, Link.recover]
    split <;> rfl
  · have hno : ¬ (s.link.state = .fault ∧ s.link.join = .absent) := fun hf => by rw [hx] at hf; cases hf.1
    simpa only [State.onLink_link, Link.recover, if_neg hno] using hx
  · simp only [State.onLink_link, Link.recover]
    split <;> rfl

/-! ### Every event keeps a restart with its reply -/

theorem settle_answered (h : s.answered) : (settle s).answered := fun hp =>
  settle_unasked (h (by simpa using hp))

theorem handAll_answered (h : s.answered) : (handAll s).answered := fun hp =>
  handAll_unasked.mpr (h (by simpa using hp))

theorem requestSetpoint_answered (h : s.answered) : (requestSetpoint s).answered := fun hp =>
  requestSetpoint_unasked.mpr (h (by simpa using hp))

theorem takeRestart_answered (src k arg n : Nat) : (takeRestart src k arg n s).answered := by
  unfold takeRestart
  split
  · exact answered_of_sound lineReset_sound
  · split
    · next hp => exact fun hx => absurd hx (by simpa [replyTo] using hp)
    · exact fun hx => absurd hx (by simp [replyTo])

theorem powerOn_pending (n : Nat) (u : Bool) (l : List Nat) : (powerOn n u l s).link.restartPending = false := by
  unfold powerOn
  dsimp only
  split
  · rfl
  · unfold restoreRing
    simp
    split <;> rfl

theorem work_sound_plainly (h : s.restartSound) (hc : endsPlainly c = true) : (work c s).restartSound := by
  cases c with
  | powerOnReset n u l => exact sound_of_unasked (powerOn_pending n u l) (powerOn_unasked n u l)
  | powerLoss => exact sound_of_unasked rfl (unasked_of_reset rfl)
  | lineReset n => exact lineReset_sound
  | sendStart => exact start_sound h
  | arbitrationLost => exact lose_sound h
  | faultIdleWait => exact recover_sound h
  | holdBackRunOut => exact h
  | setpointSendDone => exact sound_of_link h (by simp [work])
  | checkpointWriteDone => exact sound_of_link h (completeWrite_frame s).2.2.1
  | _ => cases hc

theorem work_answered (h : s.restartSound) : (work c s).answered := by
  by_cases hc : goesOn c = true
  · intro hp
    have hpending := ((work_overlays (s := s) hc).pending true).2
    exact work_unasked c (fun _ _ _ _ hx => by rw [hx] at hc; cases hc) (answered_of_sound h (hpending ▸ hp))
  · cases c with
    | powerOnReset | powerLoss | lineReset => exact answered_of_sound (work_sound_plainly h rfl)
    | orderRestart src dst arg n => exact takeRestart_answered src 9 arg n
    | _ => exact absurd rfl hc

/-- No event leaves a restart pending without its reply in the queue of an ACTIVE link, nor the reply without it. -/
theorem exec_restartSound (h : s.restartSound) (he : exec c s = .next t) : t.restartSound := by
  cases exec_cases he with
  | ignored => exact h
  | received | discarded => exact sound_of_owners h rfl id rfl
  | failed => exact sound_of_link h (by simp)
  | duplicate kind =>
    exact settleRestart_sound (handAll_answered fun hp =>
      takeDuplicate_unasked kind (answered_of_sound h (by simpa using hp)))
  | worked hw =>
    cases hw with
    | plain hc => exact work_sound_plainly h hc
    | finished => exact settleRestart_sound (handAll_answered (work_answered h))
    | settled => exact settleRestart_sound (settle_answered (work_answered h))
    | sampled => exact settleRestart_sound (requestSetpoint_answered (settle_answered (work_answered h)))

end Sys2Proof.Machine
end


section
/-! PROOFS. Every event beside a pending restart is what it is without it, followed by the reset when the reply or the ACTIVE
link is gone (R161). -/

namespace Sys2Proof.Machine

open Sys2Proof (Bed Flow Mode Feedback)

variable {s : State} {c : Instr} {f : State → State}

/-- An event that comes to the same from a pending restart and from none, and then settles it. -/
def Settles (c : Instr) (s : State) : Prop := ∃ E : State → State, Overlays E s ∧ (E s).powered = true
  ∧ ∀ b, exec c (s.overlaid s.intake b) = .next (settleRestart (E (s.overlaid s.intake b)))

/-! ### What settles -/

theorem Settles.of_plain (hf : Overlays f s) (hp : (f s).powered = true) (hs : (f s).restartSound)
    (hon : s.link.restartPending = true) (he : ∀ b, exec c (s.overlaid s.intake b) = .next (f (s.overlaid s.intake b))) :
    Settles c s := by
  refine ⟨f, hf, hp, fun b => ?_⟩
  obtain ⟨heq, hmark⟩ := hf.pending b
  rw [he, heq]
  refine congrArg _ ?_
  cases b with
  | false => exact (settleRestart_eq_self _ rfl).symm
  | true =>
    exact (settleRestart_of_sound (sound_of_owners (t := (f s).overlaid (f s).intake true) hs (hmark.trans hon).symm id rfl)).symm

theorem Settles.of_event (hf : Overlays f s) (hp : (f s).powered = true)
    (he : ∀ b, exec c (s.overlaid s.intake b) = .next (settleRestart (f (s.overlaid s.intake b)))) : Settles c s := ⟨f, hf, hp, he⟩

theorem settle_overlays : Overlays settle s :=
  .after (x := applyHold (sequencerReact s)) handAll_overlays (fun i b => by simp [settle]) rfl

section
variable (hp : s.powered = true)
include hp

theorem Settles.of_finish (hf : Overlays f s) (hf' : (f s).powered = s.powered)
    (he : ∀ b, exec c (s.overlaid s.intake b) = .next (finish (f (s.overlaid s.intake b)))) : Settles c s :=
  .of_event (hf.then handAll_overlays) (by simpa [hf'] using hp) he

theorem Settles.of_timed (hf : Overlays f s) (hf' : (f s).powered = s.powered) (he : ∀ u, exec c u = timed f u) : Settles c s :=
  .of_event (hf.then settle_overlays) (by simpa [hf'] using hp) fun b => by
    rw [he, timed, plain_exec (by simpa using hp)]

theorem Settles.of_while (hf : Overlays f s) (hf' : (f s).powered = s.powered)
    (he : ∀ u, exec c u = whilePowered (fun u => finish (f u)) u) : Settles c s :=
  .of_finish hp hf hf' fun b => by rw [he, plain_exec (by simpa using hp)]

section
variable (hs : s.restartSound) (hon : s.link.restartPending = true)
include hs hon

omit hs in
theorem Settles.of_line (hf : Overlays f s) (hf' : (f s).powered = s.powered) (hsound : (f s).restartSound)
    (he : ∀ u, exec c u = whilePowered f u) : Settles c s :=
  .of_plain hf (hf'.trans hp) hsound hon fun b => by rw [he, plain_exec (by simpa using hp)]

/-- A telegram that the receive filter lets through, or not (R149). -/
theorem Settles.of_received {src dst kind : Nat} {recognised : State → Bool} {take : State → State} (hf : Overlays take s)
    (hf' : (take s).powered = s.powered) (hr : ∀ i b, recognised (s.overlaid i b) = recognised s)
    (he : ∀ u, exec c u = received src dst kind recognised take u) : Settles c s := by
  have hline {g : State → State} (hg : Overlays g s) (hg' : (g s).powered = s.powered) (hsound : (g s).restartSound)
      (h : ∀ b, filterTelegram src dst kind recognised take (s.overlaid s.intake b) = g (s.overlaid s.intake b)) : Settles c s :=
    .of_plain hg (hg'.trans hp) hsound hon fun b => by rw [he, received, plain_exec (by simpa using hp), h]
  have haddressed (b : Bool) : (s.overlaid s.intake b).addressed dst = s.addressed dst := rfl
  by_cases hm : s.train.mode = .config
  · exact hline (g := id) (.of fun _ _ => rfl) rfl hs fun b => by simp [filterTelegram, hm]
  by_cases hz : src = 0
  · exact hline (g := countReceiveError) (.of fun _ _ => rfl) rfl (sound_of_owners hs rfl id rfl) fun b => by
      simp [filterTelegram, hm, hz]
  by_cases hown : src = s.station
  · exact .of_finish hp (f := takeDuplicate kind) (.of fun _ _ => takeDuplicate_overlaid kind) (by simp) fun b => by
      rw [he, received, plain_exec (by simpa using hp), filterTelegram, if_neg (by simpa using hm), if_neg hz,
        if_pos (by simpa using hown)]
  by_cases ha : s.addressed dst = false
  · exact hline (g := id) (.of fun _ _ => rfl) rfl hs fun b => by simp [filterTelegram, hm, hz, hown, haddressed, ha]
  by_cases hk : recognised s = true
  · exact .of_finish hp hf hf' fun b => by
      rw [he, received, plain_exec (by simpa using hp)]
      simp [filterTelegram, hm, hz, hown, haddressed, ha, hr, hk]
  · exact hline (g := countDiscard) (.of fun _ _ => rfl) rfl (sound_of_owners hs rfl id rfl) fun b => by
      simp [filterTelegram, hm, hz, hown, haddressed, ha, hr, hk]

/-- HALT and RESUME, which CONFIG does not ignore (R153). -/
theorem Settles.of_halt {src dst kind : Nat} {take : State → State} (hf : Overlays take s) (hf' : (take s).powered = s.powered)
    (he : ∀ u, exec c u = whilePowered (filterHalt src dst kind take) u) : Settles c s := by
  have hline {g : State → State} (hg : Overlays g s) (hg' : (g s).powered = s.powered) (hsound : (g s).restartSound)
      (h : ∀ b, filterHalt src dst kind take (s.overlaid s.intake b) = g (s.overlaid s.intake b)) : Settles c s :=
    .of_plain hg (hg'.trans hp) hsound hon fun b => by rw [he, plain_exec (by simpa using hp), h]
  have haddressed (b : Bool) : (s.overlaid s.intake b).addressed dst = s.addressed dst := rfl
  by_cases hz : src = 0
  · by_cases hm : s.train.mode = .config
    · exact hline (g := id) (.of fun _ _ => rfl) rfl hs fun b => by simp [filterHalt, hz, hm]
    · exact hline (g := countReceiveError) (.of fun _ _ => rfl) rfl (sound_of_owners hs rfl id rfl) fun b => by
        simp [filterHalt, hm, hz]
  by_cases hown : src = s.station
  · exact .of_finish hp (f := takeDuplicate kind) (.of fun _ _ => takeDuplicate_overlaid kind) (by simp) fun b => by
      rw [he, plain_exec (by simpa using hp), filterHalt, if_neg hz, if_pos (by simpa using hown)]
  by_cases ha : s.addressed dst = false
  · exact hline (g := id) (.of fun _ _ => rfl) rfl hs fun b => by simp [filterHalt, hz, hown, haddressed, ha]
  · exact .of_finish hp hf hf' fun b => by
      rw [he, plain_exec (by simpa using hp)]
      simp [filterHalt, hz, hown, haddressed, ha]

/-- A REPORT, which nobody takes, but for a source 0 and the own number (R149). -/
theorem Settles.of_report (src dst : Nat) : Settles (.report src dst) s := by
  have hexec (b : Bool) : exec (.report src dst) (s.overlaid s.intake b) = .next (
      if s.train.mode ≠ .config ∧ src = 0 then countReceiveError (s.overlaid s.intake b)
      else if s.train.mode ≠ .config ∧ src = s.station then finish (takeDuplicate 11 (s.overlaid s.intake b))
      else s.overlaid s.intake b) := by
    have harm (u : State) : exec (.report src dst) u = execReport src dst u := rfl
    rw [harm, execReport, plain_exec (by simpa using hp)]
    rfl
  by_cases hz : s.train.mode ≠ .config ∧ src = 0
  · exact .of_plain (f := countReceiveError) (.of fun _ _ => rfl) hp (sound_of_owners hs rfl id rfl) hon fun b => by
      rw [hexec, if_pos hz]
  · by_cases hown : s.train.mode ≠ .config ∧ src = s.station
    · exact .of_finish hp (f := takeDuplicate 11) (.of fun _ _ => takeDuplicate_overlaid 11) (by simp) fun b => by
        rw [hexec, if_neg hz, if_pos hown]
    · exact .of_plain (f := id) (.of fun _ _ => rfl) hp hs hon fun b => by rw [hexec, if_neg hz, if_neg hown]; rfl

theorem Settles.of_dupStation (kind : Nat) : Settles (.dupStation kind) s := by
  have hexec (b : Bool) : exec (.dupStation kind) (s.overlaid s.intake b) = .next (
      if s.train.mode = .config ∧ takenInConfig kind = false then s.overlaid s.intake b
      else finish (takeDuplicate kind (s.overlaid s.intake b))) := by
    have harm (u : State) : exec (.dupStation kind) u = execDupStation kind u := rfl
    rw [harm, execDupStation, plain_exec (by simpa using hp)]
    rfl
  by_cases hm : s.train.mode = .config ∧ takenInConfig kind = false
  · exact .of_plain (f := id) (.of fun _ _ => rfl) hp hs hon fun b => by rw [hexec, if_pos hm]; rfl
  · exact .of_finish hp (f := takeDuplicate kind) (.of fun _ _ => takeDuplicate_overlaid kind) (by simp) fun b => by
      rw [hexec, if_neg hm]

/-- An event of the line that CONFIG ignores. -/
theorem Settles.of_unconfigured (hf : Overlays f s) (hf' : (f s).powered = s.powered) (hsound : (f s).restartSound)
    (he : ∀ u, exec c u = whilePowered (fun u => if u.train.mode = .config then u else f u) u) : Settles c s := by
  have hexec (b : Bool) : exec c (s.overlaid s.intake b) = .next (
      if s.train.mode = .config then s.overlaid s.intake b else f (s.overlaid s.intake b)) := by
    rw [he, plain_exec (by simpa using hp)]
    rfl
  by_cases hm : s.train.mode = .config
  · exact .of_plain (f := id) (.of fun _ _ => rfl) hp hs hon fun b => by rw [hexec, if_pos hm]; rfl
  · exact .of_plain hf (hf'.trans hp) hsound hon fun b => by rw [hexec, if_neg hm]

/-- A SAMPLE that is counted or discarded, or one that is taken and answered with a SETPOINT (R122, R132). -/
theorem Settles.of_sample (p : Option Sys2Proof.Sample) : Settles (.sample p) s := by
  obtain ⟨htwin, htaken⟩ := takeSample_overlays (s := s) p
  have hexec (b : Bool) : exec (.sample p) (s.overlaid s.intake b) = .next (sampleStep p (s.overlaid s.intake b)) := by
    have harm (u : State) : exec (.sample p) u = execSample p u := rfl
    rw [harm, execSample, plain_exec (by simpa using hp)]
  by_cases ht : (takeSample p s).2 = true
  · refine .of_event ((htaken.then settle_overlays).then requestSetpoint_overlays) (by simpa using hp) fun b => ?_
    rw [hexec, sampleStep, htwin, if_pos ht]
  · refine .of_plain htaken (by simpa using hp) ?_ hon fun b => ?_
    · refine sound_of_link hs ?_
      cases p with
      | none => simp [takeSample]
      | some p =>
        by_cases h : s.intake.lastSequence = some p.sequence
        · simp [takeSample, h]
        · exact absurd (by simp [takeSample, h]) ht
    · rw [hexec, sampleStep, htwin, if_neg ht]

end

end

theorem takeOrder_powered {src k arg n : Nat} {answer : State → State × Option OrderOutcome}
    (h : (answer s).1.powered = s.powered) : (takeOrder src k arg n answer s).powered = s.powered := by
  rcases takeOrder_cases s src k arg n answer with ho | ⟨o, ho⟩
  · rwa [ho]
  · rw [ho]; simpa using h

theorem work_powered (hc : goesOn c = true) : (work c s).powered = s.powered := by
  cases c with
  | powerOnReset | powerLoss | lineReset | orderRestart => cases hc
  | orderShut | orderRelease | orderUnlock | orderBedOut | orderBedIn | orderAccept | orderCorrect | orderClear
  | orderUnknownCommand => exact takeOrder_powered (by simp)
  | holdBackRunOut | report | unknownKind | receiveError | minRunElapsed | zeroDemand300s | startHistoryAgeOut => rfl
  | sendStart | arbitrationLost | faultIdleWait => rfl
  | _ => simp [work]

/-- The commands that reach the block through the receive filter, and what it takes of them (R149). -/
theorem Settles.of_work {src dst kind : Nat} {recognised : State → Bool} (hp : s.powered = true) (hs : s.restartSound)
    (hon : s.link.restartPending = true) (hc : goesOn c = true) (hr : ∀ i b, recognised (s.overlaid i b) = recognised s)
    (he : ∀ u, exec c u = received src dst kind recognised (work c) u) : Settles c s :=
  .of_received hp hs hon (work_overlays hc) (work_powered hc) hr he

/-- Every event that goes on settles. -/
theorem settles (hp : s.powered = true) (hs : s.restartSound) (hon : s.link.restartPending = true) (hc : goesOn c = true) :
    Settles c s := by
  have hf := work_overlays (s := s) hc
  have hf' := work_powered (s := s) hc
  cases c with
  | powerOnReset | powerLoss | lineReset | orderRestart => cases hc
  | report src dst => exact .of_report hp hs hon src dst
  | dupStation kind => exact .of_dupStation hp hs hon kind
  | sample p => exact .of_sample hp hs hon p
  | halt src dst reason => exact .of_halt hp hs hon hf hf' fun _ => rfl
  | resume src dst => exact .of_halt hp hs hon hf hf' fun _ => rfl
  | receiveError =>
    exact .of_unconfigured hp hs hon (f := countReceiveError) (.of fun _ _ => rfl) rfl (sound_of_owners hs rfl id rfl) fun _ => rfl
  | sendStart => exact .of_unconfigured hp hs hon hf hf' (start_sound hs) fun _ => rfl
  | holdBackRunOut | arbitrationLost | faultIdleWait | setpointSendDone | checkpointWriteDone =>
    exact .of_line hp hon hf hf' (work_sound_plainly hs rfl) fun _ => rfl
  | clockSecond | dayReportQueue | echoIntact | echoMismatch | lineHeld | ckptFail =>
    exact .of_while hp hf hf' fun _ => rfl
  | fieldLate | fieldLost | suspenseOld | listen30sMark | listen120sMark | startTimeout | minStopElapsed | minRunElapsed
  | zeroDemand300s | startHistoryAgeOut | tripHistoryAgeOut | headHoldExpiry | heatMaximum | coolMaximum =>
    exact .of_timed hp hf hf' fun _ => rfl
  | time | noms | offer | invt | claim | cede | join | unknownKind | orderShut | orderRelease | orderUnlock | orderBedOut
  | orderBedIn | orderAccept | orderCorrect | orderClear | orderUnknownCommand =>
    exact .of_work hp hs hon hc (fun _ _ => rfl) fun _ => rfl

end Sys2Proof.Machine
end


section
/-! PROOFS. Every other event is, while a restart is pending, what it is without it, followed by the reset when the reply or the
ACTIVE link is gone (R161). -/

namespace Sys2Proof.Machine

variable {s t : State} {c : Instr}

/-- The line reset that a due restart gives is that of the command, with the pins as last given. -/
theorem settleRestart_exec (hp : t.powered = true) (hon : t.link.restartPending = true) (h : ¬ t.restartSound) :
    .next (settleRestart t) = exec (.lineReset t.straps) t := by
  rw [settleRestart_due hon (due_of_unsound hon h), lineReset_exec hp]

/-- Every event beside a pending restart is what it is without it, followed by the reset when it is due. -/
theorem exec_beside (hs : s.restartSound) (hon : s.link.restartPending = true) (hc : goesOn c = true)
    (he : exec c (s.overlaid s.intake false) = .next t) :
    ((t.overlaid t.intake true).restartSound → exec c s = .next (t.overlaid t.intake true))
    ∧ (¬ (t.overlaid t.intake true).restartSound →
        exec c s = exec (.lineReset t.straps) (t.overlaid t.intake true)) := by
  have hself : s.overlaid s.intake true = s := by rw [← hon]; rfl
  cases hp : s.powered with
  | false =>
    have hidle := takesEveryCommand.2
    have hstart : ∀ n u l, c ≠ .powerOnReset n u l := fun _ _ _ h => by rw [h] at hc; cases hc
    rw [hidle c (s.overlaid s.intake false) hp hstart] at he
    injection he with he
    have hu : t.overlaid t.intake true = s := by rw [← he]; exact hself
    rw [hu]
    exact ⟨fun _ => hidle c s hp hstart, fun h => absurd hs h⟩
  | true =>
    obtain ⟨E, hE, hpowered, hexec⟩ := settles hp hs hon hc
    obtain ⟨hoff, hmark⟩ := hE.pending false
    have ht : t = (E s).overlaid (E s).intake false := by
      rw [hexec, hoff, settleRestart_eq_self _ rfl] at he
      injection he with he
      exact he.symm
    have hu : t.overlaid t.intake true = E s := by
      have hback : t.overlaid t.intake true = (E s).overlaid (E s).intake true := by rw [ht]; rfl
      rw [hback, ← hon, ← hmark]
      rfl
    have hrun : exec c s = .next (settleRestart (E s)) := by
      have h := hexec true
      rwa [hself] at h
    have hstraps : t.straps = (E s).straps := by rw [ht]; rfl
    rw [hu, hrun, hstraps]
    exact ⟨fun h => by rw [settleRestart_of_sound h], settleRestart_exec hpowered (hmark.trans hon)⟩

end Sys2Proof.Machine
end


section
/-! PROOFS. The reset that ORDER RESTART asks for: at once, behind its reply, or when the ACTIVE link is gone (R161). -/

namespace Sys2Proof.Machine

open Sys2Proof (Bed Flow Mode)

variable {s u v : State} {src dst arg litres : Nat}

/-! ### The reset given -/

/-- A line reset answers with a restarted part, from every state whose pins and accounts are those of before. -/
theorem lineReset_restarted (hstraps : v.straps = s.straps) (hslots : v.acct.slots = s.acct.slots) (hnom : v.nom = s.nom)
    (hdryer : v.dryer = s.dryer) : restarted s (lineReset v) := by
  obtain ⟨m, z, i, mon, j, q, k, p, heq, hleaves, hstays, -, hall, -⟩ := lineReset_shape v
  have hjoin : j ≠ .onLine := by
    by_cases hl : v.port.image.isSome = true ∧ 1 ≤ v.straps ∧ v.straps ≤ 31 ∧ v.straps ∈ v.cfg.expected
    · rw [(hleaves hl).1]; decide
    · rw [(hstays hl).1]; decide
  rw [heq]
  exact ⟨rfl, rfl, hstraps, rfl, rfl, rfl, hjoin, fun e he => (hall e he).1, hslots, hnom, hdryer⟩

/-- What an event leaves of the part beside its link, as far as a restart shows it. -/
structure State.before (s u : State) : Prop where
  pending : u.link.restartPending = s.link.restartPending
  straps : u.straps = s.straps
  slots : u.acct.slots = s.acct.slots
  nom : u.nom = s.nom
  dryer : u.dryer = s.dryer

/-- An event that leaves no reply, or no ACTIVE link, to a pending restart ends with its reset. -/
theorem finish_due (hon : u.link.restartPending = true) (h : u.link.state ≠ .active ∨ u.unasked) :
    finish u = lineReset (handAll u) := by
  rw [finish, settleRestart_due (by simpa using hon) (by simpa using h)]

theorem finish_restarted (hon : s.link.restartPending = true) (hu : s.before u) (h : u.link.state ≠ .active ∨ u.unasked) :
    restarted s (finish u) := by
  rw [finish_due (hu.pending.trans hon) h]
  exact lineReset_restarted (by simpa using hu.straps) (by simpa using hu.slots) (by simpa using hu.nom) (by simpa using hu.dryer)

/-! ### The order taken -/

theorem orderRestart_exec (hp : s.powered = true) (hc : s.train.mode ≠ .config) (h0 : src ≠ 0) (hs : src ≠ s.station)
    (hd : dst = s.station) (hconsole : src ∈ s.cfg.consoles) :
    exec (.orderRestart src dst arg litres) s = .next (finish (takeRestart src 9 arg litres s)) := by
  have harm : exec (.orderRestart src dst arg litres) s
      = received src dst 5 (fromConsole src dst) (takeRestart src 9 arg litres) s := rfl
  rw [harm, received, plain_exec hp]
  simp [filterTelegram, hc, h0, hs, hd, State.addressed, fromConsole, hconsole]

/-- Handing the fields again changes nothing. -/
theorem handAll_handed_over (h : u.handedOver) : handAll u = u := by
  have hdryer : handDryer u = u := if_pos (by rw [h]; rfl)
  have hcommand : handCommand u = u := if_pos (by rw [h]; rfl)
  have hmode : handMode u = u := if_pos (by rw [h]; rfl)
  rw [handAll, hdryer, hcommand, hmode]

theorem finish_lineReset : finish (lineReset s) = lineReset s := by
  rw [finish, handAll_handed_over lineReset_handedOver, settleRestart_eq_self _ (by simp)]

section
variable {o : Owner} {k : Nat} {r : OrderOutcome}

/-- The telegram that answers an order. -/
def replyOf (src k arg litres : Nat) (r : OrderOutcome) : Telegram :=
  .reply { console := src, command := k, arg := arg, litres := litres, outcome := r }

theorem replyTo_of_room (hr : s.roomy) (hc : s.train.mode ≠ .config) :
    replyTo o src k arg litres r s = s.onLink (·.enter (replyOf src k arg litres r) o) := by
  obtain ⟨hmark, hlen⟩ := hr
  rw [replyTo, enqueue_of_room s _ _ hc hmark (by omega)]
  simp [State.onLink, replaces, replyOf]

theorem enter_waits (t : Telegram) : (s.onLink (·.enter t o)).waits t :=
  ⟨_, (mem_insertEntry _ _ _).mpr (.inl rfl), rfl, rfl⟩

/-- A reply taken while a restart is pending, which then has its reply in the queue. -/
theorem finish_reply (hr : s.roomy) (hc : s.train.mode ≠ .config) (hon : s.link.restartPending = true)
    (hactive : s.link.state = .active) (hasked : o = .restart ∨ ∃ e ∈ s.link.queue, e.owner = .restart) :
    finish (replyTo o src k arg litres r s) = handAll (s.onLink (·.enter (replyOf src k arg litres r) o)) := by
  have hreply : ∃ e ∈ (s.link.enter (replyOf src k arg litres r) o).queue, e.owner = .restart := by
    rcases hasked with ho | ⟨e, he, ho⟩
    · exact ⟨_, (mem_insertEntry _ _ _).mpr (.inl rfl), ho⟩
    · exact ⟨e, (mem_insertEntry _ _ _).mpr (.inr he), ho⟩
  rw [finish, replyTo_of_room hr hc, settleRestart_of_sound]
  exact sound_of_link (s := s.onLink (·.enter (replyOf src k arg litres r) o)) ⟨iff_of_true hon hreply, fun _ => hactive⟩ (by simp)

end

/-! ### ORDER RESTART -/

/-- The part with the restart pending, before its reply is queued. -/
def State.asking (s : State) : State := s.onLink (fun l => { l with restartPending := true })

theorem orderRestart_inactive (h : s.obeys src dst) (hactive : s.link.state ≠ .active) :
    exec (.orderRestart src dst arg litres) s = exec (.lineReset s.straps) s := by
  obtain ⟨⟨⟨⟨hp, -⟩, hc⟩, h0, hs, -⟩, hconsole, hd⟩ := h
  have hreset : takeRestart src 9 arg litres s = lineReset s := if_pos hactive
  rw [orderRestart_exec hp hc h0 hs hd hconsole, hreset, finish_lineReset, lineReset_exec hp]

theorem orderRestart_asked (h : s.obeys src dst) (hactive : s.link.state = .active) (hr : s.roomy) :
    exec (.orderRestart src dst arg litres) s = .next (handAll (s.asking.onLink
      (·.enter (replyOf src 9 arg litres .done) .restart))) := by
  obtain ⟨⟨⟨⟨hp, hoff⟩, hc⟩, h0, hs, -⟩, hconsole, hd⟩ := h
  have htaken : takeRestart src 9 arg litres s
      = replyTo .restart src 9 arg litres .done s.asking := by
    rw [takeRestart, if_neg (not_not.mpr hactive), if_neg (by simp [hoff]), State.asking]
  rw [orderRestart_exec hp hc h0 hs hd hconsole, htaken, finish_reply (s := s.asking) hr hc rfl hactive (.inl rfl)]

theorem orderRestart_again (hp : s.powered = true) (hc : s.train.mode ≠ .config) (h0 : src ≠ 0) (hs : src ≠ s.station)
    (hd : dst = s.station) (hconsole : src ∈ s.cfg.consoles) (hactive : s.link.state = .active)
    (hon : s.link.restartPending = true) (hasked : ∃ e ∈ s.link.queue, e.owner = .restart) (hr : s.roomy) :
    exec (.orderRestart src dst arg litres) s = .next (handAll (s.onLink (·.enter (replyOf src 9 arg litres .refusedState) .other))) := by
  have htaken : takeRestart src 9 arg litres s = replyTo .other src 9 arg litres .refusedState s := by
    rw [takeRestart, if_neg (not_not.mpr hactive), if_pos hon]
  rw [orderRestart_exec hp hc h0 hs hd hconsole, htaken, finish_reply hr hc hon hactive (.inr hasked)]

/-- What an event leaves that only the link and the SETPOINT fields show. -/
theorem handed_link (f : Link → Link) :
    handAll (s.onLink f) = { s with link := f s.link, intake := s.intake.handing (handAll (s.onLink f)).intake } := by
  conv_lhs => rw [handAll_eq_handing]
  rfl

/-- A reply that the queue does not take leaves the restart without one. -/
theorem orderRestart_unadmitted (h : s.obeys src dst) (hsound : s.restartSound) (hactive : s.link.state = .active)
    (hroom : ¬ s.admits) : ∃ t, exec (.orderRestart src dst arg litres) s = .next t ∧ restarted s t := by
  obtain ⟨⟨⟨⟨hp, hoff⟩, hc⟩, h0, hs, -⟩, hconsole, hd⟩ := h
  refine ⟨_, orderRestart_exec hp hc h0 hs hd hconsole, ?_⟩
  have hdropped : takeRestart src 9 arg litres s = raiseDrop (replyOf src 9 arg litres .done) s.asking := by
    rw [takeRestart, if_neg (not_not.mpr hactive), if_neg (by simp [hoff]), replyTo]
    exact enqueue_unadmitted (s := s.asking) hc hroom rfl fun e => by simp [replaces]
  have hunasked : s.unasked := answered_of_sound hsound hoff
  have hdropped_unasked : (raiseDrop (replyOf src 9 arg litres .done) s.asking).unasked :=
    unasked_iff.mpr (raiseDrop_entries entryLaw_owner (unasked_iff.mp (show s.asking.unasked from hunasked)) _)
  rw [hdropped, finish_due (by simp [State.asking]) (.inr hdropped_unasked)]
  exact lineReset_restarted (by simp [State.asking]) (by simp [State.asking]) (by simp [State.asking]) (by simp [State.asking])

/-! ### The reply that leaves the queue -/

section
variable {a b : List Entry} {e : Entry}

theorem removed_unasked (h : s.sends a e b) (hrest : ∀ x ∈ a ++ b, x.owner ≠ .restart) : (s.onLink (·.remove e)).unasked := by
  intro x hx
  rw [State.onLink_link, State.sends.remove h] at hx
  exact hrest x hx

theorem echoIntact_restarts (hon : s.link.restartPending = true) (h : s.sends a e b) (ho : e.owner = .restart)
    (hrest : ∀ x ∈ a ++ b, x.owner ≠ .restart) : restarted s (finish (echoIntact s)) := by
  have htold : tellSent e (s.onLink (·.remove e)) = s.onLink (·.remove e) := by
    unfold tellSent
    rw [ho]
  have hecho : echoIntact s = sequencerReact (s.onLink (·.remove e)) := by
    rw [echoIntact, if_neg h.1, State.sends.onLineEntry h]
    exact congrArg sequencerReact htold
  rw [hecho]
  exact finish_restarted hon ⟨by simp [State.sends.remove h, Link.withQueue], by simp, by simp, by simp, by simp⟩
    (.inr (sequencerReact_unasked (removed_unasked h hrest)))

theorem echoMismatch_restarts (hc : s.train.mode ≠ .config) (hon : s.link.restartPending = true) (h : s.sends a e b)
    (hrest : ∀ x ∈ a ++ b, x.owner ≠ .restart) (hlast : 16 ≤ e.mismatches + 1) : restarted s (finish (echoMismatch s)) := by
  have hecho : echoMismatch s = sequencerReact (failEntry e (countReceiveError s)) := by
    rw [echoMismatch, if_neg h.1, State.sends.onLineEntry h, countBrokenEcho, if_neg hc]
    exact if_pos hlast
  have hremoved : ((countReceiveError s).onLink (·.remove e)).unasked := removed_unasked (s := countReceiveError s) h hrest
  rw [hecho]
  exact finish_restarted hon ⟨by simp, by simp, by simp, by simp, by simp⟩
    (.inr (sequencerReact_unasked (unasked_iff.mpr (failEntry_entries entryLaw_owner (unasked_iff.mp hremoved)))))

end

end Sys2Proof.Machine
end


section
/-! PROOFS. The pending restart whose reply a HALT's OFFER evicts, or whose link leaves ACTIVE (R148, R151, R152, R161); and what
the statement of ORDER RESTART says of it all. -/

namespace Sys2Proof.Machine

open Sys2Proof (Bed Flow Mode)

variable {s : State} {e : Entry} {q : List Entry} {cls : Nat}

/-! ### The newest waiting entry above a class (R147) -/

/-- The newer of the best entry yet and another. -/
def newer (best : Option Entry) (e : Entry) : Option Entry :=
  match best with
  | none => some e
  | some b => if e.ticket > b.ticket then some e else some b

theorem newestAbove_eq (cls : Nat) (q : List Entry) : newestAbove cls q
    = (q.filter (fun e => !e.onLine && decide (telegramClass e.telegram > cls))).foldl newer none := rfl

theorem newer_spec (best : Option Entry) (e : Entry) : ∃ r, newer best e = some r ∧ e.ticket ≤ r.ticket
    ∧ ∀ b, best = some b → b.ticket ≤ r.ticket := by
  unfold newer
  rcases best with _ | b
  · exact ⟨e, rfl, Nat.le_refl _, fun b h => by cases h⟩
  · dsimp only
    split
    · next h => exact ⟨e, rfl, Nat.le_refl _, fun b' hb => by cases hb; omega⟩
    · next h => exact ⟨b, rfl, by omega, fun b' hb => by cases hb; omega⟩

theorem foldl_newer_some (l : List Entry) (b : Entry) :
    ∃ r, l.foldl newer (some b) = some r ∧ b.ticket ≤ r.ticket ∧ ∀ x ∈ l, x.ticket ≤ r.ticket := by
  induction l generalizing b with
  | nil => exact ⟨b, rfl, Nat.le_refl _, fun x hx => by cases hx⟩
  | cons y rest ih =>
    obtain ⟨b', hb', hy, hb⟩ := newer_spec (some b) y
    obtain ⟨r, hr, hle, hrest⟩ := ih b'
    have hbr := hb b rfl
    refine ⟨r, by rw [List.foldl_cons, hb', hr], by omega, fun x hx => ?_⟩
    obtain rfl | hx := List.mem_cons.mp hx
    · omega
    · exact hrest x hx

/-- The newest waiting entry of a higher class number is the one with the latest ticket. -/
theorem newestAbove_newest (he : e ∈ q) (hline : e.onLine = false) (hcls : cls < telegramClass e.telegram) :
    ∃ r, newestAbove cls q = some r ∧ e.ticket ≤ r.ticket := by
  have hmem : e ∈ q.filter (fun e => !e.onLine && decide (telegramClass e.telegram > cls)) := by
    simp [he, hline, hcls]
  rw [newestAbove_eq]
  generalize q.filter _ = l at hmem
  rcases l with _ | ⟨y, rest⟩
  · cases hmem
  · obtain ⟨r, hr, hle, hrest⟩ := foldl_newer_some rest y
    refine ⟨r, hr, ?_⟩
    obtain rfl | hx := List.mem_cons.mp hmem
    · exact hle
    · exact hrest e hx

/-- An entry with the latest ticket of those that wait is the one that gives way. -/
theorem newestAbove_of_latest (he : e ∈ q) (hline : e.onLine = false) (hcls : cls < telegramClass e.telegram)
    (hlatest : ∀ x ∈ q, x ≠ e → x.onLine = false → x.ticket < e.ticket) : newestAbove cls q = some e := by
  obtain ⟨r, hr, hle⟩ := newestAbove_newest he hline hcls
  obtain ⟨hmem, hwaits, -⟩ := newestAbove_spec hr
  rw [hr]
  by_contra hne
  have hlt := hlatest r hmem (fun h => hne (h ▸ rfl)) hwaits
  omega

/-! ### The eviction by a HALT's OFFER -/

/-- A reply in a full queue that an entering telegram finds the newest of a higher class number. -/
theorem enqueue_evicts_reply (hc : s.train.mode ≠ .config) {t : Telegram} {o : Owner} (ho : o ≠ .restart)
    (hfull : s.link.queue.length = 12) (hnew : ∀ x ∈ s.link.queue, replaces t x = false) (hthree : telegramClass t ≠ 3)
    (he : e ∈ s.link.queue) (hline : e.onLine = false) (hcls : telegramClass t < telegramClass e.telegram)
    (hrest : ∀ x ∈ s.link.queue, x ≠ e → x.owner ≠ .restart ∧ (x.onLine = false → x.ticket < e.ticket)) :
    (enqueue t o s).unasked := by
  have hfate : fateOf s.link t = .evicting e := by
    have hany : ¬ s.link.queue.any (replaces t) = true := by simpa using hnew
    rw [fateOf, if_neg hany, if_neg (by simp [hthree]), if_neg (by omega),
      newestAbove_of_latest he hline hcls fun x hx hne => (hrest x hx hne).2]
  have hremoved : (s.onLink (·.remove e)).unasked := fun x hx => by
    obtain ⟨hmem, hticket⟩ := List.mem_filter.mp hx
    exact (hrest x hmem fun h => by simp [h] at hticket).1
  have hlost : (raiseDrop e.telegram (tellUnsent e.owner e.telegram (s.onLink (·.remove e)))).unasked :=
    unasked_iff.mpr (raiseDrop_entries entryLaw_owner (unasked_iff.mp ((tellUnsent_unasked _ _).mpr hremoved)) _)
  rw [enqueue, if_neg hc, hfate]
  exact unasked_iff.mpr (enter_entries entryLaw_owner (unasked_iff.mp hlost) t ho)

theorem shutIn_evicts_reply (hc : s.train.mode ≠ .config) (hshut : s.train.mode ≠ .shutIn)
    (hfull : s.link.queue.length = 12)
    (hoffer : ∀ x ∈ s.link.queue, ∀ d w x' y z u, x.telegram ≠ .offer d w x' y z u)
    (he : e ∈ s.link.queue) (hline : e.onLine = false) (hcls : 2 ≤ telegramClass e.telegram)
    (hrest : ∀ x ∈ s.link.queue, x ≠ e → x.owner ≠ .restart ∧ (x.onLine = false → x.ticket < e.ticket)) :
    (shutIn s).unasked := by
  have hlink : (stopTrain .shutIn s).link = s.link := by simp
  have hmode : (stopTrain .shutIn s).train.mode ≠ .config := by rw [stopTrain_shutIn_train]; simp
  have hclass : telegramClass (offerTelegram (stopTrain .shutIn s)) = 1 := rfl
  have hnew (x : Entry) (hx : x ∈ s.link.queue) : replaces (offerTelegram (stopTrain .shutIn s)) x = false := by
    unfold replaces offerTelegram
    split
    · next h => exact absurd h (hoffer x hx _ _ _ _ _ _)
    · simp_all
    · simp
  rw [shutIn, if_neg (by simp [hc, hshut])]
  exact sequencerReact_unasked (enqueue_evicts_reply hmode (by decide) (by rw [hlink]; exact hfull)
    (by rw [hlink]; exact hnew) (by rw [hclass]; decide) (by rw [hlink]; exact he) hline
    (by rw [hclass]; omega) (by rw [hlink]; exact hrest))

/-- The first HALT of a part with a full queue, whose OFFER takes the place of the reply (R66, R148). -/
theorem halt_restarts {src dst reason : Nat} (hp : s.powered = true)
    (hon : s.link.restartPending = true) (h0 : src ≠ 0) (hs : src ≠ s.station) (hd : dst = 0 ∨ dst = s.station)
    (hnone : s.link.haltSet = []) (hunasked : (shutIn (addHalt src s)).unasked) :
    ∃ t, exec (.halt src dst reason) s = .next t ∧ restarted s t ∧ t.link.haltSet = [src] := by
  have ha : s.addressed dst = true := by simpa [State.addressed] using hd
  have htaken : takeHalt src s = shutIn (addHalt src s) := by
    rw [takeHalt_of_new (by simp [hnone]), if_pos hnone]
  have hexec : exec (.halt src dst reason) s = .next (finish (takeHalt src s)) := by
    have harm : exec (.halt src dst reason) s = execHalt src dst reason s := rfl
    rw [harm, execHalt, plain_exec hp]
    simp [filterHalt, h0, hs, ha]
  have hdue : (takeHalt src s).link.state ≠ .active ∨ (takeHalt src s).unasked := .inr (htaken ▸ hunasked)
  have hbefore : s.before (takeHalt src s) := ⟨by simp, by simp, by simp, by simp, by simp⟩
  refine ⟨_, hexec, finish_restarted hon hbefore hdue, ?_⟩
  rw [finish_due (hbefore.pending.trans hon) hdue]
  have hkept : (lineReset (handAll (takeHalt src s))).link.haltSet = (handAll (takeHalt src s)).link.haltSet := by
    obtain ⟨m, z, i, mon, j, q, k, p, heq, -⟩ := lineReset_shape (handAll (takeHalt src s))
    rw [heq]
    rfl
  rw [hkept, handAll_eq_handing]
  simp [takeHalt_haltSet, hnone]

/-! ### The link that leaves ACTIVE -/

theorem quitService_restarts {st : LinkState} (hst : st ≠ .active) (c : Cond) (v : Int) (hon : s.link.restartPending = true) :
    restarted s (finish (quitService st c v s)) :=
  finish_restarted hon ⟨by simp, by simp, by simp, by simp, by simp⟩ (.inl (by simpa using hst))

/-- An event of the line that ends with the handing of the SETPOINT fields and the pending restart. -/
theorem finishing_exec {c : Instr} {f : State → State} (harm : ∀ u, exec c u = whilePowered (fun u => finish (f u)) u)
    (hp : s.powered = true) : exec c s = .next (finish (f s)) := (harm s).trans (plain_exec hp _)

theorem lineHeld_restarts (hp : s.powered = true) (hc : s.train.mode ≠ .config) (hon : s.link.restartPending = true)
    (h : s.link.state = .joining ∨ s.link.state = .active) : ∃ t, exec .lineHeld s = .next t ∧ restarted s t := by
  have hheld : lineHeld s = quitService .fault .linkFault 2 s := by
    rw [lineHeld, if_neg hc, ← enterFault_eq]
    rcases h with h | h <;> rw [h]
  refine ⟨_, finishing_exec (f := lineHeld) (fun _ => rfl) hp, ?_⟩
  rw [hheld]
  exact quitService_restarts (by decide) _ _ hon

theorem dupStation_restarts (hp : s.powered = true) (hc : s.train.mode ≠ .config) (hon : s.link.restartPending = true)
    (h : s.link.state ≠ .silent) (kind : Nat) : ∃ t, exec (.dupStation kind) s = .next t ∧ restarted s t := by
  have hexec : exec (.dupStation kind) s = .next (finish (takeDuplicate kind s)) := by
    have harm : exec (.dupStation kind) s = execDupStation kind s := rfl
    rw [harm, execDupStation, plain_exec hp, if_neg fun hx => hc hx.1]
  refine ⟨_, hexec, ?_⟩
  rw [takeDuplicate_eq h]
  exact quitService_restarts (by decide) _ _ hon

/-- The third failure of the JOIN (R151). -/
theorem joinMismatch_restarts (hp : s.powered = true) (hc : s.train.mode ≠ .config) (hon : s.link.restartPending = true)
    (hjoin : s.link.join = .onLine) (hstate : s.link.state = .joining) (h : 2 ≤ s.link.joinFailures) :
    ∃ t, exec .echoMismatch s = .next t ∧ restarted s t := by
  let u := (countReceiveError s).onLink (fun l => { l with join := .waiting, joinFailures := l.joinFailures + 1 })
  have hthird : 3 ≤ u.link.joinFailures := Nat.succ_le_succ h
  have hstate' : (countReceiveError s).link.state = .joining := hstate
  have hfault : echoMismatch s = quitService .fault .linkFault 1 u := by
    rw [echoMismatch, if_pos hjoin, countBrokenEcho, if_neg hc, joinMismatch, hstate', ← enterFault_eq]
    exact if_pos hthird
  refine ⟨_, finishing_exec (f := echoMismatch) (fun _ => rfl) hp, ?_⟩
  rw [hfault]
  exact quitService_restarts (s := u) (by decide) _ _ hon

/-- Settles O34: the restart is given at once out of ACTIVE, waits for its reply in ACTIVE, and comes when the reply or the ACTIVE
link is gone; every other event is beside it what it is without. -/
theorem orderRestart : Obligations.OrderRestart := by
  refine ⟨fun s src dst arg litres h => ⟨orderRestart_inactive h, fun hactive hr => ?asked⟩, ?again,
    fun s src dst arg litres h => orderRestart_unadmitted h, ?sent, ?evicted, ?left, fun c s t h => exec_restartSound h, ?beside⟩
  case asked =>
    refine ⟨_, orderRestart_asked h hactive hr, ?_⟩
    rw [handed_link]
    exact ⟨rfl, hactive, enter_waits _, rfl⟩
  case again =>
    intro s src dst arg litres hp hc h0 hs hd hconsole hactive hon hasked hr
    refine ⟨_, orderRestart_again hp hc h0 hs hd hconsole hactive hon hasked hr, ?_⟩
    rw [handed_link]
    exact ⟨hon, enter_waits _, rfl⟩
  case sent =>
    intro s a e b hp hc hon h ho hrest
    exact ⟨⟨_, finishing_exec (f := echoIntact) (fun _ => rfl) hp, echoIntact_restarts hon h ho hrest⟩,
      fun hlast => ⟨_, finishing_exec (f := echoMismatch) (fun _ => rfl) hp, echoMismatch_restarts hc hon h hrest hlast⟩⟩
  case evicted =>
    intro s src dst reason e hp hc hshut hon h0 hs hd hnone hfull hoffer he _ hline hcls hrest
    exact halt_restarts hp hon h0 hs hd hnone
      (shutIn_evicts_reply (s := addHalt src s) hc hshut hfull hoffer he hline hcls hrest)
  case left =>
    intro s hp hc hon
    exact ⟨lineHeld_restarts hp hc hon, dupStation_restarts hp hc hon, joinMismatch_restarts hp hc hon⟩
  case beside =>
    intro c s t hs hon hstart hloss hline hrestart he
    refine exec_beside hs hon ?_ he
    cases c with
    | powerOnReset n u l => exact absurd rfl (hstart n u l)
    | powerLoss => exact absurd rfl hloss
    | lineReset n => exact absurd rfl (hline n)
    | orderRestart src dst arg litres => exact absurd rfl (hrestart src dst arg litres)
    | _ => rfl

end Sys2Proof.Machine
end
